-- ==== Sys2Proof/Word.lean ====
section
/-! DEFINITION. Word types and plain arithmetic: two's complement, saturation, rounding (R4, R512), little-endian
byte lists and bit slices of natural numbers. -/

namespace Sys2Proof

abbrev Byte := BitVec 8
abbrev Word := BitVec 32
abbrev DWord := BitVec 64

namespace Arith

/-- Bits [lo + w − 1 : lo] of `v`. -/
def slice (v lo w : Nat) : Nat := (v >>> lo) % 2 ^ w

/-- Bit `i` of `v`. -/
def bit (v i : Nat) : Bool := v.testBit i

/-- `v` with bit `i` made `b`. -/
def putBit (v i : Nat) (b : Bool) : Nat :=
  if b then v ||| 2 ^ i else if v.testBit i then v - 2 ^ i else v

/-- The number of the bit `b`. -/
def ofBool (b : Bool) : Nat := if b then 1 else 0

/-- The signed value of a `w`-bit two's complement pattern. -/
def toSigned (w v : Nat) : Int :=
  if v % 2 ^ w < 2 ^ (w - 1) then (v % 2 ^ w : Nat) else (v % 2 ^ w : Nat) - (2 ^ w : Nat)

/-- The `w`-bit two's complement pattern of `x`, wrapping. -/
def ofSigned (w : Nat) (x : Int) : Nat := (x % (2 ^ w : Nat)).toNat

/-- The stamp `d` ticks after `t` (R16). -/
def stampAdd (t : Nat) (d : Int) : Nat := (((t : Int) + d) % (2 ^ 64 : Nat)).toNat

/-- The ticks from stamp `b` to stamp `a` (R16). -/
def stampSub (a b : Nat) : Nat := stampAdd a (-(b : Int))

/-- Stamp `a` lies before stamp `b` on the circle of R16. -/
def stampLt (a b : Nat) : Bool := decide (2 ^ 63 ≤ stampSub a b)

/-- `x` held to the range of a `w`-bit signed field. -/
def satSigned (w : Nat) (x : Int) : Int :=
  if x < -(2 ^ (w - 1) : Nat) then -(2 ^ (w - 1) : Nat)
  else if (2 ^ (w - 1) : Nat) - 1 < x then (2 ^ (w - 1) : Nat) - 1 else x

/-- `x` held to the range of a `w`-bit unsigned field. -/
def satNat (w : Nat) (x : Nat) : Nat := if x < 2 ^ w then x else 2 ^ w - 1

/-- `n / d` rounded to nearest, halves away from zero (R512); 0 for a zero divisor. -/
def roundDiv (n : Int) (d : Nat) : Int :=
  if d = 0 then 0
  else if 0 ≤ n then (2 * n + d) / (2 * d) else -((2 * (-n) + d) / (2 * d))

/-- `n / d` rounded up; 0 for a zero divisor. -/
def ceilDiv (n d : Nat) : Nat := if d = 0 then 0 else (n + d - 1) / d

/-- The integer square root, by bisection on the bits from `k` down. -/
def sqrtLoop (v : Nat) : Nat → Nat → Nat
  | 0, r => r
  | k + 1, r =>
    let c := r + 2 ^ k
    sqrtLoop v k (if c * c ≤ v then c else r)

/-- The integer square root of a number below 2^128, rounded down. -/
def isqrt (v : Nat) : Nat := sqrtLoop v 64 0

/-- The square root rounded to nearest. -/
def rsqrt (v : Nat) : Nat :=
  let r := isqrt v
  if r * r + r < v then r + 1 else r

/-- The low `n` bytes of `v`, the least significant first (R4). -/
def leBytes : Nat → Nat → List Nat
  | 0, _ => []
  | n + 1, v => v % 256 :: leBytes n (v / 256)

/-- The number that a list of bytes spells, the least significant first (R4). -/
def ofLeBytes : List Nat → Nat
  | [] => 0
  | b :: bs => b % 256 + 256 * ofLeBytes bs

/-- The 32-bit words of a list of bytes, a short last word filled with zeros. -/
def wordsOfBytes : List Nat → List Nat
  | a :: b :: c :: d :: r => ofLeBytes [a, b, c, d] :: wordsOfBytes r
  | [] => []
  | l => [ofLeBytes l]

/-- The bytes of a list of 32-bit words, little-endian. -/
def bytesOfWords (l : List Nat) : List Nat := l.flatMap (leBytes 4)

/-- One bit of the CRC-32 of IEEE 802.3, reflected. -/
def crcBit (c : Nat) : Nat := if c % 2 = 1 then (c / 2) ^^^ 0xEDB88320 else c / 2

/-- One byte of the CRC-32. -/
def crcByte (c b : Nat) : Nat :=
  crcBit (crcBit (crcBit (crcBit (crcBit (crcBit (crcBit (crcBit (c ^^^ b))))))))

/-- The CRC-32 of R396 over a list of bytes. -/
def crc32 (l : List Nat) : Nat := l.foldl crcByte 0xFFFFFFFF ^^^ 0xFFFFFFFF

/-- The set bits of `v` below `n`, in rising order. -/
def bitsOf (n v : Nat) : List Nat := (List.range n).filter v.testBit

/-- How many of the low `n` bits of `v` are set. -/
def popcount (n v : Nat) : Nat := (bitsOf n v).length

end Arith
end Sys2Proof
end

