-- ==== Sys2Proof/Packet.lean ====
section
/-! DEFINITION. The operands that a command of the table carries when they have parts of their own: who sends a
command packet, the packet (R395), and the measured data that an event of the part brings from its balls. -/

namespace Sys2Proof

/-- A command source (R372, R400). The console runs single packets (R463); firmware is Chadihus itself. -/
inductive Requester where
  | pcie
  | eth (m : Fin 2) (addr port : Nat)
  | spi
  | console
  | firmware
  deriving DecidableEq, Repr

/-- What the I2C bus does in an I2C_XFER (R392, R422): the bytes read, a NAK of the byte with an index, a PEC that does
not match, or stretching past 25 ms. -/
inductive BusEnd where
  | data (l : List Nat)
  | nak (i : Nat)
  | pec
  | timeout
  deriving DecidableEq, Repr

/-- A command packet (R395): its header fields, word 0 [31:27] among them, its parameter words, and for PCIe the result buffer of its
descriptor (R376). -/
structure Packet where
  req    : Requester
  op     : Nat
  tag    : Nat
  fence  : Bool
  notify : Bool
  urgent : Bool
  seq    : Nat
  job    : Nat
  words  : List Nat
  rcap   : Nat
  result : Nat
  rsv    : Nat
  /-- What the bus answers to an I2C_XFER. -/
  bus    : BusEnd
  deriving DecidableEq, Repr

/-- An array datagram as it arrives (R469): the address it comes from, word 0 below TYPE, ARRAY_NO, SEQ, the body and
the CRC word. -/
structure AryPkt where
  addr : Nat
  head : BitVec 24
  no   : BitVec 32
  seq  : BitVec 32
  body : List (BitVec 32)
  crc  : BitVec 32
  deriving DecidableEq, Repr

/-- What an Ethernet frame that is not a command or array datagram is (R384, R389). -/
inductive EthFrame where
  /-- FCS or length error. -/
  | bad
  /-- An ARP request, an echo request or a Neighbour Solicitation for this port, with the bytes that its answer takes. -/
  | ask (kind : String) (bytes : List Byte)
  /-- A received PAUSE of `quanta`. -/
  | pause (quanta : BitVec 16)
  /-- A PTP message: its messageType when it is an event message, with what the servo makes of it: its state, the offset
from the master and the mean path delay (3.125 ps), the grandmaster, the correction that it makes (3.125 ps, positive to
gain time), and whether the port is to be in the master state. -/
  | ptp (event : Option (Fin 4)) (state : Fin 4) (offset : Word) (delay : Word) (gm : DWord) (corr : Option (BitVec 80))
      (master : Bool)
  /-- Not addressed to the port, or of a protocol that is not served. -/
  | other
  deriving DecidableEq, Repr

/-- Who holds or asks for hods (R436). -/
inductive HodUser where
  | mode
  | port (n : Nat)
  | dram
  | sco
  | group (g : Nat)
  | engine (e : Nat)
  /-- The engines of a tile-start that waits, as a mask. -/
  | engines (m : Nat)
  | dts (n : Nat)
  | cal (t : Nat)
  deriving DecidableEq, Repr

/-- The outcome of a check at a ball or in a loop that the part itself measures. -/
abbrev Measured := Int

/-- A tick's stamp with the TDC fraction of an edge (u0.8). -/
structure Edge where
  rising : Bool
  frac   : BitVec 8
  /-- The selected level lasts at least 1.6 ns (R86). -/
  long   : Bool
  deriving DecidableEq, Repr

/-- The codes that the four converters of a port give at one tick (R123, R124), before INVERT. -/
structure Codes where
  (xi xq yi yq : BitVec 12)
  deriving DecidableEq, Repr

/-- A sample after stage 3 and the CORDIC (R143, R145): phase u1.15, power u2.14, polarisation, and the CLIP and SAT
marks. -/
structure Sample where
  theta : Nat
  power : Nat
  pol   : Bool
  clip  : Bool
  sat   : Bool
  deriving DecidableEq, Repr

/-- What the SECDED codes show in the data a step reads (R334, R351): corrected words, and the places (records,
points, units) with an uncorrectable error. -/
structure Ecc where
  ce : Nat
  ue : List Nat
  deriving DecidableEq, Repr

/-- The codes of the two Raman channels of a port at one converter sample (R216), and whether full scale is reached there:
that of the converter, or in CHARGE mode that of the integrator (R218). -/
structure RCode where
  (s0 s1 : BitVec 14)
  (c0 c1 : Bool)
  deriving DecidableEq, Repr

/-- A native sample summed over accepted traces: the two channels and their CLIP bits (R223). -/
structure RSum where
  (s0 s1 : Int)
  (c0 c1 : Bool)
  deriving DecidableEq, Repr

end Sys2Proof
end

