-- ==== Sys2Proof/Syntax.lean ====
section
/-! DEFINITION. The commands of the part: one constructor for each row of the opcode table, with the operands that the
row's rule gives it. Rows that stand for something that happens inside the part carry what the part then measures. -/

namespace Sys2Proof

inductive Instr where
  -- The register space and BAR2
  | registerWrite (off : BitVec 24) (sized : Bool) (v : Word)
  | lowWordRead (off : BitVec 24) (sized : Bool)
  | lowWordWrite (off : BitVec 24) (v : Word)
  | highWordWrite (off : BitVec 24) (v : Word)
  | bar2Read (off : BitVec 30) (n : BitVec 7) (ecc : Ecc)
  | bar2Write (off : BitVec 30) (l : List Byte)
  -- Resets, boot and sensors
  | porNAssert
  | vdda18Brownout
  | rstNAssert
  | resetRelease (tj : Word) (rail bad : Bool)
  | bootLockTimeout
  | bootComplete
  | bootWatchdog
  | runWatchdog
  | failsClear
  | sysRstCtrlWrite (v : Word)
  | thermalTrip
  | sensorSample (die : Vector Word 8) (sup : Vector Word 7)
  | pmbusPoll (r : Fin 16) (v i t : Word) (status : BitVec 16)
  | pmAlert
  -- SYN
  | synEnable (p : Fin 5)
  | synDisable (p : Fin 5)
  | refModeWrite (m : BitVec 2)
  | lockDeclared (p : Fin 5) (err : Measured)
  | lockLoss (p : Fin 5) (err : Measured)
  | bandFail (p : Fin 5)
  | bandSearch (p : Fin 5)
  | bandSearchDone (p : Fin 5) (found : Option (BitVec 6))
  | ocxoRdyRise
  | ocxoRdyFall
  | csyCommit (k : Fin 2)
  | phaseEpochWrite (e : DWord)
  | refLoss (rem : Measured)
  | refReturn (jump : Measured)
  | slewDone
  -- TBU and TDC
  | epochLoad (onPps : Bool) (src : BitVec 2)
  | epochStep (onPps : Bool) (src : BitVec 2)
  | actionDisarm (onPps : Bool) (src : BitVec 2)
  | holdEnd
  | timeAdjust (x : Word)
  | ppsInQualified (q : Nat) (frac : Byte)
  | ppsRunt
  | ppsMiss
  | ppsOutPulse
  | tdcEdge (u : Fin 8) (e : Edge)
  | tdcTimeout (u : Fin 8)
  | tdcOrderWindowEnd (u : Fin 8)
  | tdcFire (u : Fin 8)
  | tdcEnable (u : Fin 8)
  | tdcDisable (u : Fin 8)
  | tdcFifoPop (u : Fin 8)
  | tdcStatClear (u : Fin 8)
  -- Launch, routes, interlock and port states
  | launchFetch (n : Fin 4)
  | pointOfNoReturn (n : Fin 4)
  | slotHop (n : Fin 4) (phase : BitVec 48)
  | launch (n : Fin 4)
  | chirpStart (n : Fin 4)
  | ramanTrigger (n : Fin 4)
  | gatePulseEnd (n : Fin 4)
  | gateOpen (n : Fin 4)
  | gateShort (n : Fin 4)
  | biasWrite (n : Fin 4) (code : BitVec 16) (slew : BitVec 15)
  | biasMoveStart (n : Fin 4)
  | biasSettled (n : Fin 4)
  | rowSlotStart
  | diagSample (e : Fin 64) (mA : Byte)
  | rowShort (mA : Byte)
  | columnShort (c : Fin 8)
  | scanEnd
  | scanEnable (en : Bool)
  | routeSelWrite (n : Fin 4) (i : Fin 16)
  | routeDrainEnd (n : Fin 4)
  | routeSettleEnd (n : Fin 4)
  | elemForceWrite (e : Fin 64) (force : BitVec 2)
  | ilkInLow
  | ilkInHigh
  | loopQualified
  | swStopWrite (b : Bool)
  | ilkCtrlClear
  | neReport (n : Fin 4) (stamp : DWord) (xs : List Codes)
  | drainEnd (n : Fin 4)
  | watchReturn (n : Fin 4)
  | wake (n : Fin 4)
  -- CDG and its calibration
  | sampleClip (n k : Fin 4) (code : BitVec 12)
  | hardOverload (n k : Fin 4)
  | rateReduce (n : Fin 4)
  | cdgReady (n : Fin 4)
  | quietWindowEnd (n : Fin 4) (xs : List Codes) (ram : List (BitVec 14 × BitVec 14))
  | cdgCalStepStart (n : Fin 4)
  | cdgQuietCheckEnd (n : Fin 4) (xs : List Codes)
  | cdgCalStepEnd (n : Fin 4) (kind : Fin 3) (sel : List Nat)
  -- Course pipeline, zones, filters, events
  | courseVisitStart (n : Fin 4) (xs : List Codes) (ecc : Ecc)
  | courseCommit (n : Fin 4)
  | monitorCause (n : Fin 4)
  | releaseStart (n : Fin 4) (ecc : Ecc)
  | releaseEnd (n : Fin 4)
  | zonNgWrite (n : Fin 4) (ng : BitVec 24)
  | ngRecomputeDone
  | zonCtrlCommit
  | zoneCommitDone
  | zonCtrlDiscard
  | zoneDiscardDone
  | zonCourse (n : Fin 4)
  | fdcCourse (n : Fin 4) (ecc : Ecc)
  | fdcGap (n : Fin 4)
  | fdcSync (n : Fin 4)
  | eveFrame (n : Fin 4) (bad : Bool) (ecc : Ecc)
  | thresholdCommit (i : Byte)
  | wakeCancel (mask : BitVec 4)
  -- RRX
  | traceStart (n : Fin 4)
  | traceEnd (n : Fin 4) (xs : List RCode)
  | profileRecord (n : Fin 4)
  | ramanCalStepStart (n : Fin 4)
  | ramanCalStepEnd (n : Fin 4) (kind : Fin 3) (meas : List (Int × Nat))
  -- RSF
  | rsfEnable
  | rsfDisable
  | rsfSequenceStart
  | rsfSlotStart
  | rsfModulationStart
  | rsfModulationEnd (code : Int) (rail refLow compliance : Bool)
  | rsfResultPost
  | senClamp (b : Fin 16)
  | rsfSelfcalWrite
  | selfcalSlotEnd (sel : Option (List Nat))
  | rsfRawRead (c : Fin 16)
  | rsfGoodRead (c : Fin 16)
  -- VDC: groups and kernels
  | groupWakeDone (g : Fin 8)
  | kernelLoadDone (g : Fin 8)
  | suspendTimeout (g : Fin 8)
  | vdcItemDeliver
  | xferDone (c : Fin 64)
  | outComplete (c : Fin 64)
  | illegalInstruction (c : Fin 64)
  -- VDC: the instructions of a core
  | ctrlNop (c : Fin 64)
  | br (c : Fin 64)
  | call (c : Fin 64)
  | ret (c : Fin 64)
  | loop (c : Fin 64)
  | halt (c : Fin 64)
  | sync (c : Fin 64)
  | mpy (c : Fin 64)
  | mac (c : Fin 64)
  | msu (c : Fin 64)
  | acc (c : Fin 64)
  | clra (c : Fin 64)
  | asra (c : Fin 64)
  | accsum (c : Fin 64)
  | movaS (c : Fin 64)
  | movaW (c : Fin 64)
  | vstaS (c : Fin 64)
  | vadd (c : Fin 64)
  | vsub (c : Fin 64)
  | vadds (c : Fin 64)
  | vsubs (c : Fin 64)
  | vabs (c : Fin 64)
  | vand (c : Fin 64)
  | vor (c : Fin 64)
  | vxor (c : Fin 64)
  | vasr (c : Fin 64)
  | vlsr (c : Fin 64)
  | vshl (c : Fin 64)
  | vmin (c : Fin 64)
  | vmax (c : Fin 64)
  | vbc (c : Fin 64)
  | vext (c : Fin 64)
  | vorr (c : Fin 64)
  | srchInit (c : Fin 64)
  | smax (c : Fin 64)
  | smin (c : Fin 64)
  | smaxu (c : Fin 64)
  | sminu (c : Fin 64)
  | sfold (c : Fin 64)
  | add (c : Fin 64)
  | sub (c : Fin 64)
  | and (c : Fin 64)
  | or (c : Fin 64)
  | xor (c : Fin 64)
  | shl (c : Fin 64)
  | asr (c : Fin 64)
  | lsr (c : Fin 64)
  | mul (c : Fin 64)
  | addi (c : Fin 64)
  | subi (c : Fin 64)
  | ldi (c : Fin 64)
  | mfs (c : Fin 64)
  | mts (c : Fin 64)
  | wait (c : Fin 64)
  | out (c : Fin 64)
  | trig (c : Fin 64)
  | xferTo (c : Fin 64)
  | xferFrom (c : Fin 64)
  -- ACQ
  | acqArmWrite (k : Fin 4)
  | acqDisarmWrite (k : Fin 4)
  | acqSwtrigWrite (mask : BitVec 16)
  | seqTimerExpire (t : Fin 2)
  | seqEnable (start : BitVec 4)
  | seqDisable
  | preFilled (k : Fin 4)
  | acqUnitStore (k : Fin 4) (level : BitVec 17) (ecc : Ecc)
  | segmentComplete (k : Fin 4) (xs : List Codes) (ecc : Ecc)
  | rearmDone (k : Fin 4)
  | segmentRelease (k : Fin 4)
  | slotFree (k : Fin 4) (slot : BitVec 9)
  -- CMP
  | cmpRow
  | cmpGap
  | cmpFlushWrite (mask : Word)
  | tileRelease (n : Fin 4) (fault : Fin 3) (ecc : Ecc)
  | tileTimeout (n : Fin 4)
  -- Streams
  | streamRecordSend (st : Fin 7)
  | strRdWrite (st : Fin 7) (rd : DWord)
  -- HIF: PCI Express and Ethernet
  | sqTailWrite (v : Word)
  | descriptorFetch (d : Vector Word 8) (l : List Byte) (dma : Bool) (bus : BusEnd)
  | cqHeadWrite (v : Word)
  | cqCoalesceTimer
  | pcieLinkDown
  | flr
  | d3hotEntry
  | d0Return
  | cmdDatagram (m : Fin 2) (addr : BitVec 128) (port : BitVec 16) (l : List Byte) (frag : Bool) (bus : BusEnd)
  | ethFrameRx (m : Fin 2) (f : EthFrame)
  | ethLinkChange (m : Fin 2) (up : Bool)
  -- The SPI slave
  | spiWriteWord (off : BitVec 24) (v : Word)
  | spiReadWord (off : BitVec 24)
  | spiWritePacket (l : List Byte) (bus : BusEnd)
  | spiReadReply
  | spiReadStatus
  | spiAbort
  -- The console
  | consoleHelp
  | consoleStatus
  | consoleLog (n : BitVec 16)
  | consolePkt (l : List Byte) (bus : BusEnd)
  | consoleBoot (k : Fin 2)
  | consoleReset
  | consoleFoot
  | consoleBaud (r : BitVec 20)
  -- The test port
  | jtagBypass (tdi : List Bool)
  | jtagIdcode (tdi : List Bool)
  | jtagSamplePreload (balls tdi : List Bool)
  | jtagExtest (balls tdi : List Bool)
  | jtagClamp (tdi : List Bool)
  | jtagHighz (tdi : List Bool)
  | trstNAssert
  -- MEM
  | scrubLine (ecc : Ecc)
  | dramTrainingStep (r : Fin 3)
  | selfRefreshEntry
  | selfRefreshExit
  | retrainDeferEnd
  | memCtrlRetrain
  | refreshDue (c : Fin 2)
  | panicChange (lv : Vector (BitVec 17) 4) (lb : BitVec 16) (left : Bool)
  | mr4Poll (m : Option (Fin 5))
  | rhWindowEnd (l : List (Fin 2 × Fin 2 × Fin 16 × Fin 16))
  -- SCO
  | scoTile
  | scoGapRecord
  | scoCommitWrite
  | scoTcommitWrite
  | vblankStart
  | frameEnd
  | lineUnderrun (line x : BitVec 13)
  | pnlTeEdge (rising : Bool)
  | teDelayEnd
  | teTimeout
  -- Hods, modes, calibration, update and snapshot
  | hodGrant
  | hodTimeout (u : HodUser)
  | fenceRelease
  | modeChangeDone (failed : Bool)
  | portPowerOff (n : Fin 4)
  | csyIdleStop (k : Fin 2)
  | standbyWakeTimer
  | standbyWakeCs
  | cal24hTimer (t : Fin 9)
  | calRetryTimer (t : Fin 9)
  | plumbHodRetry
  | calBlocked
  | calBlockedRetry (t : Fin 9)
  | updateVerifyDone (programmed : Bool)
  | snapshotDone
  -- ARY
  | aryJoin (p : AryPkt)
  | aryAccept (p : AryPkt)
  | aryRefuse (p : AryPkt)
  | aryBeat (p : AryPkt)
  | aryBeatAck (p : AryPkt)
  | aryArm (p : AryPkt)
  | aryArmAck (p : AryPkt)
  | aryDisarm (p : AryPkt)
  | aryCancel (p : AryPkt)
  | aryFire (p : AryPkt)
  | aryLeave (p : AryPkt)
  | aryDissolve (p : AryPkt)
  | aryBeatTimer
  | aryOrphanRemove (i : BitVec 12)
  | aryBeatTimeout
  | aryOrphanLeave
  | aryJoinRetry
  | aryJoinTimeout
  | aryArmResend
  | aryDisarmTimeout
  | aryTimeCheck
  -- Command packets by opcode
  | nop (p : Packet)
  | identify (p : Packet)
  | status (p : Packet)
  | regRead (p : Packet)
  | regWrite (p : Packet)
  | memRead (p : Packet)
  | memWrite (p : Packet)
  | reset (p : Packet)
  | patternCheck (p : Packet)
  | routeSelect (p : Packet)
  | slotCommit (p : Packet)
  | zoneCommit (p : Packet)
  | zoneDiscard (p : Packet)
  | groupIndex (p : Packet)
  | filterProfile (p : Packet)
  | detectorProfile (p : Packet)
  | thresholdSet (p : Packet)
  | biasSet (p : Packet)
  | timeSet (p : Packet)
  | netConfig (p : Packet)
  | ptpConfig (p : Packet)
  | ptpStatus (p : Packet)
  | kernelLoad (p : Packet)
  | portStart (p : Packet)
  | portStop (p : Packet)
  | dtsStart (p : Packet)
  | acqArm (p : Packet)
  | acqStop (p : Packet)
  | acqTrigger (p : Packet)
  | ilkStop (p : Packet)
  | ilkClear (p : Packet)
  | groupWake (p : Packet)
  | groupSleep (p : Packet)
  | kernelRun (p : Packet)
  | calRun (p : Packet)
  | calStatus (p : Packet)
  | calSchedule (p : Packet)
  | suspend (p : Packet)
  | resume (p : Packet)
  | cancel (p : Packet)
  | query (p : Packet)
  | jobList (p : Packet)
  | streamOpen (p : Packet)
  | streamClose (p : Packet)
  | tileStart (p : Packet)
  | tileStop (p : Packet)
  | tileFlush (p : Packet)
  | scoStart (p : Packet)
  | scoStop (p : Packet)
  | modeSet (p : Packet)
  | sensorRead (p : Packet)
  | logRead (p : Packet)
  | logClear (p : Packet)
  | updateBegin (p : Packet)
  | updateData (p : Packet)
  | updateCommit (p : Packet)
  | updateActivate (p : Packet)
  | i2cXfer (p : Packet)
  | hodQuery (p : Packet)
  | budgetSet (p : Packet)
  | arrayJoin (p : Packet)
  | arrayLeave (p : Packet)
  | arrayStatus (p : Packet)
  | arrayArm (p : Packet)
  | arrayDisarm (p : Packet)
  | arrayFire (p : Packet)
  | echo (p : Packet)
  | snapshot (p : Packet)
  | dramRetrain (p : Packet)
  -- Further events
  | pcieLinkUp (speed : BitVec 3) (width : BitVec 2)
  | strCoalesceTimer (st : Fin 7)
  | hardOverloadEnd (n k : Fin 4)
  | prbsError (n k : Fin 4)
  | ptpEventEgress (m : Fin 2) (k : Fin 4) (oneStep : Bool)
  | bootThermalWaitEnd
  | senClampRelease (b : Fin 16)
  deriving DecidableEq, Repr

end Sys2Proof
end

