-- ==== Sys2Proof/Decode.lean ====
section
/-! DEFINITION. Reading a command from the bits of the opcode table. No row of the table gives bits (every row's list of
fields is empty): commands reach the part through its interfaces and balls and are not words of one memory, so no word
spells one. -/

namespace Sys2Proof

/-- The command that the word `w` of `nbits` bits spells by the table: none. -/
def decodeTableWord (_nbits _w : Nat) : Option Instr := none

end Sys2Proof
end

