-- ==== Sys2Proof/Machine/Field.lean ====
section
/-! DEFINITION. What a register field is (R5), the bank that holds the fields' values, and reading and writing one
field of a bank. The bank lists (key, value) pairs in rising order of key, where the key of a field is its bit
address, 8 × its BAR0 byte offset + its bit; a field that is not listed reads as its reset value. -/

namespace Sys2Proof.Machine

/-- The access types of R5. `w1cAll` is a W1C counter that a write of 1 to any of its bits clears whole. -/
inductive Access where
  | rw | ro | wo | w1c | w1cAll | rws
  deriving DecidableEq, Repr

/-- What a written value is stored as, where a field's description limits it. -/
inductive Norm where
  /-- Any value is stored as written. -/
  | any
  /-- A value outside stores the nearer limit. -/
  | clamp (lo hi : Nat)
  /-- The value `a` stores `b`. -/
  | subst (a b : Nat)
  /-- A value of `a` or more stores 0. -/
  | zeroFrom (a : Nat)
  deriving DecidableEq, Repr

/-- A register field: its bit address, width, reset value, access type and limit. -/
structure Field where
  key   : Nat
  width : Nat
  reset : Nat
  acc   : Access
  norm  : Norm
  deriving DecidableEq, Repr

/-- A register, or an array of registers whose indices add `stride × index` for each (stride, count) of `dims`;
`wide` registers have 64 bits (R11), `retained` ones live in retention cells (R22). The fields are those of the
register at its base offset. -/
structure Reg where
  name     : String
  base     : Nat
  dims     : List (Nat × Nat)
  wide     : Bool
  retained : Bool
  fields   : List Field
  deriving DecidableEq, Repr

/-- The value a write of `v` stores. -/
def Norm.apply : Norm → Nat → Nat
  | .any, v => v
  | .clamp lo hi, v => if v < lo then lo else if hi < v then hi else v
  | .subst a b, v => if v = a then b else v
  | .zeroFrom a, v => if a ≤ v then 0 else v

/-- The same field of the register `d` bytes further on. -/
def Field.shift (f : Field) (d : Nat) : Field := { f with key := f.key + 8 * d }

/-- Where the field starts in the register at byte offset `off`. -/
def Field.lo (f : Field) (off : Nat) : Nat := f.key - 8 * off

namespace Bank

/-- The value listed at key `k`, or `d`. -/
def get : List (Nat × Nat) → Nat → Nat → Nat
  | [], _, d => d
  | (a, v) :: r, k, d => if a = k then v else get r k d

/-- The bank with nothing listed at `k`. -/
def erase : List (Nat × Nat) → Nat → List (Nat × Nat)
  | [], _ => []
  | (a, v) :: r, k => if a = k then erase r k else (a, v) :: erase r k

/-- The bank, which lists nothing at `k`, with `v` listed there. -/
def insert : List (Nat × Nat) → Nat → Nat → List (Nat × Nat)
  | [], k, v => [(k, v)]
  | (a, w) :: r, k, v => if k < a then (k, v) :: (a, w) :: r else (a, w) :: insert r k v

/-- The bank with `v` listed at `k` and nowhere else. -/
def set (b : List (Nat × Nat)) (k v : Nat) : List (Nat × Nat) := insert (erase b k) k v

/-- Stores `v` at `k`, where an unlisted key reads as `d`: the value `d` is not listed. -/
def put (b : List (Nat × Nat)) (k v d : Nat) : List (Nat × Nat) :=
  if v = d then erase b k else set b k v

/-- The keys rise strictly. -/
def wf : List (Nat × Nat) → Bool
  | [] => true
  | [_] => true
  | (a, _) :: (b, v) :: r => decide (a < b) && wf ((b, v) :: r)

/-- The bank without the keys for which `p` holds. -/
def drop (b : List (Nat × Nat)) (p : Nat → Bool) : List (Nat × Nat) := b.filter fun e => !p e.1

end Bank

end Sys2Proof.Machine
end

