-- ==== Sys2Proof/Machine/Regs.lean ====
section
/-! DEFINITION. Every field of every register table of the manual, one constant or one function of the
table's indices each, with its width, reset value, access type and the limit its description states.
Fields whose reset column shows "–" take 0 (DESIGN CHOICE, log entry 2). The register chapters give the rules. -/

namespace Sys2Proof.Machine

-- SYS_ID (R41)
def R.SYS_ID_REV_MINOR : Field := ⟨0x0, 8, 1, .ro, .any⟩
def R.SYS_ID_REV_MAJOR : Field := ⟨0x8, 8, 10, .ro, .any⟩
def R.SYS_ID_DEVICE : Field := ⟨0x10, 16, 132, .ro, .any⟩
-- SYS_GSTAT (R41)
def R.SYS_GSTAT_PLL_S_LOCK : Field := ⟨0x20, 1, 0, .ro, .any⟩
def R.SYS_GSTAT_PLL_C_LOCK : Field := ⟨0x21, 1, 0, .ro, .any⟩
def R.SYS_GSTAT_PLL_M_LOCK : Field := ⟨0x22, 1, 0, .ro, .any⟩
def R.SYS_GSTAT_CSY0_LOCK : Field := ⟨0x23, 1, 0, .ro, .any⟩
def R.SYS_GSTAT_CSY1_LOCK : Field := ⟨0x24, 1, 0, .ro, .any⟩
def R.SYS_GSTAT_ILK_CLEAR : Field := ⟨0x25, 1, 0, .ro, .any⟩
def R.SYS_GSTAT_DRAM_DEGRADED : Field := ⟨0x26, 1, 0, .ro, .any⟩
def R.SYS_GSTAT_PORT_RUN : Field := ⟨0x28, 4, 0, .ro, .any⟩
def R.SYS_GSTAT_PORT_WATCH : Field := ⟨0x2c, 4, 0, .ro, .any⟩
def R.SYS_GSTAT_MODE : Field := ⟨0x30, 3, 4, .ro, .any⟩
def R.SYS_GSTAT_PD_ACCESS : Field := ⟨0x38, 1, 0, .w1c, .any⟩
def R.SYS_GSTAT_BAR2_DENIED : Field := ⟨0x39, 1, 0, .w1c, .any⟩
def R.SYS_GSTAT_BAR2_RANGE : Field := ⟨0x3a, 1, 0, .w1c, .any⟩
def R.SYS_GSTAT_BAD_ACCESS : Field := ⟨0x3b, 1, 0, .w1c, .any⟩
-- SYS_BAR2_PAGE (R42)
def R.SYS_BAR2_PAGE_PAGE (n : Nat) : Field := ⟨0x800 + 0x20 * n, 8, n, .rw, .any⟩
-- SYN_CTRL (R74)
def R.SYN_CTRL_EN : Field := ⟨0x200000, 5, 0, .rw, .any⟩
def R.SYN_CTRL_REF_MODE : Field := ⟨0x200006, 2, 0, .rw, .any⟩
def R.SYN_CTRL_HOLD_EN : Field := ⟨0x200008, 1, 1, .rw, .any⟩
def R.SYN_CTRL_POLICY : Field := ⟨0x200009, 1, 0, .rw, .any⟩
def R.SYN_CTRL_WAIT_RDY : Field := ⟨0x20000a, 1, 1, .rw, .any⟩
def R.SYN_CTRL_AUTO_RELOCK : Field := ⟨0x20000b, 1, 1, .rw, .any⟩
def R.SYN_CTRL_SLEW_RATE : Field := ⟨0x200010, 8, 100, .rw, .any⟩
def R.SYN_CTRL_SLEW_LIMIT : Field := ⟨0x200018, 8, 50, .rw, .any⟩
-- SYN_STAT (R74)
def R.SYN_STAT_LOCK : Field := ⟨0x200020, 5, 0, .ro, .any⟩
def R.SYN_STAT_OCXO_RDY : Field := ⟨0x20002a, 1, 0, .ro, .any⟩
def R.SYN_STAT_REF_OK : Field := ⟨0x20002b, 1, 0, .ro, .any⟩
def R.SYN_STAT_HOLDOVER : Field := ⟨0x20002c, 1, 0, .ro, .any⟩
def R.SYN_STAT_SLEWING : Field := ⟨0x20002d, 1, 0, .ro, .any⟩
def R.SYN_STAT_CHK_OK : Field := ⟨0x200030, 4, 0, .ro, .any⟩
def R.SYN_STAT_BAND_FAIL : Field := ⟨0x200038, 5, 0, .ro, .any⟩
-- SYN_EVENT (R74)
def R.SYN_EVENT_LOCK_LOSS : Field := ⟨0x200040, 5, 0, .w1c, .any⟩
def R.SYN_EVENT_BAND_FAIL : Field := ⟨0x200048, 5, 0, .w1c, .any⟩
def R.SYN_EVENT_SLEW_DONE : Field := ⟨0x200050, 1, 0, .w1c, .any⟩
def R.SYN_EVENT_STEP_DONE : Field := ⟨0x200051, 1, 0, .w1c, .any⟩
def R.SYN_EVENT_REF_LOSS : Field := ⟨0x200052, 1, 0, .w1c, .any⟩
def R.SYN_EVENT_REF_RETURN : Field := ⟨0x200053, 1, 0, .w1c, .any⟩
def R.SYN_EVENT_CHK_FAIL : Field := ⟨0x200054, 4, 0, .w1c, .any⟩
def R.SYN_EVENT_CHIRP_CUT : Field := ⟨0x200058, 4, 0, .w1c, .any⟩
def R.SYN_EVENT_SLEW_FALLBACK : Field := ⟨0x20005c, 1, 0, .w1c, .any⟩
def R.SYN_EVENT_SLOT_ERR : Field := ⟨0x20005d, 1, 0, .w1c, .any⟩
def R.SYN_EVENT_SLOT_REJECT : Field := ⟨0x20005e, 1, 0, .w1c, .any⟩
def R.SYN_EVENT_CFG_REJECT : Field := ⟨0x20005f, 1, 0, .w1c, .any⟩
-- SYN_REFJUMP (R74)
def R.SYN_REFJUMP_JUMP : Field := ⟨0x200060, 32, 0, .ro, .any⟩
-- SYN_SLEW_REM (R74)
def R.SYN_SLEW_REM_REM : Field := ⟨0x200080, 32, 0, .ro, .any⟩
-- SYN_HOLD_TIME (R74)
def R.SYN_HOLD_TIME_MS : Field := ⟨0x2000a0, 32, 0, .ro, .any⟩
-- SYN_PHASE_EPOCH (R74)
def R.SYN_PHASE_EPOCH_EPOCH : Field := ⟨0x2000c0, 64, 0, .rw, .any⟩
-- SYN_PLL_CFG (R74)
def R.SYN_PLL_CFG_LOCK_N (p : Nat) : Field := ⟨0x200800 + 0x100 * p, 16, (if p < 3 then 1024 else 4096), .rw, .clamp 1 65535⟩
def R.SYN_PLL_CFG_LOCK_WIN (p : Nat) : Field := ⟨0x200810 + 0x100 * p, 8, 32, .rw, .any⟩
def R.SYN_PLL_CFG_OP (p : Nat) : Field := ⟨0x200818 + 0x100 * p, 2, 0, .rw, .any⟩
def R.SYN_PLL_CFG_SEARCH (p : Nat) : Field := ⟨0x20081f + 0x100 * p, 1, 0, .wo, .any⟩
-- SYN_PLL_STAT (R74)
def R.SYN_PLL_STAT_PHASE_ERR (p : Nat) : Field := ⟨0x200820 + 0x100 * p, 16, 0, .ro, .any⟩
def R.SYN_PLL_STAT_BAND_USED (p : Nat) : Field := ⟨0x200830 + 0x100 * p, 6, 0, .ro, .any⟩
def R.SYN_PLL_STAT_SEARCH_BUSY (p : Nat) : Field := ⟨0x20083f + 0x100 * p, 1, 0, .ro, .any⟩
-- SYN_BAND (R74)
def R.SYN_BAND_BAND (p e : Nat) : Field := ⟨0x201000 + 0x80 * p + 0x20 * e, 6, 0, .rw, .any⟩
def R.SYN_BAND_VALID (p e : Nat) : Field := ⟨0x20101f + 0x80 * p + 0x20 * e, 1, 0, .rw, .any⟩
-- SYN_CSY_CTRL (R74)
def R.SYN_CSY_CTRL_CHK_WIN (k : Nat) : Field := ⟨0x208000 + 0x4000 * k, 8, 2, .rw, .any⟩
def R.SYN_CSY_CTRL_COMMIT (k : Nat) : Field := ⟨0x208008 + 0x4000 * k, 1, 0, .wo, .any⟩
-- SYN_CSY_SKEW (R74)
def R.SYN_CSY_SKEW_SKEW0 (k : Nat) : Field := ⟨0x208020 + 0x4000 * k, 16, 0, .rw, .any⟩
def R.SYN_CSY_SKEW_SKEW1 (k : Nat) : Field := ⟨0x208030 + 0x4000 * k, 16, 0, .rw, .any⟩
-- SYN_CSY_SLOT (R74)
def R.SYN_CSY_SLOT_FTW (k j : Nat) : Field := ⟨0x208800 + 0x4000 * k + 0x40 * j, 48, 0, .rw, .any⟩
def R.SYN_CSY_SLOT_PHASE (k j : Nat) : Field := ⟨0x208830 + 0x4000 * k + 0x40 * j, 12, 0, .rw, .any⟩
def R.SYN_CSY_SLOT_EN (k j : Nat) : Field := ⟨0x20883f + 0x4000 * k + 0x40 * j, 1, 0, .rw, .any⟩
-- SYN_CSY_CHIRP0 (R74)
def R.SYN_CSY_CHIRP0_START (k q : Nat) : Field := ⟨0x209000 + 0x4000 * k + 0x80 * q, 32, 0, .rw, .any⟩
-- SYN_CSY_CHIRP1 (R74)
def R.SYN_CSY_CHIRP1_STOP (k q : Nat) : Field := ⟨0x209020 + 0x4000 * k + 0x80 * q, 32, 0, .rw, .any⟩
-- SYN_CSY_CHIRP2 (R74)
def R.SYN_CSY_CHIRP2_LENGTH (k q : Nat) : Field := ⟨0x209040 + 0x4000 * k + 0x80 * q, 16, 0, .rw, .any⟩
def R.SYN_CSY_CHIRP2_SHAPE (k q : Nat) : Field := ⟨0x209050 + 0x4000 * k + 0x80 * q, 2, 0, .rw, .any⟩
-- TBU_CTRL (R93)
def R.TBU_CTRL_USE_RDY : Field := ⟨0x280003, 1, 1, .rw, .any⟩
def R.TBU_CTRL_PPS_IN_EDGE : Field := ⟨0x280004, 1, 0, .rw, .any⟩
def R.TBU_CTRL_PPS_OUT_QUAL : Field := ⟨0x280005, 1, 1, .rw, .any⟩
def R.TBU_CTRL_PPS_OUT_EN : Field := ⟨0x280006, 1, 0, .rw, .any⟩
def R.TBU_CTRL_REFOUT_EN : Field := ⟨0x280007, 1, 0, .rw, .any⟩
-- TBU_STAT (R93)
def R.TBU_STAT_TQ : Field := ⟨0x280020, 3, 6, .ro, .any⟩
def R.TBU_STAT_ACT_ARMED : Field := ⟨0x280030, 1, 0, .ro, .any⟩
def R.TBU_STAT_PPS_OK : Field := ⟨0x280031, 1, 0, .ro, .any⟩
def R.TBU_STAT_EPOCH_SRC : Field := ⟨0x280032, 2, 0, .ro, .any⟩
-- TBU_EVENT (R93)
def R.TBU_EVENT_STEP_DONE : Field := ⟨0x280041, 1, 0, .w1c, .any⟩
def R.TBU_EVENT_CFG_REJECT : Field := ⟨0x280042, 1, 0, .w1c, .any⟩
def R.TBU_EVENT_STEP_REJECT : Field := ⟨0x280043, 1, 0, .w1c, .any⟩
def R.TBU_EVENT_ADJ_REJECT : Field := ⟨0x280044, 1, 0, .w1c, .any⟩
def R.TBU_EVENT_PPS_RUNT : Field := ⟨0x280045, 1, 0, .w1c, .any⟩
def R.TBU_EVENT_PPS_MISS : Field := ⟨0x280046, 1, 0, .w1c, .any⟩
def R.TBU_EVENT_PPS_RETURN : Field := ⟨0x280047, 1, 0, .w1c, .any⟩
def R.TBU_EVENT_TQ_CHANGE : Field := ⟨0x280048, 1, 0, .w1c, .any⟩
def R.TBU_EVENT_TDC_STAT : Field := ⟨0x280058, 8, 0, .w1c, .any⟩
-- TBU_STAMP (R93)
def R.TBU_STAMP_COUNT : Field := ⟨0x280080, 64, 0, .ro, .any⟩
-- TBU_EPOCH_SET (R93)
def R.TBU_EPOCH_SET_VALUE : Field := ⟨0x2800c0, 64, 0, .rw, .any⟩
-- TBU_STEP (R93)
def R.TBU_STEP_DELTA : Field := ⟨0x280100, 64, 0, .rw, .any⟩
-- TBU_EPOCH_CTRL (R93)
def R.TBU_EPOCH_CTRL_SRC : Field := ⟨0x280140, 2, 1, .rw, .any⟩
def R.TBU_EPOCH_CTRL_DISARM : Field := ⟨0x28015c, 1, 0, .wo, .any⟩
def R.TBU_EPOCH_CTRL_ON_PPS : Field := ⟨0x28015d, 1, 0, .rw, .any⟩
def R.TBU_EPOCH_CTRL_ACTION : Field := ⟨0x28015e, 2, 0, .wo, .any⟩
-- TBU_LAST_STEP (R93)
def R.TBU_LAST_STEP_DELTA : Field := ⟨0x280180, 64, 0, .ro, .any⟩
-- TBU_LAST_AT (R93)
def R.TBU_LAST_AT_STAMP : Field := ⟨0x2801c0, 64, 0, .ro, .any⟩
-- TBU_ADJ (R93)
def R.TBU_ADJ_OFFSET : Field := ⟨0x280200, 32, 0, .wo, .any⟩
-- TBU_PPS_IN (R93)
def R.TBU_PPS_IN_STAMP : Field := ⟨0x280240, 64, 0, .ro, .any⟩
-- TBU_PPS_IN_FRAC (R93)
def R.TBU_PPS_IN_FRAC_FRAC : Field := ⟨0x280280, 8, 0, .ro, .any⟩
-- TBU_PPS_ERR (R93)
def R.TBU_PPS_ERR_ERR : Field := ⟨0x2802a0, 32, 0, .ro, .any⟩
-- TBU_PPS_OUT (R93)
def R.TBU_PPS_OUT_ADV : Field := ⟨0x2802c0, 16, 0, .rw, .any⟩
def R.TBU_PPS_OUT_WIDTH : Field := ⟨0x2802d8, 8, 100, .rw, .clamp 1 255⟩
-- TBU_PTP_LAT (R93)
def R.TBU_PTP_LAT_INGRESS (m : Nat) : Field := ⟨0x280300 + 0x20 * m, 16, 0, .rw, .any⟩
def R.TBU_PTP_LAT_EGRESS (m : Nat) : Field := ⟨0x280310 + 0x20 * m, 16, 0, .rw, .any⟩
-- TDC_CFG (R93)
def R.TDC_CFG_HOLDOFF (n : Nat) : Field := ⟨0x288000 + 0x800 * n, 16, 0, .rw, .any⟩
def R.TDC_CFG_REF (n : Nat) : Field := ⟨0x288010 + 0x800 * n, 4, 15, .rw, .any⟩
def R.TDC_CFG_HYST (n : Nat) : Field := ⟨0x28801b + 0x800 * n, 2, 1, .rw, .any⟩
def R.TDC_CFG_EDGE (n : Nat) : Field := ⟨0x28801d + 0x800 * n, 1, 0, .rw, .any⟩
def R.TDC_CFG_CLASS (n : Nat) : Field := ⟨0x28801e + 0x800 * n, 1, 0, .rw, .any⟩
def R.TDC_CFG_EN (n : Nat) : Field := ⟨0x28801f + 0x800 * n, 1, 0, .rw, .any⟩
-- TDC_WOPEN (R93)
def R.TDC_WOPEN_TICKS (n : Nat) : Field := ⟨0x288020 + 0x800 * n, 32, 0, .rw, .any⟩
-- TDC_WCLOSE (R93)
def R.TDC_WCLOSE_TICKS (n : Nat) : Field := ⟨0x288040 + 0x800 * n, 32, 4294967295, .rw, .any⟩
-- TDC_TIMEOUT (R93)
def R.TDC_TIMEOUT_TICKS (n : Nat) : Field := ⟨0x288060 + 0x800 * n, 32, 1250000000, .rw, .any⟩
-- TDC_STATCFG (R93)
def R.TDC_STATCFG_N (n : Nat) : Field := ⟨0x288080 + 0x800 * n, 16, 1000, .rw, .clamp 1 65535⟩
def R.TDC_STATCFG_CLR (n : Nat) : Field := ⟨0x28809f + 0x800 * n, 1, 0, .wo, .any⟩
-- TDC_SW (R93)
def R.TDC_SW_FIRE (n : Nat) : Field := ⟨0x2880a0 + 0x800 * n, 1, 0, .wo, .any⟩
-- TDC_CNT0 (R93)
def R.TDC_CNT0_LOST (n : Nat) : Field := ⟨0x2880c0 + 0x800 * n, 16, 0, .w1cAll, .any⟩
def R.TDC_CNT0_REJECT (n : Nat) : Field := ⟨0x2880d0 + 0x800 * n, 16, 0, .w1cAll, .any⟩
-- TDC_CNT1 (R93)
def R.TDC_CNT1_BUSY (n : Nat) : Field := ⟨0x2880e0 + 0x800 * n, 16, 0, .w1cAll, .any⟩
def R.TDC_CNT1_HELD (n : Nat) : Field := ⟨0x2880f0 + 0x800 * n, 16, 0, .w1cAll, .any⟩
-- TDC_FIFO0 (R93)
def R.TDC_FIFO0_WORD (n : Nat) : Field := ⟨0x288100 + 0x800 * n, 32, 0, .ro, .any⟩
-- TDC_FIFO1 (R93)
def R.TDC_FIFO1_WORD (n : Nat) : Field := ⟨0x288120 + 0x800 * n, 32, 0, .ro, .any⟩
-- TDC_FIFO2 (R93)
def R.TDC_FIFO2_WORD (n : Nat) : Field := ⟨0x288140 + 0x800 * n, 32, 0, .ro, .any⟩
-- TDC_FIFO3 (R93)
def R.TDC_FIFO3_WORD (n : Nat) : Field := ⟨0x288160 + 0x800 * n, 32, 0, .ro, .any⟩
-- TDC_LEVEL (R93)
def R.TDC_LEVEL_LEVEL (n : Nat) : Field := ⟨0x288180 + 0x800 * n, 7, 0, .ro, .any⟩
-- TDC_STATUS (R93)
def R.TDC_STATUS_STAT_READY (n : Nat) : Field := ⟨0x2881a0 + 0x800 * n, 1, 0, .w1c, .any⟩
def R.TDC_STATUS_STAT_OVR (n : Nat) : Field := ⟨0x2881a1 + 0x800 * n, 1, 0, .w1c, .any⟩
def R.TDC_STATUS_PENDING (n : Nat) : Field := ⟨0x2881be + 0x800 * n, 1, 0, .ro, .any⟩
def R.TDC_STATUS_CFG_ERR (n : Nat) : Field := ⟨0x2881bf + 0x800 * n, 1, 0, .ro, .any⟩
-- TDC_MEAN (R93)
def R.TDC_MEAN_VALUE (n : Nat) : Field := ⟨0x288200 + 0x800 * n, 64, 0, .ro, .any⟩
-- TDC_MIN (R93)
def R.TDC_MIN_VALUE (n : Nat) : Field := ⟨0x288280 + 0x800 * n, 64, 0, .ro, .any⟩
-- TDC_MAX (R93)
def R.TDC_MAX_VALUE (n : Nat) : Field := ⟨0x2882c0 + 0x800 * n, 64, 0, .ro, .any⟩
-- TDC_SDEV (R93)
def R.TDC_SDEV_SDEV (n : Nat) : Field := ⟨0x288240 + 0x800 * n, 32, 0, .ro, .any⟩
-- TDC_NFLAG (R93)
def R.TDC_NFLAG_COUNT (n : Nat) : Field := ⟨0x288300 + 0x800 * n, 32, 0, .ro, .any⟩
-- LDR_CTRL (R122)
def R.LDR_CTRL_GATE_LIMIT (n : Nat) : Field := ⟨0x400000 + 0x20000 * n, 8, 0, .rw, .clamp 0 250⟩
def R.LDR_CTRL_OPEN_EN (n : Nat) : Field := ⟨0x400008 + 0x20000 * n, 1, 1, .rw, .any⟩
def R.LDR_CTRL_SHORT_EN (n : Nat) : Field := ⟨0x400009 + 0x20000 * n, 1, 1, .rw, .any⟩
-- LDR_BIAS (R122)
def R.LDR_BIAS_CODE (n : Nat) : Field := ⟨0x400020 + 0x20000 * n, 16, 0, .rw, .any⟩
def R.LDR_BIAS_SLEW (n : Nat) : Field := ⟨0x400030 + 0x20000 * n, 15, 1000, .rw, .clamp 1 32767⟩
def R.LDR_BIAS_BUSY (n : Nat) : Field := ⟨0x40003f + 0x20000 * n, 1, 0, .ro, .any⟩
-- LDR_RM_CFG (R122)
def R.LDR_RM_CFG_RM_WIDTH (n : Nat) : Field := ⟨0x400040 + 0x20000 * n, 16, 25, .rw, .clamp 4 65535⟩
def R.LDR_RM_CFG_RM_DELAY (n : Nat) : Field := ⟨0x400050 + 0x20000 * n, 16, 0, .rw, .any⟩
-- LDR_NE_CFG (R122)
def R.LDR_NE_CFG_NE_END (n : Nat) : Field := ⟨0x400060 + 0x20000 * n, 12, 0, .rw, .any⟩
def R.LDR_NE_CFG_NE_START (n : Nat) : Field := ⟨0x400070 + 0x20000 * n, 12, 0, .rw, .any⟩
def R.LDR_NE_CFG_EN (n : Nat) : Field := ⟨0x40007f + 0x20000 * n, 1, 0, .rw, .any⟩
-- LDR_NE_THRESH (R122)
def R.LDR_NE_THRESH_POWER (n : Nat) : Field := ⟨0x400080 + 0x20000 * n, 16, 0, .rw, .any⟩
-- LDR_NE_LAST (R122)
def R.LDR_NE_LAST_POWER (n : Nat) : Field := ⟨0x4000a0 + 0x20000 * n, 16, 0, .ro, .any⟩
-- LDR_FAULT (R122)
def R.LDR_FAULT_GATE_OPEN (n : Nat) : Field := ⟨0x4000c0 + 0x20000 * n, 1, 0, .ro, .any⟩
def R.LDR_FAULT_GATE_SHORT (n : Nat) : Field := ⟨0x4000c1 + 0x20000 * n, 1, 0, .ro, .any⟩
def R.LDR_FAULT_LOOP (n : Nat) : Field := ⟨0x4000c2 + 0x20000 * n, 1, 0, .ro, .any⟩
def R.LDR_FAULT_ROUTE (n : Nat) : Field := ⟨0x4000c3 + 0x20000 * n, 1, 0, .ro, .any⟩
def R.LDR_FAULT_FIBRE_BREAK (n : Nat) : Field := ⟨0x4000c4 + 0x20000 * n, 1, 0, .ro, .any⟩
def R.LDR_FAULT_OTHER (n : Nat) : Field := ⟨0x4000c5 + 0x20000 * n, 1, 0, .ro, .any⟩
-- LDR_GATE_SEEN (R122)
def R.LDR_GATE_SEEN_OPEN (n : Nat) : Field := ⟨0x4000e0 + 0x20000 * n, 1, 0, .w1c, .any⟩
def R.LDR_GATE_SEEN_SHORT (n : Nat) : Field := ⟨0x4000e1 + 0x20000 * n, 1, 0, .w1c, .any⟩
-- PPE_PAT (R122)
def R.PPE_PAT_RUN_FIRST (n : Nat) : Field := ⟨0x408000 + 0x20000 * n, 9, 0, .rw, .any⟩
def R.PPE_PAT_WATCH_FIRST (n : Nat) : Field := ⟨0x408010 + 0x20000 * n, 9, 0, .rw, .any⟩
-- PPE_STAT (R122)
def R.PPE_STAT_STATE (n : Nat) : Field := ⟨0x408020 + 0x20000 * n, 3, 0, .ro, .any⟩
def R.PPE_STAT_STEP (n : Nat) : Field := ⟨0x408030 + 0x20000 * n, 9, 0, .ro, .any⟩
-- PPE_LAUNCHES (R122)
def R.PPE_LAUNCHES_COUNT (n : Nat) : Field := ⟨0x408040 + 0x20000 * n, 32, 0, .w1cAll, .any⟩
-- PPE_SKIPS (R122)
def R.PPE_SKIPS_COUNT (n : Nat) : Field := ⟨0x408060 + 0x20000 * n, 32, 0, .w1cAll, .any⟩
-- PPE_LAST_STAMP (R122)
def R.PPE_LAST_STAMP_STAMP (n : Nat) : Field := ⟨0x408080 + 0x20000 * n, 64, 0, .ro, .any⟩
-- PPE_CHECK (R122)
def R.PPE_CHECK_STEP (n : Nat) : Field := ⟨0x4080c0 + 0x20000 * n, 9, 0, .ro, .any⟩
def R.PPE_CHECK_CHECK (n : Nat) : Field := ⟨0x4080cc + 0x20000 * n, 4, 0, .ro, .any⟩
def R.PPE_CHECK_STATUS (n : Nat) : Field := ⟨0x4080d0 + 0x20000 * n, 16, 0, .ro, .any⟩
-- PPE_EVENT (R122)
def R.PPE_EVENT_STORE_REJECT (n : Nat) : Field := ⟨0x4080e0 + 0x20000 * n, 1, 0, .w1c, .any⟩
def R.PPE_EVENT_ROUTE_REJECT (n : Nat) : Field := ⟨0x4080e1 + 0x20000 * n, 1, 0, .w1c, .any⟩
-- ROUTE_W0 (R122)
def R.ROUTE_ON (n i : Nat) : Field := ⟨0x418000 + 0x20000 * n + 0x100 * i, 64, 0, .rw, .any⟩
-- ROUTE_W2 (R122)
def R.ROUTE_OFF (n i : Nat) : Field := ⟨0x418040 + 0x20000 * n + 0x100 * i, 64, 0, .rw, .any⟩
-- ROUTE_W4 (R122)
def R.ROUTE_RTT (n i : Nat) : Field := ⟨0x418080 + 0x20000 * n + 0x100 * i, 24, 0, .rw, .any⟩
def R.ROUTE_VALID (n i : Nat) : Field := ⟨0x41809f + 0x20000 * n + 0x100 * i, 1, 0, .rw, .any⟩
-- ROUTE_W5 (R122)
def R.ROUTE_SETTLE (n i : Nat) : Field := ⟨0x4180a0 + 0x20000 * n + 0x100 * i, 16, 0, .rw, .any⟩
-- RMD_ROUTE_SEL (R122)
def R.RMD_ROUTE_SEL_SEL (n : Nat) : Field := ⟨0x419000 + 0x20000 * n, 4, 0, .rw, .any⟩
-- RMD_ROUTE_STAT (R122)
def R.RMD_ROUTE_STAT_ACTIVE (n : Nat) : Field := ⟨0x419020 + 0x20000 * n, 4, 0, .ro, .any⟩
def R.RMD_ROUTE_STAT_BUSY (n : Nat) : Field := ⟨0x419024 + 0x20000 * n, 1, 0, .ro, .any⟩
def R.RMD_ROUTE_STAT_VERIFIED (n : Nat) : Field := ⟨0x419025 + 0x20000 * n, 1, 0, .ro, .any⟩
def R.RMD_ROUTE_STAT_FAIL (n : Nat) : Field := ⟨0x419026 + 0x20000 * n, 1, 0, .w1c, .any⟩
-- RMD_SCAN_CTRL (R122)
def R.RMD_SCAN_CTRL_PRECHG : Field := ⟨0x480000, 8, 50, .rw, .any⟩
def R.RMD_SCAN_CTRL_ROW_SLOT : Field := ⟨0x480008, 8, 24, .rw, .clamp 4 255⟩
def R.RMD_SCAN_CTRL_EN : Field := ⟨0x48001f, 1, 0, .rw, .any⟩
-- RMD_ILK_CTRL (R122)
def R.RMD_ILK_CTRL_ILK_QUAL : Field := ⟨0x480020, 8, 10, .rw, .clamp 1 255⟩
def R.RMD_ILK_CTRL_ALLOW_UNVERIFIED : Field := ⟨0x48003b, 1, 0, .rw, .any⟩
def R.RMD_ILK_CTRL_CLEAR : Field := ⟨0x48003c, 1, 0, .wo, .any⟩
def R.RMD_ILK_CTRL_OUT_MODE : Field := ⟨0x48003d, 1, 0, .rw, .any⟩
def R.RMD_ILK_CTRL_SW_STOP : Field := ⟨0x48003e, 1, 0, .rw, .any⟩
def R.RMD_ILK_CTRL_INTERLOCK_ALL : Field := ⟨0x48003f, 1, 1, .rw, .any⟩
-- RMD_ILK_STAT (R122)
def R.RMD_ILK_STAT_LOOP : Field := ⟨0x480040, 2, 0, .ro, .any⟩
def R.RMD_ILK_STAT_ILK_IN : Field := ⟨0x480042, 1, 0, .ro, .any⟩
def R.RMD_ILK_STAT_ILK_OUT : Field := ⟨0x480043, 1, 1, .ro, .any⟩
def R.RMD_ILK_STAT_FAULT : Field := ⟨0x480044, 4, 0, .ro, .any⟩
-- RMD_ILK_EVENT (R122)
def R.RMD_ILK_EVENT_TRIP : Field := ⟨0x480060, 4, 0, .w1c, .any⟩
def R.RMD_ILK_EVENT_LOOP_OPEN : Field := ⟨0x480064, 1, 0, .w1c, .any⟩
def R.RMD_ILK_EVENT_ELEM_CHANGE : Field := ⟨0x480065, 1, 0, .w1c, .any⟩
-- RMD_DIAG (R122)
def R.RMD_DIAG_OPEN_TH : Field := ⟨0x480080, 8, 10, .rw, .any⟩
def R.RMD_DIAG_ILIM : Field := ⟨0x480088, 8, 120, .rw, .clamp 0 120⟩
-- RMD_SCAN_COUNT (R122)
def R.RMD_SCAN_COUNT_COUNT : Field := ⟨0x4800a0, 32, 0, .ro, .any⟩
-- RMD_ELEM (R122)
def R.RMD_ELEM_STATE (e : Nat) : Field := ⟨0x480800 + 0x20 * e, 3, 0, .ro, .any⟩
def R.RMD_ELEM_ON_TIME (e : Nat) : Field := ⟨0x480808 + 0x20 * e, 8, 16, .rw, .any⟩
def R.RMD_ELEM_DIAG_FORBID (e : Nat) : Field := ⟨0x480810 + 0x20 * e, 1, 0, .rw, .any⟩
def R.RMD_ELEM_FORCE (e : Nat) : Field := ⟨0x480812 + 0x20 * e, 2, 0, .rw, .subst 3 0⟩
-- CDG_CTRL (R137)
def R.CDG_CTRL_QUIET_WIN : Field := ⟨0x600008, 4, 4, .rw, .clamp 0 8⟩
def R.CDG_CTRL_QUIET_TH : Field := ⟨0x600010, 16, 512, .rw, .any⟩
-- CDG_EVENT (R137)
def R.CDG_EVENT_CLIP : Field := ⟨0x600020, 16, 0, .w1c, .any⟩
def R.CDG_EVENT_PRBS_ERR : Field := ⟨0x600030, 4, 0, .w1c, .any⟩
def R.CDG_EVENT_HARD_OVL : Field := ⟨0x600034, 4, 0, .w1c, .any⟩
def R.CDG_EVENT_CAL_FAIL : Field := ⟨0x600038, 4, 0, .w1c, .any⟩
def R.CDG_EVENT_CFG_REJECT : Field := ⟨0x60003f, 1, 0, .w1c, .any⟩
-- CDG_PORT_STAT (R137)
def R.CDG_PORT_STAT_TEST (n : Nat) : Field := ⟨0x608019 + 0x8000 * n, 1, 0, .ro, .any⟩
def R.CDG_PORT_STAT_CAL_RESULT (n : Nat) : Field := ⟨0x60801a + 0x8000 * n, 2, 0, .ro, .any⟩
def R.CDG_PORT_STAT_CAL_STALE (n : Nat) : Field := ⟨0x60801c + 0x8000 * n, 1, 1, .ro, .any⟩
def R.CDG_PORT_STAT_FULL_RATE (n : Nat) : Field := ⟨0x60801d + 0x8000 * n, 1, 1, .ro, .any⟩
def R.CDG_PORT_STAT_QUIET (n : Nat) : Field := ⟨0x60801e + 0x8000 * n, 1, 0, .ro, .any⟩
def R.CDG_PORT_STAT_READY (n : Nat) : Field := ⟨0x60801f + 0x8000 * n, 1, 0, .ro, .any⟩
-- CDG_PORT_WARN (R137)
def R.CDG_PORT_WARN_WARN_TH (n : Nat) : Field := ⟨0x608020 + 0x8000 * n, 11, 1843, .rw, .clamp 1 2047⟩
-- CDG_PORT_CAL_STAMP (R137)
def R.CDG_PORT_CAL_STAMP_STAMP (n : Nat) : Field := ⟨0x608040 + 0x8000 * n, 64, 0, .ro, .any⟩
-- CDG_LANE_CFG (R137)
def R.CDG_LANE_CFG_FIXED (n k : Nat) : Field := ⟨0x608800 + 0x8000 * n + 0x200 * k, 12, 0, .rw, .any⟩
def R.CDG_LANE_CFG_TEST (n k : Nat) : Field := ⟨0x608810 + 0x8000 * n + 0x200 * k, 3, 0, .rw, .any⟩
def R.CDG_LANE_CFG_DLY (n k : Nat) : Field := ⟨0x608818 + 0x8000 * n + 0x200 * k, 3, 0, .rw, .any⟩
def R.CDG_LANE_CFG_INVERT (n k : Nat) : Field := ⟨0x60881e + 0x8000 * n + 0x200 * k, 1, 0, .rw, .any⟩
def R.CDG_LANE_CFG_TERM (n k : Nat) : Field := ⟨0x60881f + 0x8000 * n + 0x200 * k, 1, 1, .rw, .any⟩
-- CDG_LANE_CLIP (R137)
def R.CDG_LANE_CLIP_COUNT (n k : Nat) : Field := ⟨0x608820 + 0x8000 * n + 0x200 * k, 32, 0, .w1cAll, .any⟩
-- CDG_LANE_WARNCNT (R137)
def R.CDG_LANE_WARNCNT_COUNT (n k : Nat) : Field := ⟨0x608840 + 0x8000 * n + 0x200 * k, 32, 0, .w1cAll, .any⟩
-- CDG_LANE_HOVL (R137)
def R.CDG_LANE_HOVL_COUNT (n k : Nat) : Field := ⟨0x608860 + 0x8000 * n + 0x200 * k, 16, 0, .w1cAll, .any⟩
-- CDG_LANE_RMS (R137)
def R.CDG_LANE_RMS_MEAN (n k : Nat) : Field := ⟨0x608880 + 0x8000 * n + 0x200 * k, 16, 0, .ro, .any⟩
def R.CDG_LANE_RMS_RMS (n k : Nat) : Field := ⟨0x608890 + 0x8000 * n + 0x200 * k, 16, 0, .ro, .any⟩
-- CDG_LANE_FIRST_CLIP (R137)
def R.CDG_LANE_FIRST_CLIP_STAMP (n k : Nat) : Field := ⟨0x6088c0 + 0x8000 * n + 0x200 * k, 64, 0, .ro, .any⟩
-- CDG_LANE_PRBS_ERR (R137)
def R.CDG_LANE_PRBS_ERR_COUNT (n k : Nat) : Field := ⟨0x608900 + 0x8000 * n + 0x200 * k, 32, 0, .w1cAll, .any⟩
-- CPL_CTRL (R167)
def R.CPL_CTRL_MF_WIN (n : Nat) : Field := ⟨0x800000 + 0x80000 * n, 1, 0, .rw, .any⟩
def R.CPL_CTRL_HOLD_MAX (n : Nat) : Field := ⟨0x800008 + 0x80000 * n, 4, 8, .rw, .clamp 1 15⟩
def R.CPL_CTRL_DZ (n : Nat) : Field := ⟨0x800010 + 0x80000 * n, 8, 16, .rw, .any⟩
def R.CPL_CTRL_GAUGE_DEF (n : Nat) : Field := ⟨0x800018 + 0x80000 * n, 7, 12, .rw, .clamp 1 123⟩
-- CPL_STAT (R167)
def R.CPL_STAT_RELEASING (n : Nat) : Field := ⟨0x800026 + 0x80000 * n, 1, 0, .ro, .any⟩
def R.CPL_STAT_EPISODE (n : Nat) : Field := ⟨0x800027 + 0x80000 * n, 1, 0, .ro, .any⟩
def R.CPL_STAT_NEXT_SEQ (n : Nat) : Field := ⟨0x800028 + 0x80000 * n, 8, 0, .ro, .any⟩
def R.CPL_STAT_COMMIT_SEQ (n : Nat) : Field := ⟨0x800030 + 0x80000 * n, 8, 0, .ro, .any⟩
def R.CPL_STAT_RUNAHEAD (n : Nat) : Field := ⟨0x800038 + 0x80000 * n, 4, 0, .ro, .any⟩
-- CPL_EVENT (R167)
def R.CPL_EVENT_ROLLBACK (n : Nat) : Field := ⟨0x800040 + 0x80000 * n, 1, 0, .w1c, .any⟩
def R.CPL_EVENT_GAP (n : Nat) : Field := ⟨0x800041 + 0x80000 * n, 1, 0, .w1c, .any⟩
def R.CPL_EVENT_SAT (n : Nat) : Field := ⟨0x800042 + 0x80000 * n, 1, 0, .w1c, .any⟩
def R.CPL_EVENT_CFG_REJECT (n : Nat) : Field := ⟨0x800043 + 0x80000 * n, 1, 0, .w1c, .any⟩
def R.CPL_EVENT_START_FAIL (n : Nat) : Field := ⟨0x800044 + 0x80000 * n, 1, 0, .w1c, .any⟩
-- CPL_DELAY (R167)
def R.CPL_DELAY_D (n : Nat) : Field := ⟨0x800060 + 0x80000 * n, 24, 0, .ro, .any⟩
-- CPL_COURSES (R167)
def R.CPL_COURSES_COUNT (n : Nat) : Field := ⟨0x800080 + 0x80000 * n, 32, 0, .ro, .any⟩
-- CPL_LOST (R167)
def R.CPL_LOST_COUNT (n : Nat) : Field := ⟨0x8000a0 + 0x80000 * n, 32, 0, .w1cAll, .any⟩
-- CPL_GAPS (R167)
def R.CPL_GAPS_COUNT (n : Nat) : Field := ⟨0x800100 + 0x80000 * n, 32, 0, .w1cAll, .any⟩
-- CPL_LAST_COMMIT (R167)
def R.CPL_LAST_COMMIT_STAMP (n : Nat) : Field := ⟨0x8000c0 + 0x80000 * n, 64, 0, .ro, .any⟩
-- CPL_GAP_CAUSES (R167)
def R.CPL_GAP_CAUSES_CAUSES (n : Nat) : Field := ⟨0x800120 + 0x80000 * n, 8, 0, .ro, .any⟩
-- CPL_GAP_FIRST (R167)
def R.CPL_GAP_FIRST_STAMP (n : Nat) : Field := ⟨0x800140 + 0x80000 * n, 64, 0, .ro, .any⟩
-- CPL_GAP_LAST (R167)
def R.CPL_GAP_LAST_STAMP (n : Nat) : Field := ⟨0x800180 + 0x80000 * n, 64, 0, .ro, .any⟩
-- CPL_FADED (R167)
def R.CPL_FADED_COUNT (n : Nat) : Field := ⟨0x8001c0 + 0x80000 * n, 32, 0, .w1cAll, .any⟩
-- CPL_SATCNT (R167)
def R.CPL_SATCNT_COUNT (n : Nat) : Field := ⟨0x8001e0 + 0x80000 * n, 32, 0, .w1cAll, .any⟩
-- CPL_CHECK (R167)
def R.CPL_CHECK_STEP (n : Nat) : Field := ⟨0x800200 + 0x80000 * n, 9, 0, .ro, .any⟩
def R.CPL_CHECK_CHECK (n : Nat) : Field := ⟨0x80020c + 0x80000 * n, 4, 0, .ro, .any⟩
def R.CPL_CHECK_STATUS (n : Nat) : Field := ⟨0x800210 + 0x80000 * n, 16, 0, .ro, .any⟩
-- CPL_LEN (R167)
def R.CPL_LEN_LEN (n r : Nat) : Field := ⟨0x800800 + 0x80000 * n + 0x20 * r, 18, 0, .rw, .any⟩
-- CPL_FADE_TH (R167)
def R.CPL_FADE_TH_TH (n e : Nat) : Field := ⟨0x801000 + 0x80000 * n + 0x20 * e, 16, 0, .rw, .any⟩
-- ZON_ENTRY_W0 (R171)
def R.ZON_ENTRY_ROUTES (e : Nat) : Field := ⟨0xa00000 + 0x100 * e, 16, 0, .rw, .any⟩
def R.ZON_ENTRY_PIDX (e : Nat) : Field := ⟨0xa00010 + 0x100 * e, 8, 0, .rw, .any⟩
def R.ZON_ENTRY_BOX (e : Nat) : Field := ⟨0xa0001b + 0x100 * e, 1, 0, .rw, .any⟩
def R.ZON_ENTRY_PORT (e : Nat) : Field := ⟨0xa0001c + 0x100 * e, 2, 0, .rw, .any⟩
def R.ZON_ENTRY_PRIV (e : Nat) : Field := ⟨0xa0001e + 0x100 * e, 1, 0, .rw, .any⟩
def R.ZON_ENTRY_EN (e : Nat) : Field := ⟨0xa0001f + 0x100 * e, 1, 0, .rw, .any⟩
-- ZON_ENTRY_W1 (R171)
def R.ZON_ENTRY_START (e : Nat) : Field := ⟨0xa00020 + 0x100 * e, 32, 0, .rw, .any⟩
-- ZON_ENTRY_W2 (R171)
def R.ZON_ENTRY_COUNT (e : Nat) : Field := ⟨0xa00040 + 0x100 * e, 18, 0, .rw, .any⟩
def R.ZON_ENTRY_GAUGE (e : Nat) : Field := ⟨0xa00058 + 0x100 * e, 7, 0, .rw, .any⟩
-- ZON_ENTRY_W3 (R171)
def R.ZON_ENTRY_INTERVAL (e : Nat) : Field := ⟨0xa00060 + 0x100 * e, 14, 0, .rw, .any⟩
def R.ZON_ENTRY_Z0 (e : Nat) : Field := ⟨0xa00070 + 0x100 * e, 16, 0, .rw, .any⟩
-- ZON_ENTRY_W4 (R171)
def R.ZON_ENTRY_SCALE (e : Nat) : Field := ⟨0xa00080 + 0x100 * e, 32, 0, .rw, .any⟩
-- ZON_ENTRY_W5 (R171)
def R.ZON_ENTRY_POINT_BASE (e : Nat) : Field := ⟨0xa000a0 + 0x100 * e, 19, 0, .rw, .any⟩
def R.ZON_ENTRY_UNIT (e : Nat) : Field := ⟨0xa000bc + 0x100 * e, 4, 0, .rw, .any⟩
-- ZON_ENTRY_W6 (R171)
def R.ZON_ENTRY_DET (e : Nat) : Field := ⟨0xa000d8 + 0x100 * e, 4, 0, .rw, .any⟩
def R.ZON_ENTRY_FILT (e : Nat) : Field := ⟨0xa000dc + 0x100 * e, 4, 0, .rw, .any⟩
-- ZON_ENTRY_W7 (R171)
def R.ZON_ENTRY_LABEL (e : Nat) : Field := ⟨0xa000e0 + 0x100 * e, 32, 0, .rw, .any⟩
-- ZON_CTRL (R185)
def R.ZON_CTRL_DISCARD : Field := ⟨0xb0001e, 1, 0, .wo, .any⟩
def R.ZON_CTRL_COMMIT : Field := ⟨0xb0001f, 1, 0, .wo, .any⟩
-- ZON_STAT (R185)
def R.ZON_STAT_GEN : Field := ⟨0xb00020, 16, 0, .ro, .any⟩
def R.ZON_STAT_PRIV : Field := ⟨0xb00030, 9, 0, .ro, .any⟩
def R.ZON_STAT_BUSY : Field := ⟨0xb0003f, 1, 0, .ro, .any⟩
-- ZON_EVENT (R185)
def R.ZON_EVENT_COMMIT_DONE : Field := ⟨0xb00040, 1, 0, .w1c, .any⟩
def R.ZON_EVENT_COMMIT_FAIL : Field := ⟨0xb00041, 1, 0, .w1c, .any⟩
def R.ZON_EVENT_WRITE_REJECT : Field := ⟨0xb00042, 1, 0, .w1c, .any⟩
def R.ZON_EVENT_GAUGE_SHARED : Field := ⟨0xb00043, 1, 0, .w1c, .any⟩
def R.ZON_EVENT_RATE_SAT : Field := ⟨0xb00044, 1, 0, .w1c, .any⟩
-- ZON_CHECK (R185)
def R.ZON_CHECK_ENTRY : Field := ⟨0xb00060, 12, 0, .ro, .any⟩
def R.ZON_CHECK_CHECK : Field := ⟨0xb0006c, 4, 0, .ro, .any⟩
def R.ZON_CHECK_STATUS : Field := ⟨0xb00070, 16, 0, .ro, .any⟩
-- ZON_SATCNT (R185)
def R.ZON_SATCNT_COUNT : Field := ⟨0xb00080, 32, 0, .w1cAll, .any⟩
-- ZON_PORT_NG (R185)
def R.ZON_PORT_NG_NG (n : Nat) : Field := ⟨0xb00800 + 0x20 * n, 24, 6158077, .rw, .any⟩
-- ZON_PORT_POINTS (R185)
def R.ZON_PORT_POINTS_P (n : Nat) : Field := ⟨0xb00880 + 0x20 * n, 18, 0, .ro, .any⟩
-- ZON_PORT_GEN (R185)
def R.ZON_PORT_GEN_GEN (n : Nat) : Field := ⟨0xb00900 + 0x20 * n, 16, 0, .ro, .any⟩
-- ZON_PORT_QMAX (R185)
def R.ZON_PORT_QMAX_LEVEL (n : Nat) : Field := ⟨0xb00980 + 0x20 * n, 15, 0, .w1cAll, .any⟩
-- FDC_CTRL (R214)
def R.FDC_CTRL_CONSUMERS (n : Nat) : Field := ⟨0xc00000 + 0x40000 * n, 4, 9, .rw, .any⟩
def R.FDC_CTRL_BUDGET (n : Nat) : Field := ⟨0xc00008 + 0x40000 * n, 8, 40, .rw, .clamp 1 255⟩
def R.FDC_CTRL_GAP_FILL (n : Nat) : Field := ⟨0xc00010 + 0x40000 * n, 8, 8, .rw, .any⟩
def R.FDC_CTRL_SYNC (n : Nat) : Field := ⟨0xc0001f + 0x40000 * n, 1, 0, .wo, .any⟩
-- FDC_STAT (R214)
def R.FDC_STAT_USED (n : Nat) : Field := ⟨0xc00020 + 0x40000 * n, 16, 0, .ro, .any⟩
def R.FDC_STAT_BYPASS (n : Nat) : Field := ⟨0xc0003e + 0x40000 * n, 1, 0, .ro, .any⟩
def R.FDC_STAT_RUNNING (n : Nat) : Field := ⟨0xc0003f + 0x40000 * n, 1, 0, .ro, .any⟩
-- FDC_EVENT (R214)
def R.FDC_EVENT_START_FAIL (n : Nat) : Field := ⟨0xc00040 + 0x40000 * n, 1, 0, .w1c, .any⟩
def R.FDC_EVENT_CFG_REJECT (n : Nat) : Field := ⟨0xc00041 + 0x40000 * n, 1, 0, .w1c, .any⟩
def R.FDC_EVENT_GAP_RESET (n : Nat) : Field := ⟨0xc00042 + 0x40000 * n, 1, 0, .w1c, .any⟩
def R.FDC_EVENT_SAT (n : Nat) : Field := ⟨0xc00043 + 0x40000 * n, 1, 0, .w1c, .any⟩
def R.FDC_EVENT_DROP (n : Nat) : Field := ⟨0xc00044 + 0x40000 * n, 1, 0, .w1c, .any⟩
def R.FDC_EVENT_GEN_FAIL (n : Nat) : Field := ⟨0xc00045 + 0x40000 * n, 1, 0, .w1c, .any⟩
-- FDC_DROPS (R214)
def R.FDC_DROPS_COUNT (n : Nat) : Field := ⟨0xc00060 + 0x40000 * n, 32, 0, .w1cAll, .any⟩
-- FDC_SATCNT (R214)
def R.FDC_SATCNT_COUNT (n : Nat) : Field := ⟨0xc00080 + 0x40000 * n, 32, 0, .w1cAll, .any⟩
-- FDC_CHECK (R214)
def R.FDC_CHECK_PROFILE (n : Nat) : Field := ⟨0xc000a0 + 0x40000 * n, 4, 0, .ro, .any⟩
def R.FDC_CHECK_CHECK (n : Nat) : Field := ⟨0xc000ac + 0x40000 * n, 4, 0, .ro, .any⟩
def R.FDC_CHECK_STATUS (n : Nat) : Field := ⟨0xc000b0 + 0x40000 * n, 16, 0, .ro, .any⟩
-- FDC_LOAD (R214)
def R.FDC_LOAD_OPS (n : Nat) : Field := ⟨0xc000c0 + 0x40000 * n, 16, 0, .ro, .any⟩
def R.FDC_LOAD_BW (n : Nat) : Field := ⟨0xc000d0 + 0x40000 * n, 16, 0, .ro, .any⟩
-- FDC_HIST_SIZE (R214)
def R.FDC_HIST_SIZE_BYTES (n : Nat) : Field := ⟨0xc000e0 + 0x40000 * n, 32, 0, .ro, .any⟩
-- FDC_PROF_CFG0 (R214)
def R.FDC_PROF_CFG0_T2 (n p : Nat) : Field := ⟨0xc00800 + 0x40000 * n + 0x100 * p, 7, 1, .rw, .clamp 1 64⟩
def R.FDC_PROF_CFG0_D2 (n p : Nat) : Field := ⟨0xc0080c + 0x40000 * n + 0x100 * p, 4, 1, .rw, .clamp 1 8⟩
def R.FDC_PROF_CFG0_D1 (n p : Nat) : Field := ⟨0xc00810 + 0x40000 * n + 0x100 * p, 8, 1, .rw, .clamp 1 255⟩
def R.FDC_PROF_CFG0_SH1 (n p : Nat) : Field := ⟨0xc00818 + 0x40000 * n + 0x100 * p, 4, 0, .rw, .clamp 0 8⟩
def R.FDC_PROF_CFG0_RS_EN (n p : Nat) : Field := ⟨0xc0081e + 0x40000 * n + 0x100 * p, 1, 0, .rw, .any⟩
def R.FDC_PROF_CFG0_EN (n p : Nat) : Field := ⟨0xc0081f + 0x40000 * n + 0x100 * p, 1, 0, .rw, .any⟩
-- FDC_PROF_CFG1 (R214)
def R.FDC_PROF_CFG1_G1 (n p : Nat) : Field := ⟨0xc00820 + 0x40000 * n + 0x100 * p, 16, 32768, .rw, .any⟩
-- FDC_PROF_OUT (R214)
def R.FDC_PROF_OUT_OUT_PERIOD (n p : Nat) : Field := ⟨0xc00840 + 0x40000 * n + 0x100 * p, 32, 1250000, .rw, .any⟩
-- FDC_PROF_GD (R214)
def R.FDC_PROF_GD_GD (n p : Nat) : Field := ⟨0xc00860 + 0x40000 * n + 0x100 * p, 32, 0, .ro, .any⟩
-- FDC_C2 (R214)
def R.FDC_C2_C_EVEN (n p w : Nat) : Field := ⟨0xc08000 + 0x40000 * n + 0x400 * p + 0x20 * w, 16, 0, .rw, .any⟩
def R.FDC_C2_C_ODD (n p w : Nat) : Field := ⟨0xc08010 + 0x40000 * n + 0x400 * p + 0x20 * w, 16, 0, .rw, .any⟩
-- FDC_RS (R214)
def R.FDC_RS_H_EVEN (n p w : Nat) : Field := ⟨0xc10000 + 0x40000 * n + 0x2000 * p + 0x20 * w, 16, 0, .rw, .any⟩
def R.FDC_RS_H_ODD (n p w : Nat) : Field := ⟨0xc10010 + 0x40000 * n + 0x2000 * p + 0x20 * w, 16, 0, .rw, .any⟩
-- EVE_CTRL (R214)
def R.EVE_CTRL_RSTREAM : Field := ⟨0xd00000, 4, 7, .rw, .any⟩
def R.EVE_CTRL_WAKE_EN : Field := ⟨0xd00008, 1, 1, .rw, .any⟩
-- EVE_STAT (R214)
def R.EVE_STAT_ALARMS : Field := ⟨0xd00030, 9, 0, .ro, .any⟩
-- EVE_EVENT (R214)
def R.EVE_EVENT_CFG_REJECT : Field := ⟨0xd00040, 1, 0, .w1c, .any⟩
def R.EVE_EVENT_RAISE : Field := ⟨0xd00041, 1, 0, .w1c, .any⟩
def R.EVE_EVENT_CLEAR : Field := ⟨0xd00042, 1, 0, .w1c, .any⟩
def R.EVE_EVENT_WAKE : Field := ⟨0xd00043, 1, 0, .w1c, .any⟩
-- EVE_SEQ (R214)
def R.EVE_SEQ_COUNT : Field := ⟨0xd00060, 32, 0, .ro, .any⟩
-- EVE_WAKE (R214)
def R.EVE_WAKE_REQ : Field := ⟨0xd00080, 4, 0, .ro, .any⟩
def R.EVE_WAKE_CANCEL : Field := ⟨0xd00084, 4, 0, .wo, .any⟩
-- EVE_DCFG (R214)
def R.EVE_DCFG_W (d : Nat) : Field := ⟨0xd00800 + 0x80 * d, 9, 1, .rw, .clamp 1 256⟩
def R.EVE_DCFG_RELEASE (d : Nat) : Field := ⟨0xd00810 + 0x80 * d, 4, 0, .rw, .any⟩
def R.EVE_DCFG_ATTACK (d : Nat) : Field := ⟨0xd00814 + 0x80 * d, 4, 0, .rw, .any⟩
def R.EVE_DCFG_EMIT_ENV (d : Nat) : Field := ⟨0xd0081d + 0x80 * d, 1, 0, .rw, .any⟩
def R.EVE_DCFG_EMIT_RMS (d : Nat) : Field := ⟨0xd0081e + 0x80 * d, 1, 0, .rw, .any⟩
def R.EVE_DCFG_EMIT_PEAK (d : Nat) : Field := ⟨0xd0081f + 0x80 * d, 1, 0, .rw, .any⟩
-- EVE_TSET_W0 (R214)
def R.EVE_TSET_MIN_PTS (i : Nat) : Field := ⟨0xd08000 + 0x100 * i, 18, 1, .rw, .clamp 1 262143⟩
def R.EVE_TSET_QTY (i : Nat) : Field := ⟨0xd0801c + 0x100 * i, 2, 0, .rw, .subst 3 2⟩
def R.EVE_TSET_WAKE (i : Nat) : Field := ⟨0xd0801e + 0x100 * i, 1, 0, .rw, .any⟩
def R.EVE_TSET_EN (i : Nat) : Field := ⟨0xd0801f + 0x100 * i, 1, 0, .rw, .any⟩
-- EVE_TSET_W1 (R214)
def R.EVE_TSET_HIGH (i : Nat) : Field := ⟨0xd08020 + 0x100 * i, 24, 0, .rw, .any⟩
-- EVE_TSET_W2 (R214)
def R.EVE_TSET_LOW (i : Nat) : Field := ⟨0xd08040 + 0x100 * i, 24, 0, .rw, .any⟩
-- EVE_TSET_W3 (R214)
def R.EVE_TSET_W_HIGH (i : Nat) : Field := ⟨0xd08060 + 0x100 * i, 24, 0, .rw, .any⟩
-- EVE_TSET_W4 (R214)
def R.EVE_TSET_W_LOW (i : Nat) : Field := ⟨0xd08080 + 0x100 * i, 24, 0, .rw, .any⟩
-- EVE_TSET_W5 (R214)
def R.EVE_TSET_ON_HOLD (i : Nat) : Field := ⟨0xd080a0 + 0x100 * i, 16, 1, .rw, .clamp 1 65535⟩
def R.EVE_TSET_OFF_HOLD (i : Nat) : Field := ⟨0xd080b0 + 0x100 * i, 16, 1, .rw, .clamp 1 65535⟩
-- EVE_TSET_W6 (R214)
def R.EVE_TSET_UPD (i : Nat) : Field := ⟨0xd080c0 + 0x100 * i, 16, 0, .rw, .any⟩
-- EVE_ZSTAT (R214)
def R.EVE_ZSTAT_COUNT (i : Nat) : Field := ⟨0xd18000 + 0x20 * i, 16, 0, .ro, .any⟩
def R.EVE_ZSTAT_ENTRY (i : Nat) : Field := ⟨0xd18010 + 0x20 * i, 12, 0, .ro, .any⟩
def R.EVE_ZSTAT_STATE (i : Nat) : Field := ⟨0xd1801e + 0x20 * i, 2, 0, .ro, .any⟩
-- RRX_CTRL (R239)
def R.RRX_CTRL_DEST : Field := ⟨0xe00000, 3, 1, .rw, .any⟩
def R.RRX_CTRL_QUIET_TH : Field := ⟨0xe00010, 16, 512, .rw, .any⟩
-- RRX_EVENT (R239)
def R.RRX_EVENT_CLIP : Field := ⟨0xe00028, 8, 0, .w1c, .any⟩
def R.RRX_EVENT_PROFILE : Field := ⟨0xe00030, 4, 0, .w1c, .any⟩
def R.RRX_EVENT_REJECT : Field := ⟨0xe00034, 4, 0, .w1c, .any⟩
def R.RRX_EVENT_CAL_FAIL : Field := ⟨0xe00038, 4, 0, .w1c, .any⟩
def R.RRX_EVENT_CFG_REJECT : Field := ⟨0xe0003f, 1, 0, .w1c, .any⟩
-- RRX_PORT_CFG (R239)
def R.RRX_PORT_CFG_B (n : Nat) : Field := ⟨0xe08008 + 0x8000 * n, 8, 1, .rw, .clamp 1 16⟩
def R.RRX_PORT_CFG_RST (n : Nat) : Field := ⟨0xe08010 + 0x8000 * n, 12, 64, .rw, .clamp 16 4095⟩
def R.RRX_PORT_CFG_RANGE0 (n : Nat) : Field := ⟨0xe0801c + 0x8000 * n, 2, 0, .rw, .any⟩
def R.RRX_PORT_CFG_MODE (n : Nat) : Field := ⟨0xe0801f + 0x8000 * n, 1, 0, .rw, .any⟩
-- RRX_PORT_T0 (R239)
def R.RRX_PORT_T0_T0 (n : Nat) : Field := ⟨0xe08020 + 0x8000 * n, 16, 0, .rw, .any⟩
-- RRX_PORT_Z0 (R239)
def R.RRX_PORT_Z0_VALUE (n : Nat) : Field := ⟨0xe08040 + 0x8000 * n, 18, 0, .rw, .any⟩
-- RRX_PORT_COUNT (R239)
def R.RRX_PORT_COUNT_VALUE (n : Nat) : Field := ⟨0xe08060 + 0x8000 * n, 18, 0, .rw, .any⟩
-- RRX_PORT_GATE (R239)
def R.RRX_PORT_GATE_VALUE (n : Nat) : Field := ⟨0xe08080 + 0x8000 * n, 18, 0, .rw, .any⟩
-- RRX_PORT_LOW_TH (R239)
def R.RRX_PORT_LOW_TH_TH (n : Nat) : Field := ⟨0xe080a0 + 0x8000 * n, 32, 65536, .rw, .any⟩
-- RRX_PORT_GAMMA (R239)
def R.RRX_PORT_GAMMA_GAMMA (n : Nat) : Field := ⟨0xe080c0 + 0x8000 * n, 32, 41517056, .rw, .any⟩
-- RRX_PORT_DA (R239)
def R.RRX_PORT_DA_DA (n : Nat) : Field := ⟨0xe080e0 + 0x8000 * n, 32, 0, .rw, .any⟩
-- RRX_PORT_SW (R239)
def R.RRX_PORT_SW_SAMPLE (n i : Nat) : Field := ⟨0xe08100 + 0x8000 * n + 0x20 * i, 18, 0, .rw, .any⟩
def R.RRX_PORT_SW_RANGE (n i : Nat) : Field := ⟨0xe08112 + 0x8000 * n + 0x20 * i, 2, 0, .rw, .any⟩
def R.RRX_PORT_SW_EN (n i : Nat) : Field := ⟨0xe0811f + 0x8000 * n + 0x20 * i, 1, 0, .rw, .any⟩
-- RRX_PORT_COIL_A (R239)
def R.RRX_PORT_COIL_A_START (n c : Nat) : Field := ⟨0xe08180 + 0x8000 * n + 0x40 * c, 18, 0, .rw, .any⟩
def R.RRX_PORT_COIL_A_SEN (n c : Nat) : Field := ⟨0xe08198 + 0x8000 * n + 0x40 * c, 4, 0, .rw, .any⟩
def R.RRX_PORT_COIL_A_EN (n c : Nat) : Field := ⟨0xe0819f + 0x8000 * n + 0x40 * c, 1, 0, .rw, .any⟩
-- RRX_PORT_COIL_B (R239)
def R.RRX_PORT_COIL_B_END (n c : Nat) : Field := ⟨0xe081a0 + 0x8000 * n + 0x40 * c, 18, 0, .rw, .any⟩
-- RRX_PORT_STAT (R239)
def R.RRX_PORT_STAT_TRACES (n : Nat) : Field := ⟨0xe08200 + 0x8000 * n, 17, 0, .ro, .any⟩
def R.RRX_PORT_STAT_DEFERRED (n : Nat) : Field := ⟨0xe08218 + 0x8000 * n, 1, 0, .ro, .any⟩
def R.RRX_PORT_STAT_QUIET (n : Nat) : Field := ⟨0xe08219 + 0x8000 * n, 1, 0, .ro, .any⟩
def R.RRX_PORT_STAT_CAL_STALE (n : Nat) : Field := ⟨0xe0821a + 0x8000 * n, 1, 1, .ro, .any⟩
def R.RRX_PORT_STAT_CAL_RESULT (n : Nat) : Field := ⟨0xe0821b + 0x8000 * n, 2, 0, .ro, .any⟩
def R.RRX_PORT_STAT_JOB (n : Nat) : Field := ⟨0xe0821d + 0x8000 * n, 3, 0, .ro, .any⟩
-- RRX_PORT_REJECT (R239)
def R.RRX_PORT_REJECT_COUNT (n : Nat) : Field := ⟨0xe08220 + 0x8000 * n, 32, 0, .w1cAll, .any⟩
-- RRX_PORT_LAST_PROFILE (R239)
def R.RRX_PORT_LAST_PROFILE_STAMP (n : Nat) : Field := ⟨0xe08240 + 0x8000 * n, 64, 0, .ro, .any⟩
-- RRX_PORT_TC_LAST (R239)
def R.RRX_PORT_TC_LAST_TC (n : Nat) : Field := ⟨0xe08280 + 0x8000 * n, 32, 0, .ro, .any⟩
-- RRX_PORT_CH_RMS (R239)
def R.RRX_PORT_CH_RMS_MEAN (n c : Nat) : Field := ⟨0xe08800 + 0x8000 * n + 0x100 * c, 16, 0, .ro, .any⟩
def R.RRX_PORT_CH_RMS_RMS (n c : Nat) : Field := ⟨0xe08810 + 0x8000 * n + 0x100 * c, 16, 0, .ro, .any⟩
-- RRX_PORT_CH_CLIP (R239)
def R.RRX_PORT_CH_CLIP_COUNT (n c : Nat) : Field := ⟨0xe08820 + 0x8000 * n + 0x100 * c, 32, 0, .w1cAll, .any⟩
-- RSF_CTRL (R255)
def R.RSF_CTRL_EXC_HOLD : Field := ⟨0xf00010, 4, 0, .rw, .any⟩
def R.RSF_CTRL_SELFCAL : Field := ⟨0xf0001e, 1, 0, .wo, .any⟩
def R.RSF_CTRL_EN : Field := ⟨0xf0001f, 1, 0, .rw, .any⟩
-- RSF_STAT (R255)
def R.RSF_STAT_SEQ : Field := ⟨0xf00020, 16, 0, .ro, .any⟩
def R.RSF_STAT_CUR : Field := ⟨0xf00030, 4, 0, .ro, .any⟩
def R.RSF_STAT_CHECK_CH : Field := ⟨0xf00034, 4, 0, .ro, .any⟩
def R.RSF_STAT_CAL_STALE : Field := ⟨0xf0003b, 1, 1, .ro, .any⟩
def R.RSF_STAT_CAL_RESULT : Field := ⟨0xf0003c, 2, 0, .ro, .any⟩
def R.RSF_STAT_CFG_ERR : Field := ⟨0xf0003e, 1, 0, .ro, .any⟩
def R.RSF_STAT_RUNNING : Field := ⟨0xf0003f, 1, 0, .ro, .any⟩
-- RSF_EVENT (R255)
def R.RSF_EVENT_CAL_FAIL : Field := ⟨0xf0004d, 1, 0, .w1c, .any⟩
def R.RSF_EVENT_CFG_ERR : Field := ⟨0xf0004e, 1, 0, .w1c, .any⟩
def R.RSF_EVENT_OV : Field := ⟨0xf0004f, 1, 0, .w1c, .any⟩
def R.RSF_EVENT_BURNOUT : Field := ⟨0xf00050, 16, 0, .w1c, .any⟩
-- RSF_OV (R255)
def R.RSF_OV_BALL : Field := ⟨0xf00060, 16, 0, .w1c, .any⟩
-- RSF_SEQ_PERIOD (R255)
def R.RSF_SEQ_PERIOD_US : Field := ⟨0xf00080, 32, 0, .ro, .any⟩
-- RSF_CH_CFG0 (R255)
def R.RSF_CH_CFG0_EXC (c : Nat) : Field := ⟨0xf00802 + 0x200 * c, 2, 0, .rw, .any⟩
def R.RSF_CH_CFG0_REF (c : Nat) : Field := ⟨0xf00807 + 0x200 * c, 1, 0, .rw, .any⟩
def R.RSF_CH_CFG0_REFN (c : Nat) : Field := ⟨0xf00808 + 0x200 * c, 4, 0, .rw, .any⟩
def R.RSF_CH_CFG0_REFP (c : Nat) : Field := ⟨0xf0080c + 0x200 * c, 4, 0, .rw, .any⟩
def R.RSF_CH_CFG0_AINN (c : Nat) : Field := ⟨0xf00810 + 0x200 * c, 4, 0, .rw, .any⟩
def R.RSF_CH_CFG0_AINP (c : Nat) : Field := ⟨0xf00814 + 0x200 * c, 4, 0, .rw, .any⟩
def R.RSF_CH_CFG0_GAIN (c : Nat) : Field := ⟨0xf00818 + 0x200 * c, 3, 0, .rw, .any⟩
def R.RSF_CH_CFG0_BURN_EN (c : Nat) : Field := ⟨0xf0081b + 0x200 * c, 1, 1, .rw, .any⟩
def R.RSF_CH_CFG0_TYPE (c : Nat) : Field := ⟨0xf0081c + 0x200 * c, 3, 0, .rw, .any⟩
def R.RSF_CH_CFG0_EN (c : Nat) : Field := ⟨0xf0081f + 0x200 * c, 1, 0, .rw, .any⟩
-- RSF_CH_CFG1 (R255)
def R.RSF_CH_CFG1_OSR (c : Nat) : Field := ⟨0xf00820 + 0x200 * c, 16, 20000, .rw, .clamp 16 65535⟩
def R.RSF_CH_CFG1_SETTLE (c : Nat) : Field := ⟨0xf00830 + 0x200 * c, 10, 20, .rw, .any⟩
def R.RSF_CH_CFG1_ORDER (c : Nat) : Field := ⟨0xf0083f + 0x200 * c, 1, 1, .rw, .any⟩
-- RSF_CH_CFG2 (R255)
def R.RSF_CH_CFG2_IEXC (c : Nat) : Field := ⟨0xf00840 + 0x200 * c, 16, 0, .rw, .clamp 0 1000⟩
def R.RSF_CH_CFG2_BETA (c : Nat) : Field := ⟨0xf00850 + 0x200 * c, 16, 3950, .rw, .any⟩
-- RSF_CH_COEF0 (R255)
def R.RSF_CH_COEF0_R_REF (c : Nat) : Field := ⟨0xf00860 + 0x200 * c, 32, 0, .rw, .any⟩
-- RSF_CH_COEF1 (R255)
def R.RSF_CH_COEF1_R0 (c : Nat) : Field := ⟨0xf00880 + 0x200 * c, 32, 0, .rw, .any⟩
-- RSF_CH_RAW (R255)
def R.RSF_CH_RAW_UNCAL (c : Nat) : Field := ⟨0xf00904 + 0x200 * c, 1, 0, .ro, .any⟩
def R.RSF_CH_RAW_SAT (c : Nat) : Field := ⟨0xf00905 + 0x200 * c, 1, 0, .ro, .any⟩
def R.RSF_CH_RAW_OV (c : Nat) : Field := ⟨0xf00906 + 0x200 * c, 1, 0, .ro, .any⟩
def R.RSF_CH_RAW_BURNOUT (c : Nat) : Field := ⟨0xf00907 + 0x200 * c, 1, 0, .ro, .any⟩
def R.RSF_CH_RAW_CODE (c : Nat) : Field := ⟨0xf00908 + 0x200 * c, 24, 0, .ro, .any⟩
-- RSF_CH_VALUE (R255)
def R.RSF_CH_VALUE_VALUE (c : Nat) : Field := ⟨0xf00920 + 0x200 * c, 32, 0, .ro, .any⟩
-- RSF_CH_STAMP (R255)
def R.RSF_CH_STAMP_STAMP (c : Nat) : Field := ⟨0xf00940 + 0x200 * c, 64, 0, .ro, .any⟩
-- RSF_CH_COUNT (R255)
def R.RSF_CH_COUNT_COUNT (c : Nat) : Field := ⟨0xf00980 + 0x200 * c, 32, 0, .ro, .any⟩
-- RSF_CH_GOOD_VALUE (R255)
def R.RSF_CH_GOOD_VALUE_VALUE (c : Nat) : Field := ⟨0xf009a0 + 0x200 * c, 32, 0, .ro, .any⟩
-- RSF_CH_GOOD_STAMP (R255)
def R.RSF_CH_GOOD_STAMP_STAMP (c : Nat) : Field := ⟨0xf009c0 + 0x200 * c, 64, 0, .ro, .any⟩
-- VDC_STAT (R289)
def R.VDC_STAT_AWAKE : Field := ⟨0x1000000, 8, 0, .ro, .any⟩
def R.VDC_STAT_RUNNING : Field := ⟨0x1000010, 8, 0, .ro, .any⟩
-- VDC_EVENT (R289)
def R.VDC_EVENT_DROP : Field := ⟨0x1000020, 8, 0, .w1c, .any⟩
def R.VDC_EVENT_DONE : Field := ⟨0x1000028, 8, 0, .w1c, .any⟩
def R.VDC_EVENT_FAULT : Field := ⟨0x1000030, 8, 0, .w1c, .any⟩
def R.VDC_EVENT_CFG_REJECT : Field := ⟨0x100003f, 1, 0, .w1c, .any⟩
-- VDC_GRP_STAT (R289)
def R.VDC_GRP_STAT_WAITING (g : Nat) : Field := ⟨0x1000800 + 0x100 * g, 8, 0, .ro, .any⟩
def R.VDC_GRP_STAT_HALTED (g : Nat) : Field := ⟨0x1000808 + 0x100 * g, 8, 0, .ro, .any⟩
def R.VDC_GRP_STAT_MASK (g : Nat) : Field := ⟨0x1000810 + 0x100 * g, 8, 0, .ro, .any⟩
def R.VDC_GRP_STAT_STATE (g : Nat) : Field := ⟨0x100081d + 0x100 * g, 3, 0, .ro, .any⟩
-- VDC_GRP_JOB (R289)
def R.VDC_GRP_JOB_HANDLE (g : Nat) : Field := ⟨0x1000820 + 0x100 * g, 32, 0, .ro, .any⟩
-- VDC_GRP_FAULT (R289)
def R.VDC_GRP_FAULT_PC (g : Nat) : Field := ⟨0x1000840 + 0x100 * g, 12, 0, .ro, .any⟩
def R.VDC_GRP_FAULT_CODE (g : Nat) : Field := ⟨0x1000858 + 0x100 * g, 4, 0, .ro, .any⟩
def R.VDC_GRP_FAULT_CORE (g : Nat) : Field := ⟨0x100085c + 0x100 * g, 3, 0, .ro, .any⟩
def R.VDC_GRP_FAULT_VALID (g : Nat) : Field := ⟨0x100085f + 0x100 * g, 1, 0, .w1c, .any⟩
-- VDC_GRP_OUTQ (R289)
def R.VDC_GRP_OUTQ_LEVEL (g : Nat) : Field := ⟨0x1000860 + 0x100 * g, 15, 0, .ro, .any⟩
-- VDC_BIND_W0 (R289)
def R.VDC_BIND_ENTRY (i : Nat) : Field := ⟨0x1008000 + 0x80 * i, 12, 4095, .rw, .any⟩
def R.VDC_BIND_CORE (i : Nat) : Field := ⟨0x100800c + 0x80 * i, 6, 0, .rw, .any⟩
def R.VDC_BIND_KIND (i : Nat) : Field := ⟨0x1008015 + 0x80 * i, 2, 0, .rw, .any⟩
def R.VDC_BIND_PROFILE (i : Nat) : Field := ⟨0x1008017 + 0x80 * i, 4, 0, .rw, .any⟩
def R.VDC_BIND_PORT (i : Nat) : Field := ⟨0x100801b + 0x80 * i, 2, 0, .rw, .any⟩
def R.VDC_BIND_SRC (i : Nat) : Field := ⟨0x100801d + 0x80 * i, 2, 0, .rw, .any⟩
def R.VDC_BIND_EN (i : Nat) : Field := ⟨0x100801f + 0x80 * i, 1, 0, .rw, .any⟩
-- VDC_BIND_W1 (R289)
def R.VDC_BIND_BASE (i : Nat) : Field := ⟨0x1008020 + 0x80 * i, 16, 0, .rw, .any⟩
def R.VDC_BIND_CHAN (i : Nat) : Field := ⟨0x1008030 + 0x80 * i, 2, 0, .rw, .any⟩
-- VDC_BIND_W2 (R289)
def R.VDC_BIND_SIZE (i : Nat) : Field := ⟨0x1008040 + 0x80 * i, 17, 0, .rw, .any⟩
-- VDC_BIND_W3 (R289)
def R.VDC_BIND_DROPPED (i : Nat) : Field := ⟨0x1008060 + 0x80 * i, 32, 0, .w1cAll, .any⟩
-- VDC_CORE_STAT (R289)
def R.VDC_CORE_STAT_PC (c : Nat) : Field := ⟨0x1020000 + 0x200 * c, 12, 0, .ro, .any⟩
def R.VDC_CORE_STAT_ENTRY (c : Nat) : Field := ⟨0x102000c + 0x200 * c, 12, 0, .ro, .any⟩
def R.VDC_CORE_STAT_FAULT (c : Nat) : Field := ⟨0x1020018 + 0x200 * c, 4, 0, .ro, .any⟩
def R.VDC_CORE_STAT_XBUSY (c : Nat) : Field := ⟨0x102001c + 0x200 * c, 1, 0, .ro, .any⟩
def R.VDC_CORE_STAT_OVH (c : Nat) : Field := ⟨0x102001d + 0x200 * c, 1, 0, .ro, .any⟩
def R.VDC_CORE_STAT_WAITING (c : Nat) : Field := ⟨0x102001e + 0x200 * c, 1, 0, .ro, .any⟩
def R.VDC_CORE_STAT_HALTED (c : Nat) : Field := ⟨0x102001f + 0x200 * c, 1, 1, .ro, .any⟩
-- VDC_CORE_AOV (R289)
def R.VDC_CORE_AOV_AOV (c : Nat) : Field := ⟨0x1020020 + 0x200 * c, 32, 0, .ro, .any⟩
-- VDC_CORE_CYCLES (R289)
def R.VDC_CORE_CYCLES_COUNT (c : Nat) : Field := ⟨0x1020040 + 0x200 * c, 32, 0, .w1cAll, .any⟩
-- VDC_CORE_STALLS (R289)
def R.VDC_CORE_STALLS_COUNT (c : Nat) : Field := ⟨0x1020060 + 0x200 * c, 32, 0, .w1cAll, .any⟩
-- ACQ_CTRL (R311)
def R.ACQ_CTRL_PANIC_TH : Field := ⟨0x1200008, 8, 32, .rw, .clamp 1 64⟩
-- ACQ_STAT (R311)
def R.ACQ_STAT_ARMED : Field := ⟨0x1200020, 4, 0, .ro, .any⟩
def R.ACQ_STAT_PANIC : Field := ⟨0x1200024, 1, 0, .ro, .any⟩
-- ACQ_EVENT (R311)
def R.ACQ_EVENT_DONE : Field := ⟨0x1200044, 4, 0, .w1c, .any⟩
def R.ACQ_EVENT_RELEASE : Field := ⟨0x1200048, 4, 0, .w1c, .any⟩
def R.ACQ_EVENT_LOSTTRIG : Field := ⟨0x1200050, 4, 0, .w1c, .any⟩
def R.ACQ_EVENT_OVERRUN : Field := ⟨0x1200054, 4, 0, .w1c, .any⟩
def R.ACQ_EVENT_SEQ : Field := ⟨0x120005e, 1, 0, .w1c, .any⟩
def R.ACQ_EVENT_CFG_REJECT : Field := ⟨0x120005f, 1, 0, .w1c, .any⟩
-- ACQ_SWTRIG (R311)
def R.ACQ_SWTRIG_FIRE : Field := ⟨0x1200060, 16, 0, .wo, .any⟩
-- ACQ_SEQ_CTRL (R311)
def R.ACQ_SEQ_CTRL_START : Field := ⟨0x1200080, 4, 0, .rw, .any⟩
def R.ACQ_SEQ_CTRL_EN : Field := ⟨0x120009f, 1, 0, .rw, .any⟩
-- ACQ_SEQ_STAT (R311)
def R.ACQ_SEQ_STAT_STATE : Field := ⟨0x12000a0, 4, 0, .ro, .any⟩
def R.ACQ_SEQ_STAT_TMR0_EXP : Field := ⟨0x12000a8, 1, 0, .ro, .any⟩
def R.ACQ_SEQ_STAT_TMR1_EXP : Field := ⟨0x12000a9, 1, 0, .ro, .any⟩
-- ACQ_CNT0 (R311)
def R.ACQ_CNT0_COUNT : Field := ⟨0x12000c0, 32, 0, .ro, .any⟩
-- ACQ_CNT1 (R311)
def R.ACQ_CNT1_COUNT : Field := ⟨0x12000e0, 32, 0, .ro, .any⟩
-- ACQ_CMP0 (R311)
def R.ACQ_CMP0_VALUE : Field := ⟨0x1200100, 32, 0, .rw, .any⟩
-- ACQ_CMP1 (R311)
def R.ACQ_CMP1_VALUE : Field := ⟨0x1200120, 32, 0, .rw, .any⟩
-- ACQ_TMR0_LEN (R311)
def R.ACQ_TMR0_LEN_VALUE : Field := ⟨0x1200140, 32, 0, .rw, .any⟩
-- ACQ_TMR1_LEN (R311)
def R.ACQ_TMR1_LEN_VALUE : Field := ⟨0x1200160, 32, 0, .rw, .any⟩
-- ACQ_TIN (R311)
def R.ACQ_TIN_MATCH (i : Nat) : Field := ⟨0x1200800 + 0x20 * i, 12, 4095, .rw, .any⟩
def R.ACQ_TIN_CODE (i : Nat) : Field := ⟨0x1200810 + 0x20 * i, 4, 15, .rw, .any⟩
def R.ACQ_TIN_KMASK (i : Nat) : Field := ⟨0x1200814 + 0x20 * i, 3, 1, .rw, .any⟩
def R.ACQ_TIN_USE_ONSET (i : Nat) : Field := ⟨0x1200817 + 0x20 * i, 1, 0, .rw, .any⟩
def R.ACQ_TIN_UNIT (i : Nat) : Field := ⟨0x1200818 + 0x20 * i, 3, 0, .rw, .any⟩
def R.ACQ_TIN_SRC (i : Nat) : Field := ⟨0x120081b + 0x20 * i, 4, 0, .rw, .zeroFrom 10⟩
def R.ACQ_TIN_EN (i : Nat) : Field := ⟨0x120081f + 0x20 * i, 1, 0, .rw, .any⟩
-- ACQ_TIN_MERGED (R311)
def R.ACQ_TIN_MERGED_COUNT : Field := ⟨0x1200a00, 32, 0, .w1cAll, .any⟩
-- ACQ_SEQ_W0 (R311)
def R.ACQ_SEQ_STATE_NEXT_B (s : Nat) : Field := ⟨0x120100e + 0x80 * s, 4, 0, .rw, .any⟩
def R.ACQ_SEQ_STATE_NEXT_A (s : Nat) : Field := ⟨0x1201012 + 0x80 * s, 4, 0, .rw, .any⟩
def R.ACQ_SEQ_STATE_COND_B (s : Nat) : Field := ⟨0x1201016 + 0x80 * s, 5, 31, .rw, .any⟩
def R.ACQ_SEQ_STATE_COND_A (s : Nat) : Field := ⟨0x120101b + 0x80 * s, 5, 31, .rw, .any⟩
-- ACQ_SEQ_W1 (R311)
def R.ACQ_SEQ_STATE_ACT_A (s : Nat) : Field := ⟨0x1201020 + 0x80 * s, 16, 0, .rw, .any⟩
def R.ACQ_SEQ_STATE_ACT_B (s : Nat) : Field := ⟨0x1201030 + 0x80 * s, 16, 0, .rw, .any⟩
-- ACQ_CH_CFG0 (R311)
def R.ACQ_CH_CFG0_KIND (k : Nat) : Field := ⟨0x1208013 + 0x800 * k, 2, 0, .rw, .any⟩
def R.ACQ_CH_CFG0_PROFILE (k : Nat) : Field := ⟨0x1208015 + 0x800 * k, 4, 0, .rw, .any⟩
def R.ACQ_CH_CFG0_ARRAY (k : Nat) : Field := ⟨0x1208019 + 0x800 * k, 1, 0, .rw, .any⟩
def R.ACQ_CH_CFG0_MODE (k : Nat) : Field := ⟨0x120801a + 0x800 * k, 1, 0, .rw, .any⟩
def R.ACQ_CH_CFG0_MEM (k : Nat) : Field := ⟨0x120801b + 0x800 * k, 1, 0, .rw, .any⟩
def R.ACQ_CH_CFG0_PORT (k : Nat) : Field := ⟨0x120801c + 0x800 * k, 2, 0, .rw, .any⟩
def R.ACQ_CH_CFG0_SRC (k : Nat) : Field := ⟨0x120801e + 0x800 * k, 2, 0, .rw, .any⟩
-- ACQ_CH_SEG (R311)
def R.ACQ_CH_SEG_UNITS (k : Nat) : Field := ⟨0x1208020 + 0x800 * k, 32, 0, .rw, .any⟩
-- ACQ_CH_POST (R311)
def R.ACQ_CH_POST_UNITS (k : Nat) : Field := ⟨0x1208040 + 0x800 * k, 32, 0, .rw, .any⟩
-- ACQ_CH_COUNT (R311)
def R.ACQ_CH_COUNT_NSEG (k : Nat) : Field := ⟨0x1208060 + 0x800 * k, 9, 1, .rw, .any⟩
def R.ACQ_CH_COUNT_COUNT (k : Nat) : Field := ⟨0x1208070 + 0x800 * k, 16, 0, .rw, .any⟩
-- ACQ_CH_BASE (R311)
def R.ACQ_CH_BASE_VALUE (k : Nat) : Field := ⟨0x1208080 + 0x800 * k, 32, 0, .rw, .any⟩
-- ACQ_CH_SIZE (R311)
def R.ACQ_CH_SIZE_VALUE (k : Nat) : Field := ⟨0x12080a0 + 0x800 * k, 32, 0, .rw, .any⟩
-- ACQ_CH_CTRL (R311)
def R.ACQ_CH_CTRL_DISARM (k : Nat) : Field := ⟨0x12080de + 0x800 * k, 1, 0, .wo, .any⟩
def R.ACQ_CH_CTRL_ARM (k : Nat) : Field := ⟨0x12080df + 0x800 * k, 1, 0, .wo, .any⟩
-- ACQ_CH_STAT (R311)
def R.ACQ_CH_STAT_SLOT (k : Nat) : Field := ⟨0x12080e0 + 0x800 * k, 9, 0, .ro, .any⟩
def R.ACQ_CH_STAT_JOB (k : Nat) : Field := ⟨0x12080fa + 0x800 * k, 3, 0, .ro, .any⟩
def R.ACQ_CH_STAT_STATE (k : Nat) : Field := ⟨0x12080fd + 0x800 * k, 3, 0, .ro, .any⟩
-- ACQ_CH_CHECK (R311)
def R.ACQ_CH_CHECK_CHECK (k : Nat) : Field := ⟨0x120810c + 0x800 * k, 4, 0, .ro, .any⟩
def R.ACQ_CH_CHECK_STATUS (k : Nat) : Field := ⟨0x1208110 + 0x800 * k, 16, 0, .ro, .any⟩
-- ACQ_CH_LOSS0 (R311)
def R.ACQ_CH_LOSS0_INPOST (k : Nat) : Field := ⟨0x1208120 + 0x800 * k, 16, 0, .w1cAll, .any⟩
def R.ACQ_CH_LOSS0_MISSED (k : Nat) : Field := ⟨0x1208130 + 0x800 * k, 16, 0, .w1cAll, .any⟩
-- ACQ_CH_LOSS1 (R311)
def R.ACQ_CH_LOSS1_LATE (k : Nat) : Field := ⟨0x1208140 + 0x800 * k, 16, 0, .w1cAll, .any⟩
def R.ACQ_CH_LOSS1_NOSLOT (k : Nat) : Field := ⟨0x1208150 + 0x800 * k, 16, 0, .w1cAll, .any⟩
-- ACQ_CH_SEGS (R311)
def R.ACQ_CH_SEGS_COUNT (k : Nat) : Field := ⟨0x1208160 + 0x800 * k, 32, 0, .ro, .any⟩
-- ACQ_CH_FREE (R311)
def R.ACQ_CH_FREE_SLOT (k : Nat) : Field := ⟨0x1208180 + 0x800 * k, 9, 0, .wo, .any⟩
-- ACQ_CH_STRIDE (R311)
def R.ACQ_CH_STRIDE_VALUE (k : Nat) : Field := ⟨0x12081a0 + 0x800 * k, 32, 0, .ro, .any⟩
-- ACQ_CH_JOB (R311)
def R.ACQ_CH_JOB_VALUE (k : Nat) : Field := ⟨0x12081c0 + 0x800 * k, 32, 0, .ro, .any⟩
-- CMP_CTRL (R331)
def R.CMP_CTRL_LEVEL : Field := ⟨0x1400000, 6, 8, .rw, .clamp 1 63⟩
def R.CMP_CTRL_LAZY : Field := ⟨0x1400008, 1, 1, .rw, .any⟩
-- CMP_STAT (R331)
def R.CMP_STAT_BUSY : Field := ⟨0x1400020, 4, 0, .ro, .any⟩
def R.CMP_STAT_STALL : Field := ⟨0x1400024, 4, 0, .ro, .any⟩
def R.CMP_STAT_HODS : Field := ⟨0x1400028, 4, 0, .ro, .any⟩
-- CMP_EVENT (R331)
def R.CMP_EVENT_VERIFY : Field := ⟨0x1400044, 4, 0, .w1c, .any⟩
def R.CMP_EVENT_TRUNC : Field := ⟨0x1400048, 4, 0, .w1c, .any⟩
def R.CMP_EVENT_BAD : Field := ⟨0x140005d, 1, 0, .w1c, .any⟩
def R.CMP_EVENT_FAIL : Field := ⟨0x140005e, 1, 0, .w1c, .any⟩
def R.CMP_EVENT_CFG_REJECT : Field := ⟨0x140005f, 1, 0, .w1c, .any⟩
-- CMP_FLUSH (R331)
def R.CMP_FLUSH_DEF : Field := ⟨0x1400060, 32, 0, .wo, .any⟩
-- CMP_ACTIVE (R331)
def R.CMP_ACTIVE_DEF : Field := ⟨0x1400080, 32, 0, .ro, .any⟩
-- CMP_VFAIL (R331)
def R.CMP_VFAIL_COUNT : Field := ⟨0x14000a0, 32, 0, .w1cAll, .any⟩
-- CMP_BAD (R331)
def R.CMP_BAD_COUNT : Field := ⟨0x14000c0, 32, 0, .w1cAll, .any⟩
-- CMP_ENG_RING (R331)
def R.CMP_ENG_RING_LEVEL (n : Nat) : Field := ⟨0x1400800 + 0x80 * n, 19, 0, .ro, .any⟩
-- CMP_ENG_QUEUE (R331)
def R.CMP_ENG_QUEUE_LEVEL (n : Nat) : Field := ⟨0x1400820 + 0x80 * n, 19, 0, .ro, .any⟩
-- CMP_ENG_IN (R331)
def R.CMP_ENG_IN_KB (n : Nat) : Field := ⟨0x1400840 + 0x80 * n, 32, 0, .w1cAll, .any⟩
-- CMP_ENG_OUT (R331)
def R.CMP_ENG_OUT_KB (n : Nat) : Field := ⟨0x1400860 + 0x80 * n, 32, 0, .w1cAll, .any⟩
-- CMP_DEF_W0 (R331)
def R.CMP_DEF_SCO (t : Nat) : Field := ⟨0x140800d + 0x100 * t, 1, 0, .rw, .any⟩
def R.CMP_DEF_SHIFT (t : Nat) : Field := ⟨0x140800e + 0x100 * t, 4, 0, .rw, .clamp 0 8⟩
def R.CMP_DEF_DELTA (t : Nat) : Field := ⟨0x1408012 + 0x100 * t, 1, 0, .rw, .any⟩
def R.CMP_DEF_POINT_MAJOR (t : Nat) : Field := ⟨0x1408013 + 0x100 * t, 1, 0, .rw, .any⟩
def R.CMP_DEF_HALF16 (t : Nat) : Field := ⟨0x1408014 + 0x100 * t, 1, 0, .rw, .any⟩
def R.CMP_DEF_MEM (t : Nat) : Field := ⟨0x1408015 + 0x100 * t, 1, 0, .rw, .any⟩
def R.CMP_DEF_KIND (t : Nat) : Field := ⟨0x1408016 + 0x100 * t, 2, 0, .rw, .any⟩
def R.CMP_DEF_PROFILE (t : Nat) : Field := ⟨0x1408018 + 0x100 * t, 4, 0, .rw, .any⟩
def R.CMP_DEF_PORT (t : Nat) : Field := ⟨0x140801c + 0x100 * t, 2, 0, .rw, .any⟩
def R.CMP_DEF_SRC (t : Nat) : Field := ⟨0x140801e + 0x100 * t, 1, 0, .rw, .any⟩
def R.CMP_DEF_ACTIVE (t : Nat) : Field := ⟨0x140801f + 0x100 * t, 1, 0, .ro, .any⟩
-- CMP_DEF_W1 (R331)
def R.CMP_DEF_FIRST (t : Nat) : Field := ⟨0x1408020 + 0x100 * t, 19, 0, .rw, .any⟩
-- CMP_DEF_W2 (R331)
def R.CMP_DEF_COUNT (t : Nat) : Field := ⟨0x1408040 + 0x100 * t, 20, 0, .rw, .any⟩
-- CMP_DEF_W3 (R331)
def R.CMP_DEF_DEPTH (t : Nat) : Field := ⟨0x1408060 + 0x100 * t, 13, 0, .rw, .any⟩
def R.CMP_DEF_WIDTH (t : Nat) : Field := ⟨0x1408070 + 0x100 * t, 13, 0, .rw, .any⟩
-- CMP_DEF_W4 (R331)
def R.CMP_DEF_TIMEOUT (t : Nat) : Field := ⟨0x1408080 + 0x100 * t, 16, 100, .rw, .clamp 1 65535⟩
-- CMP_DEF_W5 (R331)
def R.CMP_DEF_TILES (t : Nat) : Field := ⟨0x14080a0 + 0x100 * t, 32, 0, .ro, .any⟩
-- CMP_DEF_W6 (R331)
def R.CMP_DEF_SKIPPED (t : Nat) : Field := ⟨0x14080c0 + 0x100 * t, 16, 0, .w1cAll, .any⟩
def R.CMP_DEF_TRUNC (t : Nat) : Field := ⟨0x14080d0 + 0x100 * t, 16, 0, .w1cAll, .any⟩
-- CMP_STR_STAT (R331)
def R.CMP_STR_STAT_LEVEL (s : Nat) : Field := ⟨0x1410000 + 0x80 * s, 16, 0, .ro, .any⟩
def R.CMP_STR_STAT_OPEN (s : Nat) : Field := ⟨0x141001f + 0x80 * s, 1, 0, .ro, .any⟩
-- CMP_STR_SEQ (R331)
def R.CMP_STR_SEQ_SEQ (s : Nat) : Field := ⟨0x1410020 + 0x80 * s, 32, 0, .ro, .any⟩
-- CMP_STR_DISCARD (R331)
def R.CMP_STR_DISCARD_COUNT (s : Nat) : Field := ⟨0x1410040 + 0x80 * s, 32, 0, .w1cAll, .any⟩
-- CMP_STR_WAITS (R331)
def R.CMP_STR_WAITS_COUNT (s : Nat) : Field := ⟨0x1410060 + 0x80 * s, 32, 0, .w1cAll, .any⟩
-- MEM_CTRL (R352)
def R.MEM_CTRL_SR_IDLE : Field := ⟨0x1600010, 8, 100, .rw, .clamp 1 255⟩
def R.MEM_CTRL_TARGET : Field := ⟨0x1600018, 2, 0, .rw, .subst 3 0⟩
def R.MEM_CTRL_SR_EN : Field := ⟨0x160001d, 1, 0, .rw, .any⟩
def R.MEM_CTRL_SCRUB_EN : Field := ⟨0x160001e, 1, 1, .rw, .any⟩
def R.MEM_CTRL_RETRAIN : Field := ⟨0x160001f, 1, 0, .wo, .any⟩
-- MEM_STAT (R352)
def R.MEM_STAT_DEBT0 : Field := ⟨0x1600030, 4, 0, .ro, .any⟩
def R.MEM_STAT_DEBT1 : Field := ⟨0x1600034, 4, 0, .ro, .any⟩
def R.MEM_STAT_PANIC : Field := ⟨0x1600038, 2, 0, .ro, .any⟩
def R.MEM_STAT_HODS : Field := ⟨0x160003a, 1, 0, .ro, .any⟩
def R.MEM_STAT_OP : Field := ⟨0x160003b, 2, 0, .ro, .any⟩
def R.MEM_STAT_STATE : Field := ⟨0x160003d, 3, 0, .ro, .any⟩
-- MEM_EVENT (R352)
def R.MEM_EVENT_OUTAGE : Field := ⟨0x1600040, 1, 0, .w1c, .any⟩
def R.MEM_EVENT_TRAINED : Field := ⟨0x1600041, 1, 0, .w1c, .any⟩
def R.MEM_EVENT_DEFERRED : Field := ⟨0x1600042, 1, 0, .w1c, .any⟩
def R.MEM_EVENT_STEP_DOWN : Field := ⟨0x1600043, 1, 0, .w1c, .any⟩
def R.MEM_EVENT_DEGRADED : Field := ⟨0x1600044, 1, 0, .w1c, .any⟩
def R.MEM_EVENT_FORCED : Field := ⟨0x1600045, 1, 0, .w1c, .any⟩
def R.MEM_EVENT_CE : Field := ⟨0x1600046, 1, 0, .w1c, .any⟩
def R.MEM_EVENT_UE : Field := ⟨0x1600047, 1, 0, .w1c, .any⟩
def R.MEM_EVENT_RH : Field := ⟨0x1600048, 1, 0, .w1c, .any⟩
def R.MEM_EVENT_DRAM_HOT : Field := ⟨0x1600049, 1, 0, .w1c, .any⟩
def R.MEM_EVENT_CFG_REJECT : Field := ⟨0x160004a, 1, 0, .w1c, .any⟩
-- MEM_DRAM_CFG (R352)
def R.MEM_DRAM_CFG_DENSITY : Field := ⟨0x1600080, 2, 3, .rw, .any⟩
def R.MEM_DRAM_CFG_RANKS : Field := ⟨0x1600088, 1, 0, .rw, .any⟩
def R.MEM_DRAM_CFG_ECC_EN : Field := ⟨0x160009f, 1, 0, .rw, .any⟩
-- MEM_DRAM_STAT (R352)
def R.MEM_DRAM_STAT_CAP_MB : Field := ⟨0x16000a0, 15, 0, .ro, .any⟩
-- MEM_TRAIN (R352)
def R.MEM_TRAIN_DELTA : Field := ⟨0x16000d0, 8, 10, .rw, .clamp 1 255⟩
def R.MEM_TRAIN_DEFER_MAX : Field := ⟨0x16000d8, 8, 60, .rw, .clamp 1 255⟩
-- MEM_TRAIN_STAMP (R352)
def R.MEM_TRAIN_STAMP_STAMP : Field := ⟨0x1600100, 64, 0, .ro, .any⟩
-- MEM_TRAIN_TEMP (R352)
def R.MEM_TRAIN_TEMP_TEMP : Field := ⟨0x1600140, 32, 0, .ro, .any⟩
-- MEM_REF (R352)
def R.MEM_REF_TRFC : Field := ⟨0x1600180, 9, 0, .ro, .any⟩
def R.MEM_REF_MULT : Field := ⟨0x160018d, 3, 2, .ro, .any⟩
def R.MEM_REF_TREFI : Field := ⟨0x1600190, 16, 3906, .ro, .any⟩
-- MEM_REF_CNT (R352)
def R.MEM_REF_CNT_POSTPONED : Field := ⟨0x16001a0, 16, 0, .w1cAll, .any⟩
def R.MEM_REF_CNT_FORCED : Field := ⟨0x16001b0, 16, 0, .w1cAll, .any⟩
-- MEM_AGE (R352)
def R.MEM_AGE_PIPE : Field := ⟨0x16001c8, 8, 2, .rw, .clamp 1 255⟩
def R.MEM_AGE_BULK : Field := ⟨0x16001d0, 8, 20, .rw, .clamp 1 255⟩
def R.MEM_AGE_CTRL : Field := ⟨0x16001d8, 8, 50, .rw, .clamp 1 255⟩
-- MEM_RH (R352)
def R.MEM_RH_WINDOW : Field := ⟨0x16001e0, 8, 16, .rw, .clamp 1 255⟩
def R.MEM_RH_LIMIT : Field := ⟨0x16001f0, 16, 512, .rw, .clamp 1 65535⟩
-- MEM_RH_LOG (R352)
def R.MEM_RH_LOG_BANK : Field := ⟨0x1600216, 4, 0, .ro, .any⟩
def R.MEM_RH_LOG_RANK : Field := ⟨0x160021a, 1, 0, .ro, .any⟩
def R.MEM_RH_LOG_CHAN : Field := ⟨0x160021b, 1, 0, .ro, .any⟩
def R.MEM_RH_LOG_REQ : Field := ⟨0x160021c, 4, 15, .ro, .any⟩
-- MEM_RH_CNT (R352)
def R.MEM_RH_CNT_COUNT : Field := ⟨0x1600220, 32, 0, .w1cAll, .any⟩
-- MEM_ERR_CE (R352)
def R.MEM_ERR_CE_COUNT : Field := ⟨0x1600240, 32, 0, .w1cAll, .any⟩
-- MEM_ERR_UE (R352)
def R.MEM_ERR_UE_COUNT : Field := ⟨0x1600260, 32, 0, .w1cAll, .any⟩
-- MEM_ERR_ADDR (R352)
def R.MEM_ERR_ADDR_ADDR : Field := ⟨0x1600280, 64, 0, .ro, .any⟩
-- MEM_ERR_INFO (R352)
def R.MEM_ERR_INFO_REQ : Field := ⟨0x16002d8, 4, 15, .ro, .any⟩
def R.MEM_ERR_INFO_MEM : Field := ⟨0x16002dc, 4, 0, .ro, .any⟩
-- MEM_FQ (R352)
def R.MEM_FQ_LEVEL (n : Nat) : Field := ⟨0x1600800 + 0x20 * n, 25, 0, .ro, .any⟩
def R.MEM_FQ_DRAM (n : Nat) : Field := ⟨0x160081f + 0x20 * n, 1, 0, .ro, .any⟩
-- SCO_CTRL (R371)
def R.SCO_CTRL_TCOMMIT : Field := ⟨0x180001e, 1, 0, .wo, .any⟩
def R.SCO_CTRL_COMMIT : Field := ⟨0x180001f, 1, 0, .wo, .any⟩
-- SCO_STAT (R371)
def R.SCO_STAT_WR_LINE : Field := ⟨0x1800020, 13, 0, .ro, .any⟩
def R.SCO_STAT_LINE : Field := ⟨0x180002d, 13, 0, .ro, .any⟩
def R.SCO_STAT_PANIC : Field := ⟨0x180003a, 1, 0, .ro, .any⟩
def R.SCO_STAT_BLACK : Field := ⟨0x180003b, 1, 0, .ro, .any⟩
def R.SCO_STAT_TPENDING : Field := ⟨0x180003c, 1, 0, .ro, .any⟩
def R.SCO_STAT_PENDING : Field := ⟨0x180003d, 1, 0, .ro, .any⟩
def R.SCO_STAT_STATE : Field := ⟨0x180003e, 2, 0, .ro, .any⟩
-- SCO_EVENT (R371)
def R.SCO_EVENT_CFG_REJECT : Field := ⟨0x1800040, 1, 0, .w1c, .any⟩
def R.SCO_EVENT_LATCHED : Field := ⟨0x1800041, 1, 0, .w1c, .any⟩
def R.SCO_EVENT_UNDERRUN : Field := ⟨0x1800042, 1, 0, .w1c, .any⟩
def R.SCO_EVENT_TILE_DROP : Field := ⟨0x1800043, 1, 0, .w1c, .any⟩
def R.SCO_EVENT_TE_MISS : Field := ⟨0x1800044, 1, 0, .w1c, .any⟩
def R.SCO_EVENT_FAIL : Field := ⟨0x1800045, 1, 0, .w1c, .any⟩
-- SCO_FB_BASE (R371)
def R.SCO_FB_BASE_ADDR : Field := ⟨0x1800080, 34, 0, .rw, .any⟩
-- SCO_FB_GEOM (R371)
def R.SCO_FB_GEOM_FB_LINES : Field := ⟨0x18000c0, 13, 0, .rw, .any⟩
def R.SCO_FB_GEOM_STRIDE : Field := ⟨0x18000d0, 16, 0, .rw, .any⟩
-- SCO_FB_TOP (R371)
def R.SCO_FB_TOP_TOP : Field := ⟨0x18000e0, 13, 0, .rw, .any⟩
-- SCO_PIX (R371)
def R.SCO_PIX_FLAG_MASK : Field := ⟨0x1800112, 6, 32, .rw, .any⟩
def R.SCO_PIX_SHIFT : Field := ⟨0x1800118, 5, 0, .rw, .clamp 0 23⟩
def R.SCO_PIX_MAG : Field := ⟨0x180011d, 1, 1, .rw, .any⟩
def R.SCO_PIX_FORMAT : Field := ⟨0x180011e, 2, 2, .rw, .subst 3 2⟩
-- SCO_MAP (R371)
def R.SCO_MAP_YDIV : Field := ⟨0x1800128, 8, 1, .rw, .clamp 1 255⟩
def R.SCO_MAP_XDIV : Field := ⟨0x1800130, 9, 1, .rw, .clamp 1 511⟩
def R.SCO_MAP_MARK_GAP : Field := ⟨0x1800139, 1, 1, .rw, .any⟩
def R.SCO_MAP_AUTO_TOP : Field := ⟨0x180013a, 1, 1, .rw, .any⟩
def R.SCO_MAP_DEF : Field := ⟨0x180013b, 5, 0, .rw, .any⟩
-- SCO_XFIRST (R371)
def R.SCO_XFIRST_VALUE : Field := ⟨0x1800140, 32, 0, .rw, .any⟩
-- SCO_OFFSET (R371)
def R.SCO_OFFSET_VALUE : Field := ⟨0x1800160, 32, 0, .rw, .any⟩
-- SCO_COL_FLAG (R371)
def R.SCO_COL_FLAG_RGB : Field := ⟨0x1800180, 24, 16711935, .rw, .any⟩
-- SCO_COL_GAP (R371)
def R.SCO_COL_GAP_RGB : Field := ⟨0x18001a0, 24, 16777215, .rw, .any⟩
-- SCO_COL_UNDER (R371)
def R.SCO_COL_UNDER_RGB : Field := ⟨0x18001c0, 24, 0, .rw, .any⟩
-- SCO_LB (R371)
def R.SCO_LB_URGENT : Field := ⟨0x18001e0, 16, 8192, .rw, .any⟩
def R.SCO_LB_CALM : Field := ⟨0x18001f0, 16, 24576, .rw, .any⟩
-- SCO_HTIM0 (R371)
def R.SCO_HTIM0_HFP : Field := ⟨0x1800200, 12, 0, .rw, .any⟩
def R.SCO_HTIM0_HACT : Field := ⟨0x1800210, 13, 0, .rw, .any⟩
-- SCO_VTIM0 (R371)
def R.SCO_VTIM0_VFP : Field := ⟨0x1800240, 12, 0, .rw, .any⟩
def R.SCO_VTIM0_VACT : Field := ⟨0x1800250, 13, 0, .rw, .any⟩
-- SCO_HTIM1 (R371)
def R.SCO_HTIM1_HBP : Field := ⟨0x1800220, 12, 0, .rw, .any⟩
def R.SCO_HTIM1_HSYNC : Field := ⟨0x1800230, 12, 0, .rw, .any⟩
-- SCO_VTIM1 (R371)
def R.SCO_VTIM1_VBP : Field := ⟨0x1800260, 12, 0, .rw, .any⟩
def R.SCO_VTIM1_VSYNC : Field := ⟨0x1800270, 12, 0, .rw, .any⟩
-- SCO_TCFG (R371)
def R.SCO_TCFG_TE_DELAY : Field := ⟨0x1800280, 12, 0, .rw, .any⟩
def R.SCO_TCFG_TE_TIMEOUT : Field := ⟨0x1800290, 8, 50, .rw, .any⟩
def R.SCO_TCFG_TEPOL : Field := ⟨0x180029b, 1, 0, .rw, .any⟩
def R.SCO_TCFG_CLKPOL : Field := ⟨0x180029c, 1, 0, .rw, .any⟩
def R.SCO_TCFG_VPOL : Field := ⟨0x180029d, 1, 0, .rw, .any⟩
def R.SCO_TCFG_HPOL : Field := ⟨0x180029e, 1, 0, .rw, .any⟩
def R.SCO_TCFG_CMD : Field := ⟨0x180029f, 1, 0, .rw, .any⟩
-- SCO_PCLK (R371)
def R.SCO_PCLK_FRAC : Field := ⟨0x18002a0, 24, 0, .rw, .any⟩
-- SCO_UNDERRUN (R371)
def R.SCO_UNDERRUN_COUNT : Field := ⟨0x18002c0, 32, 0, .w1cAll, .any⟩
-- SCO_TILEDROP (R371)
def R.SCO_TILEDROP_COUNT : Field := ⟨0x18002e0, 32, 0, .w1cAll, .any⟩
-- SCO_TE_CNT (R371)
def R.SCO_TE_CNT_MISS : Field := ⟨0x1800300, 16, 0, .w1cAll, .any⟩
def R.SCO_TE_CNT_EARLY : Field := ⟨0x1800310, 16, 0, .w1cAll, .any⟩
-- SCO_LUT (R371)
def R.SCO_LUT_RGB (i : Nat) : Field := ⟨0x1802000 + 0x20 * i, 24, 0, .rw, .any⟩
-- HIF_STAT (R394)
def R.HIF_STAT_LINK_UP : Field := ⟨0x1a00000, 1, 0, .ro, .any⟩
def R.HIF_STAT_SPEED : Field := ⟨0x1a00001, 3, 0, .ro, .any⟩
def R.HIF_STAT_WIDTH : Field := ⟨0x1a00004, 2, 0, .ro, .any⟩
def R.HIF_STAT_D3HOT : Field := ⟨0x1a00006, 1, 0, .ro, .any⟩
def R.HIF_STAT_ETH0_UP : Field := ⟨0x1a00010, 1, 0, .ro, .any⟩
def R.HIF_STAT_ETH1_UP : Field := ⟨0x1a00011, 1, 0, .ro, .any⟩
-- HIF_EVENT (R394)
def R.HIF_EVENT_PCIE_LINK : Field := ⟨0x1a00020, 1, 0, .w1c, .any⟩
def R.HIF_EVENT_ETH0_LINK : Field := ⟨0x1a00021, 1, 0, .w1c, .any⟩
def R.HIF_EVENT_ETH1_LINK : Field := ⟨0x1a00022, 1, 0, .w1c, .any⟩
def R.HIF_EVENT_FLR : Field := ⟨0x1a00023, 1, 0, .w1c, .any⟩
def R.HIF_EVENT_CQ_FULL : Field := ⟨0x1a00024, 1, 0, .w1c, .any⟩
def R.HIF_EVENT_DESC_ERR : Field := ⟨0x1a00025, 1, 0, .w1c, .any⟩
def R.HIF_EVENT_DMA_ERR : Field := ⟨0x1a00026, 1, 0, .w1c, .any⟩
def R.HIF_EVENT_ETH_CMD_ERR : Field := ⟨0x1a00027, 1, 0, .w1c, .any⟩
def R.HIF_EVENT_SPI_OVF : Field := ⟨0x1a00028, 1, 0, .w1c, .any⟩
def R.HIF_EVENT_CFG_REJECT : Field := ⟨0x1a00029, 1, 0, .w1c, .any⟩
-- HIF_SQ_BASE (R394)
def R.HIF_SQ_BASE_ADDR : Field := ⟨0x1a0008c, 52, 0, .rw, .any⟩
-- HIF_CQ_BASE (R394)
def R.HIF_CQ_BASE_ADDR : Field := ⟨0x1a0014c, 52, 0, .rw, .any⟩
-- HIF_SQ_CFG (R394)
def R.HIF_SQ_CFG_SIZE : Field := ⟨0x1a000c0, 4, 0, .rw, .clamp 0 8⟩
def R.HIF_SQ_CFG_CRC_EN : Field := ⟨0x1a000de, 1, 0, .rw, .any⟩
def R.HIF_SQ_CFG_EN : Field := ⟨0x1a000df, 1, 0, .rw, .any⟩
-- HIF_CQ_CFG (R394)
def R.HIF_CQ_CFG_SIZE : Field := ⟨0x1a00180, 4, 0, .rw, .clamp 0 8⟩
def R.HIF_CQ_CFG_COAL_CNT : Field := ⟨0x1a00188, 8, 0, .rw, .any⟩
def R.HIF_CQ_CFG_COAL_US : Field := ⟨0x1a00190, 8, 0, .rw, .any⟩
def R.HIF_CQ_CFG_EN : Field := ⟨0x1a0019f, 1, 0, .rw, .any⟩
-- HIF_SQ_TAIL (R394)
def R.HIF_SQ_TAIL_INDEX : Field := ⟨0x1a000e0, 12, 0, .rw, .any⟩
-- HIF_SQ_HEAD (R394)
def R.HIF_SQ_HEAD_INDEX : Field := ⟨0x1a00100, 12, 0, .ro, .any⟩
-- HIF_CQ_HEAD (R394)
def R.HIF_CQ_HEAD_INDEX : Field := ⟨0x1a001a0, 12, 0, .rw, .any⟩
-- HIF_CQ_TAIL (R394)
def R.HIF_CQ_TAIL_INDEX : Field := ⟨0x1a001c0, 12, 0, .ro, .any⟩
-- HIF_CQ_LOST (R394)
def R.HIF_CQ_LOST_COUNT : Field := ⟨0x1a001e0, 32, 0, .w1cAll, .any⟩
-- HIF_STR_BASE (R394)
def R.HIF_STR_BASE_VALUE (s : Nat) : Field := ⟨0x1a00800 + 0x100 * s, 64, 0, .rw, .any⟩
-- HIF_STR_WADDR (R394)
def R.HIF_STR_WADDR_VALUE (s : Nat) : Field := ⟨0x1a00840 + 0x100 * s, 64, 0, .rw, .any⟩
-- HIF_STR_RD (R394)
def R.HIF_STR_RD_VALUE (s : Nat) : Field := ⟨0x1a00880 + 0x100 * s, 64, 0, .rw, .any⟩
-- HIF_STR_CFG (R394)
def R.HIF_STR_CFG_SIZE (s : Nat) : Field := ⟨0x1a008c0 + 0x100 * s, 5, 16, .rw, .clamp 16 30⟩
def R.HIF_STR_CFG_COAL_US (s : Nat) : Field := ⟨0x1a008d8 + 0x100 * s, 8, 0, .rw, .any⟩
-- HIF_ETH_CFG (R394)
def R.HIF_ETH_CFG_MTU (m : Nat) : Field := ⟨0x1a08000 + 0x2000 * m, 14, 1500, .rw, .clamp 1500 9000⟩
def R.HIF_ETH_CFG_PAUSE_EN (m : Nat) : Field := ⟨0x1a0801b + 0x2000 * m, 1, 0, .rw, .any⟩
def R.HIF_ETH_CFG_FEC (m : Nat) : Field := ⟨0x1a0801c + 0x2000 * m, 2, 0, .rw, .subst 3 0⟩
def R.HIF_ETH_CFG_SPEED (m : Nat) : Field := ⟨0x1a0801e + 0x2000 * m, 1, 1, .rw, .any⟩
def R.HIF_ETH_CFG_EN (m : Nat) : Field := ⟨0x1a0801f + 0x2000 * m, 1, 0, .rw, .any⟩
-- HIF_ETH_RATE (R394)
def R.HIF_ETH_RATE_LIMIT (m : Nat) : Field := ⟨0x1a08020 + 0x2000 * m, 16, 0, .rw, .any⟩
-- HIF_ETH_MAC (R394)
def R.HIF_ETH_MAC_ADDR (m : Nat) : Field := ⟨0x1a08040 + 0x2000 * m, 48, 0, .rw, .any⟩
-- HIF_ETH_RXOK (R394)
def R.HIF_ETH_RXOK_COUNT (m : Nat) : Field := ⟨0x1a08080 + 0x2000 * m, 32, 0, .w1cAll, .any⟩
-- HIF_ETH_RXBAD (R394)
def R.HIF_ETH_RXBAD_COUNT (m : Nat) : Field := ⟨0x1a080a0 + 0x2000 * m, 32, 0, .w1cAll, .any⟩
-- HIF_ETH_TXOK (R394)
def R.HIF_ETH_TXOK_COUNT (m : Nat) : Field := ⟨0x1a080c0 + 0x2000 * m, 32, 0, .w1cAll, .any⟩
-- HIF_ETH_CMDBAD (R394)
def R.HIF_ETH_CMDBAD_COUNT (m : Nat) : Field := ⟨0x1a080e0 + 0x2000 * m, 32, 0, .w1cAll, .any⟩
-- HIF_ETH_DISCARD (R394)
def R.HIF_ETH_DISCARD_COUNT (m : Nat) : Field := ⟨0x1a08100 + 0x2000 * m, 32, 0, .w1cAll, .any⟩
-- PWR_BUDGET (R450)
def R.PWR_BUDGET_BUDGET : Field := ⟨0x80000, 9, 256, .rw, .clamp 1 256⟩
-- PWR_STAT (R450)
def R.PWR_STAT_GRANTED : Field := ⟨0x80020, 9, 16, .ro, .any⟩
def R.PWR_STAT_QUEUED : Field := ⟨0x80035, 6, 0, .ro, .any⟩
def R.PWR_STAT_HOT : Field := ⟨0x8003b, 1, 0, .ro, .any⟩
def R.PWR_STAT_BUSY : Field := ⟨0x8003c, 1, 0, .ro, .any⟩
def R.PWR_STAT_MODE : Field := ⟨0x8003d, 3, 4, .ro, .any⟩
-- PWR_EVENT (R450)
def R.PWR_EVENT_GRANT : Field := ⟨0x80040, 1, 0, .w1c, .any⟩
def R.PWR_EVENT_TIMEOUT : Field := ⟨0x80041, 1, 0, .w1c, .any⟩
def R.PWR_EVENT_MODE_DONE : Field := ⟨0x80042, 1, 0, .w1c, .any⟩
def R.PWR_EVENT_HOT : Field := ⟨0x80043, 1, 0, .w1c, .any⟩
def R.PWR_EVENT_WAKE : Field := ⟨0x80044, 1, 0, .w1c, .any⟩
def R.PWR_EVENT_WATCH_RETURN : Field := ⟨0x80045, 1, 0, .w1c, .any⟩
def R.PWR_EVENT_CFG_REJECT : Field := ⟨0x80046, 1, 0, .w1c, .any⟩
-- PWR_DOMAIN (R450)
def R.PWR_DOMAIN_ON : Field := ⟨0x80060, 17, 0, .ro, .any⟩
-- PWR_WATCH (R450)
def R.PWR_WATCH_HOLD : Field := ⟨0x80080, 16, 30, .rw, .clamp 1 65535⟩
-- PWR_TLIM (R450)
def R.PWR_TLIM_HOT : Field := ⟨0x800a0, 8, 105, .rw, .clamp 60 110⟩
-- PWR_CLK (R450)
def R.PWR_CLK_PORT_IDLE : Field := ⟨0x800c0, 16, 10, .rw, .clamp 1 65535⟩
def R.PWR_CLK_CSY_IDLE : Field := ⟨0x800d0, 16, 60, .rw, .clamp 1 65535⟩
-- MGT_STAT (R451)
def R.MGT_STAT_SVN_CTR : Field := ⟨0x100000, 6, 0, .ro, .any⟩
def R.MGT_STAT_IMAGE : Field := ⟨0x100008, 1, 0, .ro, .any⟩
def R.MGT_STAT_FW_MINOR : Field := ⟨0x100010, 8, 0, .ro, .any⟩
def R.MGT_STAT_FW_MAJOR : Field := ⟨0x100018, 8, 3, .ro, .any⟩
-- MGT_EVENT (R451)
def R.MGT_EVENT_LOG_NEW : Field := ⟨0x100021, 1, 0, .w1c, .any⟩
def R.MGT_EVENT_LOG_ERR : Field := ⟨0x100022, 1, 0, .w1c, .any⟩
def R.MGT_EVENT_SENSOR : Field := ⟨0x100023, 1, 0, .w1c, .any⟩
def R.MGT_EVENT_CAL_PASS : Field := ⟨0x100024, 1, 0, .w1c, .any⟩
def R.MGT_EVENT_CAL_FAIL : Field := ⟨0x100025, 1, 0, .w1c, .any⟩
def R.MGT_EVENT_UPDATE : Field := ⟨0x100026, 1, 0, .w1c, .any⟩
def R.MGT_EVENT_SVN : Field := ⟨0x100027, 1, 0, .w1c, .any⟩
-- MGT_TJ (R451)
def R.MGT_TJ_TJ : Field := ⟨0x100040, 32, 0, .ro, .any⟩
-- MGT_LOG_SEQ (R451)
def R.MGT_LOG_SEQ_SEQ : Field := ⟨0x100060, 32, 0, .ro, .any⟩
-- MGT_CAL_CFG (R451)
def R.MGT_CAL_CFG_DELTA : Field := ⟨0x100080, 8, 5, .rw, .clamp 1 50⟩
def R.MGT_CAL_CFG_AUTO : Field := ⟨0x10009f, 1, 1, .rw, .any⟩
-- MGT_CAL_WATCH (R451)
def R.MGT_CAL_WATCH_CHAN0 : Field := ⟨0x1000a0, 4, 0, .rw, .any⟩
def R.MGT_CAL_WATCH_EN0 : Field := ⟨0x1000a7, 1, 0, .rw, .any⟩
def R.MGT_CAL_WATCH_CHAN1 : Field := ⟨0x1000a8, 4, 0, .rw, .any⟩
def R.MGT_CAL_WATCH_EN1 : Field := ⟨0x1000af, 1, 0, .rw, .any⟩
def R.MGT_CAL_WATCH_CHAN2 : Field := ⟨0x1000b0, 4, 0, .rw, .any⟩
def R.MGT_CAL_WATCH_EN2 : Field := ⟨0x1000b7, 1, 0, .rw, .any⟩
def R.MGT_CAL_WATCH_CHAN3 : Field := ⟨0x1000b8, 4, 0, .rw, .any⟩
def R.MGT_CAL_WATCH_EN3 : Field := ⟨0x1000bf, 1, 0, .rw, .any⟩
-- MGT_CAL_PEND (R451)
def R.MGT_CAL_PEND_PENDING : Field := ⟨0x1000c0, 9, 0, .ro, .any⟩
def R.MGT_CAL_PEND_BLOCKED : Field := ⟨0x1000d0, 9, 0, .ro, .any⟩
-- MGT_IMG (R451)
def R.MGT_IMG_SVN (s : Nat) : Field := ⟨0x100100 + 0x20 * s, 6, 0, .ro, .any⟩
def R.MGT_IMG_PREFERRED (s : Nat) : Field := ⟨0x10011e + 0x20 * s, 1, 0, .ro, .any⟩
def R.MGT_IMG_VERIFIED (s : Nat) : Field := ⟨0x10011f + 0x20 * s, 1, 0, .ro, .any⟩
-- MGT_IMG_VER (R451)
def R.MGT_IMG_VER_VERSION (s : Nat) : Field := ⟨0x100140 + 0x20 * s, 32, 0, .ro, .any⟩
-- SYS_BOOT (R467)
def R.SYS_BOOT_BOOTS : Field := ⟨0x1000, 16, 0, .ro, .any⟩
def R.SYS_BOOT_FALLBACK : Field := ⟨0x1014, 1, 0, .ro, .any⟩
def R.SYS_BOOT_SLOT : Field := ⟨0x1015, 1, 0, .ro, .any⟩
def R.SYS_BOOT_FAILS : Field := ⟨0x1016, 2, 0, .ro, .any⟩
def R.SYS_BOOT_FOOT_REASON : Field := ⟨0x1018, 4, 0, .ro, .any⟩
def R.SYS_BOOT_LAST_REASON : Field := ⟨0x101c, 4, 0, .ro, .any⟩
-- SYS_RST_CTRL (R467)
def R.SYS_RST_CTRL_RESET : Field := ⟨0x1020, 1, 0, .wo, .any⟩
def R.SYS_RST_CTRL_FOOT : Field := ⟨0x1021, 1, 0, .wo, .any⟩
def R.SYS_RST_CTRL_KEY : Field := ⟨0x1030, 16, 0, .wo, .any⟩
-- SYS_BOOT_TIME (R467)
def R.SYS_BOOT_TIME_US : Field := ⟨0x1040, 32, 0, .ro, .any⟩
-- ARY_CTRL (R487)
def R.ARY_CTRL_ETH : Field := ⟨0x1c00000, 1, 0, .rw, .any⟩
def R.ARY_CTRL_EVE_FIRE : Field := ⟨0x1c00001, 1, 0, .rw, .any⟩
def R.ARY_CTRL_USE_ONSET : Field := ⟨0x1c00002, 1, 0, .rw, .any⟩
-- ARY_CFG (R487)
def R.ARY_CFG_MERGE : Field := ⟨0x1c00020, 16, 100, .rw, .any⟩
def R.ARY_CFG_ORPHAN_TMO : Field := ⟨0x1c00030, 8, 60, .rw, .clamp 1 255⟩
def R.ARY_CFG_BEAT : Field := ⟨0x1c00038, 8, 10, .rw, .clamp 1 255⟩
-- ARY_ARRAY_NO (R487)
def R.ARY_ARRAY_NO_VALUE : Field := ⟨0x1c00040, 32, 0, .rw, .any⟩
-- ARY_LAG (R487)
def R.ARY_LAG_VALUE : Field := ⟨0x1c00060, 32, 2500000, .rw, .any⟩
-- ARY_STAT (R487)
def R.ARY_STAT_MEMBERS : Field := ⟨0x1c00080, 13, 0, .ro, .any⟩
def R.ARY_STAT_TIME : Field := ⟨0x1c00099, 1, 0, .ro, .any⟩
def R.ARY_STAT_TIME_OK : Field := ⟨0x1c0009a, 1, 0, .ro, .any⟩
def R.ARY_STAT_ARMED : Field := ⟨0x1c0009b, 1, 0, .ro, .any⟩
def R.ARY_STAT_MASTER : Field := ⟨0x1c0009c, 1, 0, .ro, .any⟩
def R.ARY_STAT_STATE : Field := ⟨0x1c0009d, 3, 0, .ro, .any⟩
-- ARY_EVENT (R487)
def R.ARY_EVENT_JOINED : Field := ⟨0x1c000a0, 1, 0, .w1c, .any⟩
def R.ARY_EVENT_LEFT : Field := ⟨0x1c000a1, 1, 0, .w1c, .any⟩
def R.ARY_EVENT_ORPHAN : Field := ⟨0x1c000a2, 1, 0, .w1c, .any⟩
def R.ARY_EVENT_MEMBER_LOST : Field := ⟨0x1c000a3, 1, 0, .w1c, .any⟩
def R.ARY_EVENT_MEMBER_LAG : Field := ⟨0x1c000a4, 1, 0, .w1c, .any⟩
def R.ARY_EVENT_MEMBER_TIME : Field := ⟨0x1c000a5, 1, 0, .w1c, .any⟩
def R.ARY_EVENT_FIRE_HELD : Field := ⟨0x1c000a6, 1, 0, .w1c, .any⟩
def R.ARY_EVENT_CFG_REJECT : Field := ⟨0x1c000a7, 1, 0, .w1c, .any⟩
-- ARY_FIRES (R487)
def R.ARY_FIRES_RECEIVED : Field := ⟨0x1c000c0, 16, 0, .w1cAll, .any⟩
def R.ARY_FIRES_SENT : Field := ⟨0x1c000d0, 16, 0, .w1cAll, .any⟩
-- ARY_MERGED (R487)
def R.ARY_MERGED_COUNT : Field := ⟨0x1c000e0, 32, 0, .w1cAll, .any⟩
-- ARY_HELD (R487)
def R.ARY_HELD_COUNT : Field := ⟨0x1c00100, 32, 0, .w1cAll, .any⟩
-- ARY_LAT_MAX (R487)
def R.ARY_LAT_MAX_COUNT : Field := ⟨0x1c00120, 32, 0, .w1cAll, .any⟩
-- ARY_MEM (R487)
def R.ARY_MEM_LAT_MAX (i : Nat) : Field := ⟨0x1c80000 + 0x20 * i, 16, 0, .ro, .any⟩
def R.ARY_MEM_TQ (i : Nat) : Field := ⟨0x1c80019 + 0x20 * i, 3, 0, .ro, .any⟩
def R.ARY_MEM_ARMED (i : Nat) : Field := ⟨0x1c8001c + 0x20 * i, 1, 0, .ro, .any⟩
def R.ARY_MEM_STATE (i : Nat) : Field := ⟨0x1c8001d + 0x20 * i, 3, 0, .ro, .any⟩
-- PPE_STEP_W0 (R95)
def R.PPE_STEP_SLOT (n s : Nat) : Field := ⟨0x410000 + 0x20000 * n + 0x40 * s, 3, 0, .rw, .any⟩
def R.PPE_STEP_CHIRP (n s : Nat) : Field := ⟨0x410003 + 0x20000 * n + 0x40 * s, 3, 0, .rw, .any⟩
def R.PPE_STEP_RAMAN (n s : Nat) : Field := ⟨0x410006 + 0x20000 * n + 0x40 * s, 1, 0, .rw, .any⟩
def R.PPE_STEP_LAST (n s : Nat) : Field := ⟨0x410007 + 0x20000 * n + 0x40 * s, 1, 0, .rw, .any⟩
def R.PPE_STEP_DELAY (n s : Nat) : Field := ⟨0x410008 + 0x20000 * n + 0x40 * s, 24, 0, .rw, .any⟩
-- PPE_STEP_W1 (R95)
def R.PPE_STEP_WIDTH (n s : Nat) : Field := ⟨0x410020 + 0x20000 * n + 0x40 * s, 16, 0, .rw, .any⟩
def R.PPE_STEP_AMP (n s : Nat) : Field := ⟨0x410038 + 0x20000 * n + 0x40 * s, 8, 0, .rw, .any⟩
-- HIF_MSIX_W0 (R382)
def R.HIF_MSIX_ADDR_LO (v : Nat) : Field := ⟨0x1a40000 + 0x80 * v, 32, 0, .rw, .any⟩
-- HIF_MSIX_W1 (R382)
def R.HIF_MSIX_ADDR_HI (v : Nat) : Field := ⟨0x1a40020 + 0x80 * v, 32, 0, .rw, .any⟩
-- HIF_MSIX_W2 (R382)
def R.HIF_MSIX_DATA (v : Nat) : Field := ⟨0x1a40040 + 0x80 * v, 32, 0, .rw, .any⟩
-- HIF_MSIX_W3 (R382)
def R.HIF_MSIX_MASK (v : Nat) : Field := ⟨0x1a40060 + 0x80 * v, 1, 1, .rw, .any⟩
-- HIF_PBA (R382)
def R.HIF_PBA_PENDING (w : Nat) : Field := ⟨0x1a48000 + 0x20 * w, 32, 0, .ro, .any⟩
-- ACQ_CH_DIR (R311)
def R.ACQ_CH_DIR_WORD (k j w : Nat) : Field := ⟨0x1280000 + 0x20000 * k + 0x200 * j + 0x20 * w, 32, 0, .ro, .any⟩

end Sys2Proof.Machine
end

