-- ==== Sys2Proof/Machine/RegMap.lean ====
section
/-! DEFINITION. The register map: for each block window of R39 the registers it holds, with their offsets,
index strides and fields (R4, R5, R11, and the register tables of the chapters). -/

namespace Sys2Proof.Machine

/-- The registers of the SYS window (base 0x0). -/
def RegMap.sys : List Reg := [
  ⟨"SYS_ID", 0x0, [], false, false, [R.SYS_ID_REV_MINOR, R.SYS_ID_REV_MAJOR, R.SYS_ID_DEVICE]⟩,
  ⟨"SYS_GSTAT", 0x4, [], false, false, [R.SYS_GSTAT_PLL_S_LOCK, R.SYS_GSTAT_PLL_C_LOCK, R.SYS_GSTAT_PLL_M_LOCK, R.SYS_GSTAT_CSY0_LOCK, R.SYS_GSTAT_CSY1_LOCK, R.SYS_GSTAT_ILK_CLEAR, R.SYS_GSTAT_DRAM_DEGRADED, R.SYS_GSTAT_PORT_RUN, R.SYS_GSTAT_PORT_WATCH, R.SYS_GSTAT_MODE, R.SYS_GSTAT_PD_ACCESS, R.SYS_GSTAT_BAR2_DENIED, R.SYS_GSTAT_BAR2_RANGE, R.SYS_GSTAT_BAD_ACCESS]⟩,
  ⟨"SYS_BAR2_PAGE0", 0x100, [], false, false, [R.SYS_BAR2_PAGE_PAGE 0]⟩,
  ⟨"SYS_BAR2_PAGE1", 0x104, [], false, false, [R.SYS_BAR2_PAGE_PAGE 1]⟩,
  ⟨"SYS_BAR2_PAGE2", 0x108, [], false, false, [R.SYS_BAR2_PAGE_PAGE 2]⟩,
  ⟨"SYS_BAR2_PAGE3", 0x10c, [], false, false, [R.SYS_BAR2_PAGE_PAGE 3]⟩,
  ⟨"SYS_BAR2_PAGE4", 0x110, [], false, false, [R.SYS_BAR2_PAGE_PAGE 4]⟩,
  ⟨"SYS_BAR2_PAGE5", 0x114, [], false, false, [R.SYS_BAR2_PAGE_PAGE 5]⟩,
  ⟨"SYS_BAR2_PAGE6", 0x118, [], false, false, [R.SYS_BAR2_PAGE_PAGE 6]⟩,
  ⟨"SYS_BAR2_PAGE7", 0x11c, [], false, false, [R.SYS_BAR2_PAGE_PAGE 7]⟩,
  ⟨"SYS_BOOT", 0x200, [], false, false, [R.SYS_BOOT_BOOTS, R.SYS_BOOT_FALLBACK, R.SYS_BOOT_SLOT, R.SYS_BOOT_FAILS, R.SYS_BOOT_FOOT_REASON, R.SYS_BOOT_LAST_REASON]⟩,
  ⟨"SYS_RST_CTRL", 0x204, [], false, false, [R.SYS_RST_CTRL_RESET, R.SYS_RST_CTRL_FOOT, R.SYS_RST_CTRL_KEY]⟩,
  ⟨"SYS_BOOT_TIME", 0x208, [], false, false, [R.SYS_BOOT_TIME_US]⟩]

/-- The registers of the PWR window (base 0x10000). -/
def RegMap.pwr : List Reg := [
  ⟨"PWR_BUDGET", 0x10000, [], false, false, [R.PWR_BUDGET_BUDGET]⟩,
  ⟨"PWR_STAT", 0x10004, [], false, false, [R.PWR_STAT_GRANTED, R.PWR_STAT_QUEUED, R.PWR_STAT_HOT, R.PWR_STAT_BUSY, R.PWR_STAT_MODE]⟩,
  ⟨"PWR_EVENT", 0x10008, [], false, false, [R.PWR_EVENT_GRANT, R.PWR_EVENT_TIMEOUT, R.PWR_EVENT_MODE_DONE, R.PWR_EVENT_HOT, R.PWR_EVENT_WAKE, R.PWR_EVENT_WATCH_RETURN, R.PWR_EVENT_CFG_REJECT]⟩,
  ⟨"PWR_DOMAIN", 0x1000c, [], false, false, [R.PWR_DOMAIN_ON]⟩,
  ⟨"PWR_WATCH", 0x10010, [], false, false, [R.PWR_WATCH_HOLD]⟩,
  ⟨"PWR_TLIM", 0x10014, [], false, false, [R.PWR_TLIM_HOT]⟩,
  ⟨"PWR_CLK", 0x10018, [], false, false, [R.PWR_CLK_PORT_IDLE, R.PWR_CLK_CSY_IDLE]⟩]

/-- The registers of the MGT window (base 0x20000). -/
def RegMap.mgt : List Reg := [
  ⟨"MGT_STAT", 0x20000, [], false, false, [R.MGT_STAT_SVN_CTR, R.MGT_STAT_IMAGE, R.MGT_STAT_FW_MINOR, R.MGT_STAT_FW_MAJOR]⟩,
  ⟨"MGT_EVENT", 0x20004, [], false, false, [R.MGT_EVENT_LOG_NEW, R.MGT_EVENT_LOG_ERR, R.MGT_EVENT_SENSOR, R.MGT_EVENT_CAL_PASS, R.MGT_EVENT_CAL_FAIL, R.MGT_EVENT_UPDATE, R.MGT_EVENT_SVN]⟩,
  ⟨"MGT_TJ", 0x20008, [], false, false, [R.MGT_TJ_TJ]⟩,
  ⟨"MGT_LOG_SEQ", 0x2000c, [], false, false, [R.MGT_LOG_SEQ_SEQ]⟩,
  ⟨"MGT_CAL_CFG", 0x20010, [], false, false, [R.MGT_CAL_CFG_DELTA, R.MGT_CAL_CFG_AUTO]⟩,
  ⟨"MGT_CAL_WATCH", 0x20014, [], false, false, [R.MGT_CAL_WATCH_CHAN0, R.MGT_CAL_WATCH_EN0, R.MGT_CAL_WATCH_CHAN1, R.MGT_CAL_WATCH_EN1, R.MGT_CAL_WATCH_CHAN2, R.MGT_CAL_WATCH_EN2, R.MGT_CAL_WATCH_CHAN3, R.MGT_CAL_WATCH_EN3]⟩,
  ⟨"MGT_CAL_PEND", 0x20018, [], false, false, [R.MGT_CAL_PEND_PENDING, R.MGT_CAL_PEND_BLOCKED]⟩,
  ⟨"MGT_IMG", 0x20020, [(0x4, 2)], false, false, [R.MGT_IMG_SVN 0, R.MGT_IMG_PREFERRED 0, R.MGT_IMG_VERIFIED 0]⟩,
  ⟨"MGT_IMG_VER", 0x20028, [(0x4, 2)], false, false, [R.MGT_IMG_VER_VERSION 0]⟩]

/-- The registers of the SYN window (base 0x40000). -/
def RegMap.syn : List Reg := [
  ⟨"SYN_CTRL", 0x40000, [], false, false, [R.SYN_CTRL_EN, R.SYN_CTRL_REF_MODE, R.SYN_CTRL_HOLD_EN, R.SYN_CTRL_POLICY, R.SYN_CTRL_WAIT_RDY, R.SYN_CTRL_AUTO_RELOCK, R.SYN_CTRL_SLEW_RATE, R.SYN_CTRL_SLEW_LIMIT]⟩,
  ⟨"SYN_STAT", 0x40004, [], false, false, [R.SYN_STAT_LOCK, R.SYN_STAT_OCXO_RDY, R.SYN_STAT_REF_OK, R.SYN_STAT_HOLDOVER, R.SYN_STAT_SLEWING, R.SYN_STAT_CHK_OK, R.SYN_STAT_BAND_FAIL]⟩,
  ⟨"SYN_EVENT", 0x40008, [], false, false, [R.SYN_EVENT_LOCK_LOSS, R.SYN_EVENT_BAND_FAIL, R.SYN_EVENT_SLEW_DONE, R.SYN_EVENT_STEP_DONE, R.SYN_EVENT_REF_LOSS, R.SYN_EVENT_REF_RETURN, R.SYN_EVENT_CHK_FAIL, R.SYN_EVENT_CHIRP_CUT, R.SYN_EVENT_SLEW_FALLBACK, R.SYN_EVENT_SLOT_ERR, R.SYN_EVENT_SLOT_REJECT, R.SYN_EVENT_CFG_REJECT]⟩,
  ⟨"SYN_REFJUMP", 0x4000c, [], false, false, [R.SYN_REFJUMP_JUMP]⟩,
  ⟨"SYN_SLEW_REM", 0x40010, [], false, false, [R.SYN_SLEW_REM_REM]⟩,
  ⟨"SYN_HOLD_TIME", 0x40014, [], false, false, [R.SYN_HOLD_TIME_MS]⟩,
  ⟨"SYN_PHASE_EPOCH", 0x40018, [], true, false, [R.SYN_PHASE_EPOCH_EPOCH]⟩,
  ⟨"SYN_PLL_CFG0", 0x40100, [], false, false, [R.SYN_PLL_CFG_LOCK_N 0, R.SYN_PLL_CFG_LOCK_WIN 0, R.SYN_PLL_CFG_OP 0, R.SYN_PLL_CFG_SEARCH 0]⟩,
  ⟨"SYN_PLL_CFG1", 0x40120, [], false, false, [R.SYN_PLL_CFG_LOCK_N 1, R.SYN_PLL_CFG_LOCK_WIN 1, R.SYN_PLL_CFG_OP 1, R.SYN_PLL_CFG_SEARCH 1]⟩,
  ⟨"SYN_PLL_CFG2", 0x40140, [], false, false, [R.SYN_PLL_CFG_LOCK_N 2, R.SYN_PLL_CFG_LOCK_WIN 2, R.SYN_PLL_CFG_OP 2, R.SYN_PLL_CFG_SEARCH 2]⟩,
  ⟨"SYN_PLL_CFG3", 0x40160, [], false, false, [R.SYN_PLL_CFG_LOCK_N 3, R.SYN_PLL_CFG_LOCK_WIN 3, R.SYN_PLL_CFG_OP 3, R.SYN_PLL_CFG_SEARCH 3]⟩,
  ⟨"SYN_PLL_CFG4", 0x40180, [], false, false, [R.SYN_PLL_CFG_LOCK_N 4, R.SYN_PLL_CFG_LOCK_WIN 4, R.SYN_PLL_CFG_OP 4, R.SYN_PLL_CFG_SEARCH 4]⟩,
  ⟨"SYN_PLL_STAT", 0x40104, [(0x20, 5)], false, false, [R.SYN_PLL_STAT_PHASE_ERR 0, R.SYN_PLL_STAT_BAND_USED 0, R.SYN_PLL_STAT_SEARCH_BUSY 0]⟩,
  ⟨"SYN_BAND", 0x40200, [(0x10, 5), (0x4, 4)], false, false, [R.SYN_BAND_BAND 0 0, R.SYN_BAND_VALID 0 0]⟩,
  ⟨"SYN_CSY_CTRL", 0x41000, [(0x800, 2)], false, false, [R.SYN_CSY_CTRL_CHK_WIN 0, R.SYN_CSY_CTRL_COMMIT 0]⟩,
  ⟨"SYN_CSY_SKEW", 0x41004, [(0x800, 2)], false, false, [R.SYN_CSY_SKEW_SKEW0 0, R.SYN_CSY_SKEW_SKEW1 0]⟩,
  ⟨"SYN_CSY_SLOT", 0x41100, [(0x800, 2), (0x8, 8)], true, false, [R.SYN_CSY_SLOT_FTW 0 0, R.SYN_CSY_SLOT_PHASE 0 0, R.SYN_CSY_SLOT_EN 0 0]⟩,
  ⟨"SYN_CSY_CHIRP0", 0x41200, [(0x800, 2), (0x10, 8)], false, false, [R.SYN_CSY_CHIRP0_START 0 0]⟩,
  ⟨"SYN_CSY_CHIRP1", 0x41204, [(0x800, 2), (0x10, 8)], false, false, [R.SYN_CSY_CHIRP1_STOP 0 0]⟩,
  ⟨"SYN_CSY_CHIRP2", 0x41208, [(0x800, 2), (0x10, 8)], false, false, [R.SYN_CSY_CHIRP2_LENGTH 0 0, R.SYN_CSY_CHIRP2_SHAPE 0 0]⟩]

/-- The registers of the TBU and TDC window (base 0x50000). -/
def RegMap.tbu : List Reg := [
  ⟨"TBU_CTRL", 0x50000, [], false, false, [R.TBU_CTRL_USE_RDY, R.TBU_CTRL_PPS_IN_EDGE, R.TBU_CTRL_PPS_OUT_QUAL, R.TBU_CTRL_PPS_OUT_EN, R.TBU_CTRL_REFOUT_EN]⟩,
  ⟨"TBU_STAT", 0x50004, [], false, false, [R.TBU_STAT_TQ, R.TBU_STAT_ACT_ARMED, R.TBU_STAT_PPS_OK, R.TBU_STAT_EPOCH_SRC]⟩,
  ⟨"TBU_EVENT", 0x50008, [], false, false, [R.TBU_EVENT_STEP_DONE, R.TBU_EVENT_CFG_REJECT, R.TBU_EVENT_STEP_REJECT, R.TBU_EVENT_ADJ_REJECT, R.TBU_EVENT_PPS_RUNT, R.TBU_EVENT_PPS_MISS, R.TBU_EVENT_PPS_RETURN, R.TBU_EVENT_TQ_CHANGE, R.TBU_EVENT_TDC_STAT]⟩,
  ⟨"TBU_STAMP", 0x50010, [], true, false, [R.TBU_STAMP_COUNT]⟩,
  ⟨"TBU_EPOCH_SET", 0x50018, [], true, false, [R.TBU_EPOCH_SET_VALUE]⟩,
  ⟨"TBU_STEP", 0x50020, [], true, false, [R.TBU_STEP_DELTA]⟩,
  ⟨"TBU_EPOCH_CTRL", 0x50028, [], false, false, [R.TBU_EPOCH_CTRL_SRC, R.TBU_EPOCH_CTRL_DISARM, R.TBU_EPOCH_CTRL_ON_PPS, R.TBU_EPOCH_CTRL_ACTION]⟩,
  ⟨"TBU_LAST_STEP", 0x50030, [], true, false, [R.TBU_LAST_STEP_DELTA]⟩,
  ⟨"TBU_LAST_AT", 0x50038, [], true, false, [R.TBU_LAST_AT_STAMP]⟩,
  ⟨"TBU_ADJ", 0x50040, [], false, false, [R.TBU_ADJ_OFFSET]⟩,
  ⟨"TBU_PPS_IN", 0x50048, [], true, false, [R.TBU_PPS_IN_STAMP]⟩,
  ⟨"TBU_PPS_IN_FRAC", 0x50050, [], false, false, [R.TBU_PPS_IN_FRAC_FRAC]⟩,
  ⟨"TBU_PPS_ERR", 0x50054, [], false, false, [R.TBU_PPS_ERR_ERR]⟩,
  ⟨"TBU_PPS_OUT", 0x50058, [], false, false, [R.TBU_PPS_OUT_ADV, R.TBU_PPS_OUT_WIDTH]⟩,
  ⟨"TBU_PTP_LAT", 0x50060, [(0x4, 2)], false, false, [R.TBU_PTP_LAT_INGRESS 0, R.TBU_PTP_LAT_EGRESS 0]⟩,
  ⟨"TDC_CFG", 0x51000, [(0x100, 8)], false, false, [R.TDC_CFG_HOLDOFF 0, R.TDC_CFG_REF 0, R.TDC_CFG_HYST 0, R.TDC_CFG_EDGE 0, R.TDC_CFG_CLASS 0, R.TDC_CFG_EN 0]⟩,
  ⟨"TDC_WOPEN", 0x51004, [(0x100, 8)], false, false, [R.TDC_WOPEN_TICKS 0]⟩,
  ⟨"TDC_WCLOSE", 0x51008, [(0x100, 8)], false, false, [R.TDC_WCLOSE_TICKS 0]⟩,
  ⟨"TDC_TIMEOUT", 0x5100c, [(0x100, 8)], false, false, [R.TDC_TIMEOUT_TICKS 0]⟩,
  ⟨"TDC_STATCFG", 0x51010, [(0x100, 8)], false, false, [R.TDC_STATCFG_N 0, R.TDC_STATCFG_CLR 0]⟩,
  ⟨"TDC_SW", 0x51014, [(0x100, 8)], false, false, [R.TDC_SW_FIRE 0]⟩,
  ⟨"TDC_CNT0", 0x51018, [(0x100, 8)], false, false, [R.TDC_CNT0_LOST 0, R.TDC_CNT0_REJECT 0]⟩,
  ⟨"TDC_CNT1", 0x5101c, [(0x100, 8)], false, false, [R.TDC_CNT1_BUSY 0, R.TDC_CNT1_HELD 0]⟩,
  ⟨"TDC_FIFO0", 0x51020, [(0x100, 8)], false, false, [R.TDC_FIFO0_WORD 0]⟩,
  ⟨"TDC_FIFO1", 0x51024, [(0x100, 8)], false, false, [R.TDC_FIFO1_WORD 0]⟩,
  ⟨"TDC_FIFO2", 0x51028, [(0x100, 8)], false, false, [R.TDC_FIFO2_WORD 0]⟩,
  ⟨"TDC_FIFO3", 0x5102c, [(0x100, 8)], false, false, [R.TDC_FIFO3_WORD 0]⟩,
  ⟨"TDC_LEVEL", 0x51030, [(0x100, 8)], false, false, [R.TDC_LEVEL_LEVEL 0]⟩,
  ⟨"TDC_STATUS", 0x51034, [(0x100, 8)], false, false, [R.TDC_STATUS_STAT_READY 0, R.TDC_STATUS_STAT_OVR 0, R.TDC_STATUS_PENDING 0, R.TDC_STATUS_CFG_ERR 0]⟩,
  ⟨"TDC_MEAN", 0x51040, [(0x100, 8)], true, false, [R.TDC_MEAN_VALUE 0]⟩,
  ⟨"TDC_MIN", 0x51050, [(0x100, 8)], true, false, [R.TDC_MIN_VALUE 0]⟩,
  ⟨"TDC_MAX", 0x51058, [(0x100, 8)], true, false, [R.TDC_MAX_VALUE 0]⟩,
  ⟨"TDC_SDEV", 0x51048, [(0x100, 8)], false, false, [R.TDC_SDEV_SDEV 0]⟩,
  ⟨"TDC_NFLAG", 0x51060, [(0x100, 8)], false, false, [R.TDC_NFLAG_COUNT 0]⟩]

/-- The registers of the launch (LDR, PPE, RMD) window (base 0x80000). -/
def RegMap.ldr : List Reg := [
  ⟨"LDR_CTRL", 0x80000, [(0x4000, 4)], false, true, [R.LDR_CTRL_GATE_LIMIT 0, R.LDR_CTRL_OPEN_EN 0, R.LDR_CTRL_SHORT_EN 0]⟩,
  ⟨"LDR_BIAS", 0x80004, [(0x4000, 4)], false, false, [R.LDR_BIAS_CODE 0, R.LDR_BIAS_SLEW 0, R.LDR_BIAS_BUSY 0]⟩,
  ⟨"LDR_RM_CFG", 0x80008, [(0x4000, 4)], false, true, [R.LDR_RM_CFG_RM_WIDTH 0, R.LDR_RM_CFG_RM_DELAY 0]⟩,
  ⟨"LDR_NE_CFG", 0x8000c, [(0x4000, 4)], false, true, [R.LDR_NE_CFG_NE_END 0, R.LDR_NE_CFG_NE_START 0, R.LDR_NE_CFG_EN 0]⟩,
  ⟨"LDR_NE_THRESH", 0x80010, [(0x4000, 4)], false, true, [R.LDR_NE_THRESH_POWER 0]⟩,
  ⟨"LDR_NE_LAST", 0x80014, [(0x4000, 4)], false, false, [R.LDR_NE_LAST_POWER 0]⟩,
  ⟨"LDR_FAULT", 0x80018, [(0x4000, 4)], false, true, [R.LDR_FAULT_GATE_OPEN 0, R.LDR_FAULT_GATE_SHORT 0, R.LDR_FAULT_LOOP 0, R.LDR_FAULT_ROUTE 0, R.LDR_FAULT_FIBRE_BREAK 0, R.LDR_FAULT_OTHER 0]⟩,
  ⟨"LDR_GATE_SEEN", 0x8001c, [(0x4000, 4)], false, false, [R.LDR_GATE_SEEN_OPEN 0, R.LDR_GATE_SEEN_SHORT 0]⟩,
  ⟨"PPE_PAT", 0x81000, [(0x4000, 4)], false, true, [R.PPE_PAT_RUN_FIRST 0, R.PPE_PAT_WATCH_FIRST 0]⟩,
  ⟨"PPE_STAT", 0x81004, [(0x4000, 4)], false, false, [R.PPE_STAT_STATE 0, R.PPE_STAT_STEP 0]⟩,
  ⟨"PPE_LAUNCHES", 0x81008, [(0x4000, 4)], false, false, [R.PPE_LAUNCHES_COUNT 0]⟩,
  ⟨"PPE_SKIPS", 0x8100c, [(0x4000, 4)], false, false, [R.PPE_SKIPS_COUNT 0]⟩,
  ⟨"PPE_LAST_STAMP", 0x81010, [(0x4000, 4)], true, false, [R.PPE_LAST_STAMP_STAMP 0]⟩,
  ⟨"PPE_CHECK", 0x81018, [(0x4000, 4)], false, false, [R.PPE_CHECK_STEP 0, R.PPE_CHECK_CHECK 0, R.PPE_CHECK_STATUS 0]⟩,
  ⟨"PPE_EVENT", 0x8101c, [(0x4000, 4)], false, false, [R.PPE_EVENT_STORE_REJECT 0, R.PPE_EVENT_ROUTE_REJECT 0]⟩,
  ⟨"ROUTE_W0", 0x83000, [(0x4000, 4), (0x20, 16)], true, true, [R.ROUTE_ON 0 0]⟩,
  ⟨"ROUTE_W2", 0x83008, [(0x4000, 4), (0x20, 16)], true, true, [R.ROUTE_OFF 0 0]⟩,
  ⟨"ROUTE_W4", 0x83010, [(0x4000, 4), (0x20, 16)], false, true, [R.ROUTE_RTT 0 0, R.ROUTE_VALID 0 0]⟩,
  ⟨"ROUTE_W5", 0x83014, [(0x4000, 4), (0x20, 16)], false, true, [R.ROUTE_SETTLE 0 0]⟩,
  ⟨"ROUTE_W6", 0x83018, [(0x4000, 4), (0x20, 16)], false, true, []⟩,
  ⟨"ROUTE_W7", 0x8301c, [(0x4000, 4), (0x20, 16)], false, true, []⟩,
  ⟨"RMD_ROUTE_SEL", 0x83200, [(0x4000, 4)], false, true, [R.RMD_ROUTE_SEL_SEL 0]⟩,
  ⟨"RMD_ROUTE_STAT", 0x83204, [(0x4000, 4)], false, false, [R.RMD_ROUTE_STAT_ACTIVE 0, R.RMD_ROUTE_STAT_BUSY 0, R.RMD_ROUTE_STAT_VERIFIED 0, R.RMD_ROUTE_STAT_FAIL 0]⟩,
  ⟨"RMD_SCAN_CTRL", 0x90000, [], false, false, [R.RMD_SCAN_CTRL_PRECHG, R.RMD_SCAN_CTRL_ROW_SLOT, R.RMD_SCAN_CTRL_EN]⟩,
  ⟨"RMD_ILK_CTRL", 0x90004, [], false, false, [R.RMD_ILK_CTRL_ILK_QUAL, R.RMD_ILK_CTRL_ALLOW_UNVERIFIED, R.RMD_ILK_CTRL_CLEAR, R.RMD_ILK_CTRL_OUT_MODE, R.RMD_ILK_CTRL_SW_STOP, R.RMD_ILK_CTRL_INTERLOCK_ALL]⟩,
  ⟨"RMD_ILK_STAT", 0x90008, [], false, false, [R.RMD_ILK_STAT_LOOP, R.RMD_ILK_STAT_ILK_IN, R.RMD_ILK_STAT_ILK_OUT, R.RMD_ILK_STAT_FAULT]⟩,
  ⟨"RMD_ILK_EVENT", 0x9000c, [], false, false, [R.RMD_ILK_EVENT_TRIP, R.RMD_ILK_EVENT_LOOP_OPEN, R.RMD_ILK_EVENT_ELEM_CHANGE]⟩,
  ⟨"RMD_DIAG", 0x90010, [], false, false, [R.RMD_DIAG_OPEN_TH, R.RMD_DIAG_ILIM]⟩,
  ⟨"RMD_SCAN_COUNT", 0x90014, [], false, false, [R.RMD_SCAN_COUNT_COUNT]⟩,
  ⟨"RMD_ELEM", 0x90100, [(0x4, 64)], false, false, [R.RMD_ELEM_STATE 0, R.RMD_ELEM_ON_TIME 0, R.RMD_ELEM_DIAG_FORBID 0, R.RMD_ELEM_FORCE 0]⟩,
  ⟨"PPE_STEP_W0", 0x82000, [(0x4000, 4), (0x8, 512)], false, true, [R.PPE_STEP_SLOT 0 0, R.PPE_STEP_CHIRP 0 0, R.PPE_STEP_RAMAN 0 0, R.PPE_STEP_LAST 0 0, R.PPE_STEP_DELAY 0 0]⟩,
  ⟨"PPE_STEP_W1", 0x82004, [(0x4000, 4), (0x8, 512)], false, true, [R.PPE_STEP_WIDTH 0 0, R.PPE_STEP_AMP 0 0]⟩]

/-- The registers of the CDG window (base 0xC0000). -/
def RegMap.cdg : List Reg := [
  ⟨"CDG_CTRL", 0xc0000, [], false, false, [R.CDG_CTRL_QUIET_WIN, R.CDG_CTRL_QUIET_TH]⟩,
  ⟨"CDG_EVENT", 0xc0004, [], false, false, [R.CDG_EVENT_CLIP, R.CDG_EVENT_PRBS_ERR, R.CDG_EVENT_HARD_OVL, R.CDG_EVENT_CAL_FAIL, R.CDG_EVENT_CFG_REJECT]⟩,
  ⟨"CDG_PORT_STAT", 0xc1000, [(0x1000, 4)], false, false, [R.CDG_PORT_STAT_TEST 0, R.CDG_PORT_STAT_CAL_RESULT 0, R.CDG_PORT_STAT_CAL_STALE 0, R.CDG_PORT_STAT_FULL_RATE 0, R.CDG_PORT_STAT_QUIET 0, R.CDG_PORT_STAT_READY 0]⟩,
  ⟨"CDG_PORT_WARN", 0xc1004, [(0x1000, 4)], false, true, [R.CDG_PORT_WARN_WARN_TH 0]⟩,
  ⟨"CDG_PORT_CAL_STAMP", 0xc1008, [(0x1000, 4)], true, false, [R.CDG_PORT_CAL_STAMP_STAMP 0]⟩,
  ⟨"CDG_LANE_CFG", 0xc1100, [(0x1000, 4), (0x40, 4)], false, true, [R.CDG_LANE_CFG_FIXED 0 0, R.CDG_LANE_CFG_TEST 0 0, R.CDG_LANE_CFG_DLY 0 0, R.CDG_LANE_CFG_INVERT 0 0, R.CDG_LANE_CFG_TERM 0 0]⟩,
  ⟨"CDG_LANE_CLIP", 0xc1104, [(0x1000, 4), (0x40, 4)], false, false, [R.CDG_LANE_CLIP_COUNT 0 0]⟩,
  ⟨"CDG_LANE_WARNCNT", 0xc1108, [(0x1000, 4), (0x40, 4)], false, false, [R.CDG_LANE_WARNCNT_COUNT 0 0]⟩,
  ⟨"CDG_LANE_HOVL", 0xc110c, [(0x1000, 4), (0x40, 4)], false, false, [R.CDG_LANE_HOVL_COUNT 0 0]⟩,
  ⟨"CDG_LANE_RMS", 0xc1110, [(0x1000, 4), (0x40, 4)], false, false, [R.CDG_LANE_RMS_MEAN 0 0, R.CDG_LANE_RMS_RMS 0 0]⟩,
  ⟨"CDG_LANE_FIRST_CLIP", 0xc1118, [(0x1000, 4), (0x40, 4)], true, false, [R.CDG_LANE_FIRST_CLIP_STAMP 0 0]⟩,
  ⟨"CDG_LANE_PRBS_ERR", 0xc1120, [(0x1000, 4), (0x40, 4)], false, false, [R.CDG_LANE_PRBS_ERR_COUNT 0 0]⟩]

/-- The registers of the CPL window (base 0x100000). -/
def RegMap.cpl : List Reg := [
  ⟨"CPL_CTRL", 0x100000, [(0x10000, 4)], false, true, [R.CPL_CTRL_MF_WIN 0, R.CPL_CTRL_HOLD_MAX 0, R.CPL_CTRL_DZ 0, R.CPL_CTRL_GAUGE_DEF 0]⟩,
  ⟨"CPL_STAT", 0x100004, [(0x10000, 4)], false, false, [R.CPL_STAT_RELEASING 0, R.CPL_STAT_EPISODE 0, R.CPL_STAT_NEXT_SEQ 0, R.CPL_STAT_COMMIT_SEQ 0, R.CPL_STAT_RUNAHEAD 0]⟩,
  ⟨"CPL_EVENT", 0x100008, [(0x10000, 4)], false, false, [R.CPL_EVENT_ROLLBACK 0, R.CPL_EVENT_GAP 0, R.CPL_EVENT_SAT 0, R.CPL_EVENT_CFG_REJECT 0, R.CPL_EVENT_START_FAIL 0]⟩,
  ⟨"CPL_DELAY", 0x10000c, [(0x10000, 4)], false, false, [R.CPL_DELAY_D 0]⟩,
  ⟨"CPL_COURSES", 0x100010, [(0x10000, 4)], false, false, [R.CPL_COURSES_COUNT 0]⟩,
  ⟨"CPL_LOST", 0x100014, [(0x10000, 4)], false, false, [R.CPL_LOST_COUNT 0]⟩,
  ⟨"CPL_GAPS", 0x100020, [(0x10000, 4)], false, false, [R.CPL_GAPS_COUNT 0]⟩,
  ⟨"CPL_LAST_COMMIT", 0x100018, [(0x10000, 4)], true, false, [R.CPL_LAST_COMMIT_STAMP 0]⟩,
  ⟨"CPL_GAP_CAUSES", 0x100024, [(0x10000, 4)], false, false, [R.CPL_GAP_CAUSES_CAUSES 0]⟩,
  ⟨"CPL_GAP_FIRST", 0x100028, [(0x10000, 4)], true, false, [R.CPL_GAP_FIRST_STAMP 0]⟩,
  ⟨"CPL_GAP_LAST", 0x100030, [(0x10000, 4)], true, false, [R.CPL_GAP_LAST_STAMP 0]⟩,
  ⟨"CPL_FADED", 0x100038, [(0x10000, 4)], false, false, [R.CPL_FADED_COUNT 0]⟩,
  ⟨"CPL_SATCNT", 0x10003c, [(0x10000, 4)], false, false, [R.CPL_SATCNT_COUNT 0]⟩,
  ⟨"CPL_CHECK", 0x100040, [(0x10000, 4)], false, false, [R.CPL_CHECK_STEP 0, R.CPL_CHECK_CHECK 0, R.CPL_CHECK_STATUS 0]⟩,
  ⟨"CPL_LEN", 0x100100, [(0x10000, 4), (0x4, 16)], false, true, [R.CPL_LEN_LEN 0 0]⟩,
  ⟨"CPL_FADE_TH", 0x100200, [(0x10000, 4), (0x4, 64)], false, true, [R.CPL_FADE_TH_TH 0 0]⟩]

/-- The registers of the ZON window (base 0x140000). -/
def RegMap.zon : List Reg := [
  ⟨"ZON_ENTRY_W0", 0x140000, [(0x20, 4096)], false, false, [R.ZON_ENTRY_ROUTES 0, R.ZON_ENTRY_PIDX 0, R.ZON_ENTRY_BOX 0, R.ZON_ENTRY_PORT 0, R.ZON_ENTRY_PRIV 0, R.ZON_ENTRY_EN 0]⟩,
  ⟨"ZON_ENTRY_W1", 0x140004, [(0x20, 4096)], false, false, [R.ZON_ENTRY_START 0]⟩,
  ⟨"ZON_ENTRY_W2", 0x140008, [(0x20, 4096)], false, false, [R.ZON_ENTRY_COUNT 0, R.ZON_ENTRY_GAUGE 0]⟩,
  ⟨"ZON_ENTRY_W3", 0x14000c, [(0x20, 4096)], false, false, [R.ZON_ENTRY_INTERVAL 0, R.ZON_ENTRY_Z0 0]⟩,
  ⟨"ZON_ENTRY_W4", 0x140010, [(0x20, 4096)], false, false, [R.ZON_ENTRY_SCALE 0]⟩,
  ⟨"ZON_ENTRY_W5", 0x140014, [(0x20, 4096)], false, false, [R.ZON_ENTRY_POINT_BASE 0, R.ZON_ENTRY_UNIT 0]⟩,
  ⟨"ZON_ENTRY_W6", 0x140018, [(0x20, 4096)], false, false, [R.ZON_ENTRY_DET 0, R.ZON_ENTRY_FILT 0]⟩,
  ⟨"ZON_ENTRY_W7", 0x14001c, [(0x20, 4096)], false, false, [R.ZON_ENTRY_LABEL 0]⟩,
  ⟨"ZON_CTRL", 0x160000, [], false, false, [R.ZON_CTRL_DISCARD, R.ZON_CTRL_COMMIT]⟩,
  ⟨"ZON_STAT", 0x160004, [], false, false, [R.ZON_STAT_GEN, R.ZON_STAT_PRIV, R.ZON_STAT_BUSY]⟩,
  ⟨"ZON_EVENT", 0x160008, [], false, false, [R.ZON_EVENT_COMMIT_DONE, R.ZON_EVENT_COMMIT_FAIL, R.ZON_EVENT_WRITE_REJECT, R.ZON_EVENT_GAUGE_SHARED, R.ZON_EVENT_RATE_SAT]⟩,
  ⟨"ZON_CHECK", 0x16000c, [], false, false, [R.ZON_CHECK_ENTRY, R.ZON_CHECK_CHECK, R.ZON_CHECK_STATUS]⟩,
  ⟨"ZON_SATCNT", 0x160010, [], false, false, [R.ZON_SATCNT_COUNT]⟩,
  ⟨"ZON_PORT_NG", 0x160100, [(0x4, 4)], false, false, [R.ZON_PORT_NG_NG 0]⟩,
  ⟨"ZON_PORT_POINTS", 0x160110, [(0x4, 4)], false, false, [R.ZON_PORT_POINTS_P 0]⟩,
  ⟨"ZON_PORT_GEN", 0x160120, [(0x4, 4)], false, false, [R.ZON_PORT_GEN_GEN 0]⟩,
  ⟨"ZON_PORT_QMAX", 0x160130, [(0x4, 4)], false, false, [R.ZON_PORT_QMAX_LEVEL 0]⟩]

/-- The registers of the FDC and EVE window (base 0x180000). -/
def RegMap.fdc : List Reg := [
  ⟨"FDC_CTRL", 0x180000, [(0x8000, 4)], false, false, [R.FDC_CTRL_CONSUMERS 0, R.FDC_CTRL_BUDGET 0, R.FDC_CTRL_GAP_FILL 0, R.FDC_CTRL_SYNC 0]⟩,
  ⟨"FDC_STAT", 0x180004, [(0x8000, 4)], false, false, [R.FDC_STAT_USED 0, R.FDC_STAT_BYPASS 0, R.FDC_STAT_RUNNING 0]⟩,
  ⟨"FDC_EVENT", 0x180008, [(0x8000, 4)], false, false, [R.FDC_EVENT_START_FAIL 0, R.FDC_EVENT_CFG_REJECT 0, R.FDC_EVENT_GAP_RESET 0, R.FDC_EVENT_SAT 0, R.FDC_EVENT_DROP 0, R.FDC_EVENT_GEN_FAIL 0]⟩,
  ⟨"FDC_DROPS", 0x18000c, [(0x8000, 4)], false, false, [R.FDC_DROPS_COUNT 0]⟩,
  ⟨"FDC_SATCNT", 0x180010, [(0x8000, 4)], false, false, [R.FDC_SATCNT_COUNT 0]⟩,
  ⟨"FDC_CHECK", 0x180014, [(0x8000, 4)], false, false, [R.FDC_CHECK_PROFILE 0, R.FDC_CHECK_CHECK 0, R.FDC_CHECK_STATUS 0]⟩,
  ⟨"FDC_LOAD", 0x180018, [(0x8000, 4)], false, false, [R.FDC_LOAD_OPS 0, R.FDC_LOAD_BW 0]⟩,
  ⟨"FDC_HIST_SIZE", 0x18001c, [(0x8000, 4)], false, false, [R.FDC_HIST_SIZE_BYTES 0]⟩,
  ⟨"FDC_PROF_CFG0", 0x180100, [(0x8000, 4), (0x20, 16)], false, false, [R.FDC_PROF_CFG0_T2 0 0, R.FDC_PROF_CFG0_D2 0 0, R.FDC_PROF_CFG0_D1 0 0, R.FDC_PROF_CFG0_SH1 0 0, R.FDC_PROF_CFG0_RS_EN 0 0, R.FDC_PROF_CFG0_EN 0 0]⟩,
  ⟨"FDC_PROF_CFG1", 0x180104, [(0x8000, 4), (0x20, 16)], false, false, [R.FDC_PROF_CFG1_G1 0 0]⟩,
  ⟨"FDC_PROF_OUT", 0x180108, [(0x8000, 4), (0x20, 16)], false, false, [R.FDC_PROF_OUT_OUT_PERIOD 0 0]⟩,
  ⟨"FDC_PROF_GD", 0x18010c, [(0x8000, 4), (0x20, 16)], false, false, [R.FDC_PROF_GD_GD 0 0]⟩,
  ⟨"FDC_C2", 0x181000, [(0x8000, 4), (0x80, 16), (0x4, 32)], false, false, [R.FDC_C2_C_EVEN 0 0 0, R.FDC_C2_C_ODD 0 0 0]⟩,
  ⟨"FDC_RS", 0x182000, [(0x8000, 4), (0x400, 16), (0x4, 256)], false, false, [R.FDC_RS_H_EVEN 0 0 0, R.FDC_RS_H_ODD 0 0 0]⟩,
  ⟨"EVE_CTRL", 0x1a0000, [], false, false, [R.EVE_CTRL_RSTREAM, R.EVE_CTRL_WAKE_EN]⟩,
  ⟨"EVE_STAT", 0x1a0004, [], false, false, [R.EVE_STAT_ALARMS]⟩,
  ⟨"EVE_EVENT", 0x1a0008, [], false, false, [R.EVE_EVENT_CFG_REJECT, R.EVE_EVENT_RAISE, R.EVE_EVENT_CLEAR, R.EVE_EVENT_WAKE]⟩,
  ⟨"EVE_SEQ", 0x1a000c, [], false, false, [R.EVE_SEQ_COUNT]⟩,
  ⟨"EVE_WAKE", 0x1a0010, [], false, false, [R.EVE_WAKE_REQ, R.EVE_WAKE_CANCEL]⟩,
  ⟨"EVE_DCFG", 0x1a0100, [(0x10, 16)], false, false, [R.EVE_DCFG_W 0, R.EVE_DCFG_RELEASE 0, R.EVE_DCFG_ATTACK 0, R.EVE_DCFG_EMIT_ENV 0, R.EVE_DCFG_EMIT_RMS 0, R.EVE_DCFG_EMIT_PEAK 0]⟩,
  ⟨"EVE_TSET_W0", 0x1a1000, [(0x20, 256)], false, false, [R.EVE_TSET_MIN_PTS 0, R.EVE_TSET_QTY 0, R.EVE_TSET_WAKE 0, R.EVE_TSET_EN 0]⟩,
  ⟨"EVE_TSET_W1", 0x1a1004, [(0x20, 256)], false, false, [R.EVE_TSET_HIGH 0]⟩,
  ⟨"EVE_TSET_W2", 0x1a1008, [(0x20, 256)], false, false, [R.EVE_TSET_LOW 0]⟩,
  ⟨"EVE_TSET_W3", 0x1a100c, [(0x20, 256)], false, false, [R.EVE_TSET_W_HIGH 0]⟩,
  ⟨"EVE_TSET_W4", 0x1a1010, [(0x20, 256)], false, false, [R.EVE_TSET_W_LOW 0]⟩,
  ⟨"EVE_TSET_W5", 0x1a1014, [(0x20, 256)], false, false, [R.EVE_TSET_ON_HOLD 0, R.EVE_TSET_OFF_HOLD 0]⟩,
  ⟨"EVE_TSET_W6", 0x1a1018, [(0x20, 256)], false, false, [R.EVE_TSET_UPD 0]⟩,
  ⟨"EVE_ZSTAT", 0x1a3000, [(0x4, 256)], false, false, [R.EVE_ZSTAT_COUNT 0, R.EVE_ZSTAT_ENTRY 0, R.EVE_ZSTAT_STATE 0]⟩]

/-- The registers of the RRX window (base 0x1C0000). -/
def RegMap.rrx : List Reg := [
  ⟨"RRX_CTRL", 0x1c0000, [], false, false, [R.RRX_CTRL_DEST, R.RRX_CTRL_QUIET_TH]⟩,
  ⟨"RRX_EVENT", 0x1c0004, [], false, false, [R.RRX_EVENT_CLIP, R.RRX_EVENT_PROFILE, R.RRX_EVENT_REJECT, R.RRX_EVENT_CAL_FAIL, R.RRX_EVENT_CFG_REJECT]⟩,
  ⟨"RRX_PORT_CFG", 0x1c1000, [(0x1000, 4)], false, true, [R.RRX_PORT_CFG_B 0, R.RRX_PORT_CFG_RST 0, R.RRX_PORT_CFG_RANGE0 0, R.RRX_PORT_CFG_MODE 0]⟩,
  ⟨"RRX_PORT_T0", 0x1c1004, [(0x1000, 4)], false, true, [R.RRX_PORT_T0_T0 0]⟩,
  ⟨"RRX_PORT_Z0", 0x1c1008, [(0x1000, 4)], false, true, [R.RRX_PORT_Z0_VALUE 0]⟩,
  ⟨"RRX_PORT_COUNT", 0x1c100c, [(0x1000, 4)], false, true, [R.RRX_PORT_COUNT_VALUE 0]⟩,
  ⟨"RRX_PORT_GATE", 0x1c1010, [(0x1000, 4)], false, true, [R.RRX_PORT_GATE_VALUE 0]⟩,
  ⟨"RRX_PORT_LOW_TH", 0x1c1014, [(0x1000, 4)], false, true, [R.RRX_PORT_LOW_TH_TH 0]⟩,
  ⟨"RRX_PORT_GAMMA", 0x1c1018, [(0x1000, 4)], false, true, [R.RRX_PORT_GAMMA_GAMMA 0]⟩,
  ⟨"RRX_PORT_DA", 0x1c101c, [(0x1000, 4)], false, true, [R.RRX_PORT_DA_DA 0]⟩,
  ⟨"RRX_PORT_SW", 0x1c1020, [(0x1000, 4), (0x4, 4)], false, true, [R.RRX_PORT_SW_SAMPLE 0 0, R.RRX_PORT_SW_RANGE 0 0, R.RRX_PORT_SW_EN 0 0]⟩,
  ⟨"RRX_PORT_COIL_A", 0x1c1030, [(0x1000, 4), (0x8, 2)], false, true, [R.RRX_PORT_COIL_A_START 0 0, R.RRX_PORT_COIL_A_SEN 0 0, R.RRX_PORT_COIL_A_EN 0 0]⟩,
  ⟨"RRX_PORT_COIL_B", 0x1c1034, [(0x1000, 4), (0x8, 2)], false, true, [R.RRX_PORT_COIL_B_END 0 0]⟩,
  ⟨"RRX_PORT_STAT", 0x1c1040, [(0x1000, 4)], false, false, [R.RRX_PORT_STAT_TRACES 0, R.RRX_PORT_STAT_DEFERRED 0, R.RRX_PORT_STAT_QUIET 0, R.RRX_PORT_STAT_CAL_STALE 0, R.RRX_PORT_STAT_CAL_RESULT 0, R.RRX_PORT_STAT_JOB 0]⟩,
  ⟨"RRX_PORT_REJECT", 0x1c1044, [(0x1000, 4)], false, false, [R.RRX_PORT_REJECT_COUNT 0]⟩,
  ⟨"RRX_PORT_LAST_PROFILE", 0x1c1048, [(0x1000, 4)], true, false, [R.RRX_PORT_LAST_PROFILE_STAMP 0]⟩,
  ⟨"RRX_PORT_TC_LAST", 0x1c1050, [(0x1000, 4)], false, false, [R.RRX_PORT_TC_LAST_TC 0]⟩,
  ⟨"RRX_PORT_CH_RMS", 0x1c1100, [(0x1000, 4), (0x20, 2)], false, false, [R.RRX_PORT_CH_RMS_MEAN 0 0, R.RRX_PORT_CH_RMS_RMS 0 0]⟩,
  ⟨"RRX_PORT_CH_CLIP", 0x1c1104, [(0x1000, 4), (0x20, 2)], false, false, [R.RRX_PORT_CH_CLIP_COUNT 0 0]⟩]

/-- The registers of the RSF window (base 0x1E0000). -/
def RegMap.rsf : List Reg := [
  ⟨"RSF_CTRL", 0x1e0000, [], false, false, [R.RSF_CTRL_EXC_HOLD, R.RSF_CTRL_SELFCAL, R.RSF_CTRL_EN]⟩,
  ⟨"RSF_STAT", 0x1e0004, [], false, false, [R.RSF_STAT_SEQ, R.RSF_STAT_CUR, R.RSF_STAT_CHECK_CH, R.RSF_STAT_CAL_STALE, R.RSF_STAT_CAL_RESULT, R.RSF_STAT_CFG_ERR, R.RSF_STAT_RUNNING]⟩,
  ⟨"RSF_EVENT", 0x1e0008, [], false, false, [R.RSF_EVENT_CAL_FAIL, R.RSF_EVENT_CFG_ERR, R.RSF_EVENT_OV, R.RSF_EVENT_BURNOUT]⟩,
  ⟨"RSF_OV", 0x1e000c, [], false, false, [R.RSF_OV_BALL]⟩,
  ⟨"RSF_SEQ_PERIOD", 0x1e0010, [], false, false, [R.RSF_SEQ_PERIOD_US]⟩,
  ⟨"RSF_CH_CFG0", 0x1e0100, [(0x40, 16)], false, false, [R.RSF_CH_CFG0_EXC 0, R.RSF_CH_CFG0_REF 0, R.RSF_CH_CFG0_REFN 0, R.RSF_CH_CFG0_REFP 0, R.RSF_CH_CFG0_AINN 0, R.RSF_CH_CFG0_AINP 0, R.RSF_CH_CFG0_GAIN 0, R.RSF_CH_CFG0_BURN_EN 0, R.RSF_CH_CFG0_TYPE 0, R.RSF_CH_CFG0_EN 0]⟩,
  ⟨"RSF_CH_CFG1", 0x1e0104, [(0x40, 16)], false, false, [R.RSF_CH_CFG1_OSR 0, R.RSF_CH_CFG1_SETTLE 0, R.RSF_CH_CFG1_ORDER 0]⟩,
  ⟨"RSF_CH_CFG2", 0x1e0108, [(0x40, 16)], false, false, [R.RSF_CH_CFG2_IEXC 0, R.RSF_CH_CFG2_BETA 0]⟩,
  ⟨"RSF_CH_COEF0", 0x1e010c, [(0x40, 16)], false, false, [R.RSF_CH_COEF0_R_REF 0]⟩,
  ⟨"RSF_CH_COEF1", 0x1e0110, [(0x40, 16)], false, false, [R.RSF_CH_COEF1_R0 0]⟩,
  ⟨"RSF_CH_RAW", 0x1e0120, [(0x40, 16)], false, false, [R.RSF_CH_RAW_UNCAL 0, R.RSF_CH_RAW_SAT 0, R.RSF_CH_RAW_OV 0, R.RSF_CH_RAW_BURNOUT 0, R.RSF_CH_RAW_CODE 0]⟩,
  ⟨"RSF_CH_VALUE", 0x1e0124, [(0x40, 16)], false, false, [R.RSF_CH_VALUE_VALUE 0]⟩,
  ⟨"RSF_CH_STAMP", 0x1e0128, [(0x40, 16)], true, false, [R.RSF_CH_STAMP_STAMP 0]⟩,
  ⟨"RSF_CH_COUNT", 0x1e0130, [(0x40, 16)], false, false, [R.RSF_CH_COUNT_COUNT 0]⟩,
  ⟨"RSF_CH_GOOD_VALUE", 0x1e0134, [(0x40, 16)], false, false, [R.RSF_CH_GOOD_VALUE_VALUE 0]⟩,
  ⟨"RSF_CH_GOOD_STAMP", 0x1e0138, [(0x40, 16)], true, false, [R.RSF_CH_GOOD_STAMP_STAMP 0]⟩]

/-- The registers of the VDC window (base 0x200000). -/
def RegMap.vdc : List Reg := [
  ⟨"VDC_STAT", 0x200000, [], false, false, [R.VDC_STAT_AWAKE, R.VDC_STAT_RUNNING]⟩,
  ⟨"VDC_EVENT", 0x200004, [], false, false, [R.VDC_EVENT_DROP, R.VDC_EVENT_DONE, R.VDC_EVENT_FAULT, R.VDC_EVENT_CFG_REJECT]⟩,
  ⟨"VDC_GRP_STAT", 0x200100, [(0x20, 8)], false, false, [R.VDC_GRP_STAT_WAITING 0, R.VDC_GRP_STAT_HALTED 0, R.VDC_GRP_STAT_MASK 0, R.VDC_GRP_STAT_STATE 0]⟩,
  ⟨"VDC_GRP_JOB", 0x200104, [(0x20, 8)], false, false, [R.VDC_GRP_JOB_HANDLE 0]⟩,
  ⟨"VDC_GRP_FAULT", 0x200108, [(0x20, 8)], false, false, [R.VDC_GRP_FAULT_PC 0, R.VDC_GRP_FAULT_CODE 0, R.VDC_GRP_FAULT_CORE 0, R.VDC_GRP_FAULT_VALID 0]⟩,
  ⟨"VDC_GRP_OUTQ", 0x20010c, [(0x20, 8)], false, false, [R.VDC_GRP_OUTQ_LEVEL 0]⟩,
  ⟨"VDC_BIND_W0", 0x201000, [(0x10, 64)], false, false, [R.VDC_BIND_ENTRY 0, R.VDC_BIND_CORE 0, R.VDC_BIND_KIND 0, R.VDC_BIND_PROFILE 0, R.VDC_BIND_PORT 0, R.VDC_BIND_SRC 0, R.VDC_BIND_EN 0]⟩,
  ⟨"VDC_BIND_W1", 0x201004, [(0x10, 64)], false, false, [R.VDC_BIND_BASE 0, R.VDC_BIND_CHAN 0]⟩,
  ⟨"VDC_BIND_W2", 0x201008, [(0x10, 64)], false, false, [R.VDC_BIND_SIZE 0]⟩,
  ⟨"VDC_BIND_W3", 0x20100c, [(0x10, 64)], false, false, [R.VDC_BIND_DROPPED 0]⟩,
  ⟨"VDC_CORE_STAT", 0x204000, [(0x40, 64)], false, false, [R.VDC_CORE_STAT_PC 0, R.VDC_CORE_STAT_ENTRY 0, R.VDC_CORE_STAT_FAULT 0, R.VDC_CORE_STAT_XBUSY 0, R.VDC_CORE_STAT_OVH 0, R.VDC_CORE_STAT_WAITING 0, R.VDC_CORE_STAT_HALTED 0]⟩,
  ⟨"VDC_CORE_AOV", 0x204004, [(0x40, 64)], false, false, [R.VDC_CORE_AOV_AOV 0]⟩,
  ⟨"VDC_CORE_CYCLES", 0x204008, [(0x40, 64)], false, false, [R.VDC_CORE_CYCLES_COUNT 0]⟩,
  ⟨"VDC_CORE_STALLS", 0x20400c, [(0x40, 64)], false, false, [R.VDC_CORE_STALLS_COUNT 0]⟩]

/-- The registers of the ACQ window (base 0x240000). -/
def RegMap.acq : List Reg := [
  ⟨"ACQ_CTRL", 0x240000, [], false, false, [R.ACQ_CTRL_PANIC_TH]⟩,
  ⟨"ACQ_STAT", 0x240004, [], false, false, [R.ACQ_STAT_ARMED, R.ACQ_STAT_PANIC]⟩,
  ⟨"ACQ_EVENT", 0x240008, [], false, false, [R.ACQ_EVENT_DONE, R.ACQ_EVENT_RELEASE, R.ACQ_EVENT_LOSTTRIG, R.ACQ_EVENT_OVERRUN, R.ACQ_EVENT_SEQ, R.ACQ_EVENT_CFG_REJECT]⟩,
  ⟨"ACQ_SWTRIG", 0x24000c, [], false, false, [R.ACQ_SWTRIG_FIRE]⟩,
  ⟨"ACQ_SEQ_CTRL", 0x240010, [], false, false, [R.ACQ_SEQ_CTRL_START, R.ACQ_SEQ_CTRL_EN]⟩,
  ⟨"ACQ_SEQ_STAT", 0x240014, [], false, false, [R.ACQ_SEQ_STAT_STATE, R.ACQ_SEQ_STAT_TMR0_EXP, R.ACQ_SEQ_STAT_TMR1_EXP]⟩,
  ⟨"ACQ_CNT0", 0x240018, [], false, false, [R.ACQ_CNT0_COUNT]⟩,
  ⟨"ACQ_CNT1", 0x24001c, [], false, false, [R.ACQ_CNT1_COUNT]⟩,
  ⟨"ACQ_CMP0", 0x240020, [], false, false, [R.ACQ_CMP0_VALUE]⟩,
  ⟨"ACQ_CMP1", 0x240024, [], false, false, [R.ACQ_CMP1_VALUE]⟩,
  ⟨"ACQ_TMR0_LEN", 0x240028, [], false, false, [R.ACQ_TMR0_LEN_VALUE]⟩,
  ⟨"ACQ_TMR1_LEN", 0x24002c, [], false, false, [R.ACQ_TMR1_LEN_VALUE]⟩,
  ⟨"ACQ_TIN", 0x240100, [(0x4, 16)], false, false, [R.ACQ_TIN_MATCH 0, R.ACQ_TIN_CODE 0, R.ACQ_TIN_KMASK 0, R.ACQ_TIN_USE_ONSET 0, R.ACQ_TIN_UNIT 0, R.ACQ_TIN_SRC 0, R.ACQ_TIN_EN 0]⟩,
  ⟨"ACQ_TIN_MERGED", 0x240140, [], false, false, [R.ACQ_TIN_MERGED_COUNT]⟩,
  ⟨"ACQ_SEQ_W0", 0x240200, [(0x10, 16)], false, false, [R.ACQ_SEQ_STATE_NEXT_B 0, R.ACQ_SEQ_STATE_NEXT_A 0, R.ACQ_SEQ_STATE_COND_B 0, R.ACQ_SEQ_STATE_COND_A 0]⟩,
  ⟨"ACQ_SEQ_W1", 0x240204, [(0x10, 16)], false, false, [R.ACQ_SEQ_STATE_ACT_A 0, R.ACQ_SEQ_STATE_ACT_B 0]⟩,
  ⟨"ACQ_CH_CFG0", 0x241000, [(0x100, 4)], false, false, [R.ACQ_CH_CFG0_KIND 0, R.ACQ_CH_CFG0_PROFILE 0, R.ACQ_CH_CFG0_ARRAY 0, R.ACQ_CH_CFG0_MODE 0, R.ACQ_CH_CFG0_MEM 0, R.ACQ_CH_CFG0_PORT 0, R.ACQ_CH_CFG0_SRC 0]⟩,
  ⟨"ACQ_CH_SEG", 0x241004, [(0x100, 4)], false, false, [R.ACQ_CH_SEG_UNITS 0]⟩,
  ⟨"ACQ_CH_POST", 0x241008, [(0x100, 4)], false, false, [R.ACQ_CH_POST_UNITS 0]⟩,
  ⟨"ACQ_CH_COUNT", 0x24100c, [(0x100, 4)], false, false, [R.ACQ_CH_COUNT_NSEG 0, R.ACQ_CH_COUNT_COUNT 0]⟩,
  ⟨"ACQ_CH_BASE", 0x241010, [(0x100, 4)], false, false, [R.ACQ_CH_BASE_VALUE 0]⟩,
  ⟨"ACQ_CH_SIZE", 0x241014, [(0x100, 4)], false, false, [R.ACQ_CH_SIZE_VALUE 0]⟩,
  ⟨"ACQ_CH_CTRL", 0x241018, [(0x100, 4)], false, false, [R.ACQ_CH_CTRL_DISARM 0, R.ACQ_CH_CTRL_ARM 0]⟩,
  ⟨"ACQ_CH_STAT", 0x24101c, [(0x100, 4)], false, false, [R.ACQ_CH_STAT_SLOT 0, R.ACQ_CH_STAT_JOB 0, R.ACQ_CH_STAT_STATE 0]⟩,
  ⟨"ACQ_CH_CHECK", 0x241020, [(0x100, 4)], false, false, [R.ACQ_CH_CHECK_CHECK 0, R.ACQ_CH_CHECK_STATUS 0]⟩,
  ⟨"ACQ_CH_LOSS0", 0x241024, [(0x100, 4)], false, false, [R.ACQ_CH_LOSS0_INPOST 0, R.ACQ_CH_LOSS0_MISSED 0]⟩,
  ⟨"ACQ_CH_LOSS1", 0x241028, [(0x100, 4)], false, false, [R.ACQ_CH_LOSS1_LATE 0, R.ACQ_CH_LOSS1_NOSLOT 0]⟩,
  ⟨"ACQ_CH_SEGS", 0x24102c, [(0x100, 4)], false, false, [R.ACQ_CH_SEGS_COUNT 0]⟩,
  ⟨"ACQ_CH_FREE", 0x241030, [(0x100, 4)], false, false, [R.ACQ_CH_FREE_SLOT 0]⟩,
  ⟨"ACQ_CH_STRIDE", 0x241034, [(0x100, 4)], false, false, [R.ACQ_CH_STRIDE_VALUE 0]⟩,
  ⟨"ACQ_CH_JOB", 0x241038, [(0x100, 4)], false, false, [R.ACQ_CH_JOB_VALUE 0]⟩,
  ⟨"ACQ_CH_DIR", 0x250000, [(0x4000, 4), (0x40, 256), (0x4, 16)], false, false, [R.ACQ_CH_DIR_WORD 0 0 0]⟩]

/-- The registers of the CMP window (base 0x280000). -/
def RegMap.cmp : List Reg := [
  ⟨"CMP_CTRL", 0x280000, [], false, false, [R.CMP_CTRL_LEVEL, R.CMP_CTRL_LAZY]⟩,
  ⟨"CMP_STAT", 0x280004, [], false, false, [R.CMP_STAT_BUSY, R.CMP_STAT_STALL, R.CMP_STAT_HODS]⟩,
  ⟨"CMP_EVENT", 0x280008, [], false, false, [R.CMP_EVENT_VERIFY, R.CMP_EVENT_TRUNC, R.CMP_EVENT_BAD, R.CMP_EVENT_FAIL, R.CMP_EVENT_CFG_REJECT]⟩,
  ⟨"CMP_FLUSH", 0x28000c, [], false, false, [R.CMP_FLUSH_DEF]⟩,
  ⟨"CMP_ACTIVE", 0x280010, [], false, false, [R.CMP_ACTIVE_DEF]⟩,
  ⟨"CMP_VFAIL", 0x280014, [], false, false, [R.CMP_VFAIL_COUNT]⟩,
  ⟨"CMP_BAD", 0x280018, [], false, false, [R.CMP_BAD_COUNT]⟩,
  ⟨"CMP_ENG_RING", 0x280100, [(0x10, 4)], false, false, [R.CMP_ENG_RING_LEVEL 0]⟩,
  ⟨"CMP_ENG_QUEUE", 0x280104, [(0x10, 4)], false, false, [R.CMP_ENG_QUEUE_LEVEL 0]⟩,
  ⟨"CMP_ENG_IN", 0x280108, [(0x10, 4)], false, false, [R.CMP_ENG_IN_KB 0]⟩,
  ⟨"CMP_ENG_OUT", 0x28010c, [(0x10, 4)], false, false, [R.CMP_ENG_OUT_KB 0]⟩,
  ⟨"CMP_DEF_W0", 0x281000, [(0x20, 32)], false, false, [R.CMP_DEF_SCO 0, R.CMP_DEF_SHIFT 0, R.CMP_DEF_DELTA 0, R.CMP_DEF_POINT_MAJOR 0, R.CMP_DEF_HALF16 0, R.CMP_DEF_MEM 0, R.CMP_DEF_KIND 0, R.CMP_DEF_PROFILE 0, R.CMP_DEF_PORT 0, R.CMP_DEF_SRC 0, R.CMP_DEF_ACTIVE 0]⟩,
  ⟨"CMP_DEF_W1", 0x281004, [(0x20, 32)], false, false, [R.CMP_DEF_FIRST 0]⟩,
  ⟨"CMP_DEF_W2", 0x281008, [(0x20, 32)], false, false, [R.CMP_DEF_COUNT 0]⟩,
  ⟨"CMP_DEF_W3", 0x28100c, [(0x20, 32)], false, false, [R.CMP_DEF_DEPTH 0, R.CMP_DEF_WIDTH 0]⟩,
  ⟨"CMP_DEF_W4", 0x281010, [(0x20, 32)], false, false, [R.CMP_DEF_TIMEOUT 0]⟩,
  ⟨"CMP_DEF_W5", 0x281014, [(0x20, 32)], false, false, [R.CMP_DEF_TILES 0]⟩,
  ⟨"CMP_DEF_W6", 0x281018, [(0x20, 32)], false, false, [R.CMP_DEF_SKIPPED 0, R.CMP_DEF_TRUNC 0]⟩,
  ⟨"CMP_STR_STAT", 0x282010, [(0x10, 6)], false, false, [R.CMP_STR_STAT_LEVEL 1, R.CMP_STR_STAT_OPEN 1]⟩,
  ⟨"CMP_STR_SEQ", 0x282014, [(0x10, 6)], false, false, [R.CMP_STR_SEQ_SEQ 1]⟩,
  ⟨"CMP_STR_DISCARD", 0x282018, [(0x10, 6)], false, false, [R.CMP_STR_DISCARD_COUNT 1]⟩,
  ⟨"CMP_STR_WAITS", 0x28201c, [(0x10, 6)], false, false, [R.CMP_STR_WAITS_COUNT 1]⟩]

/-- The registers of the MEM window (base 0x2C0000). -/
def RegMap.mem : List Reg := [
  ⟨"MEM_CTRL", 0x2c0000, [], false, false, [R.MEM_CTRL_SR_IDLE, R.MEM_CTRL_TARGET, R.MEM_CTRL_SR_EN, R.MEM_CTRL_SCRUB_EN, R.MEM_CTRL_RETRAIN]⟩,
  ⟨"MEM_STAT", 0x2c0004, [], false, false, [R.MEM_STAT_DEBT0, R.MEM_STAT_DEBT1, R.MEM_STAT_PANIC, R.MEM_STAT_HODS, R.MEM_STAT_OP, R.MEM_STAT_STATE]⟩,
  ⟨"MEM_EVENT", 0x2c0008, [], false, false, [R.MEM_EVENT_OUTAGE, R.MEM_EVENT_TRAINED, R.MEM_EVENT_DEFERRED, R.MEM_EVENT_STEP_DOWN, R.MEM_EVENT_DEGRADED, R.MEM_EVENT_FORCED, R.MEM_EVENT_CE, R.MEM_EVENT_UE, R.MEM_EVENT_RH, R.MEM_EVENT_DRAM_HOT, R.MEM_EVENT_CFG_REJECT]⟩,
  ⟨"MEM_DRAM_CFG", 0x2c0010, [], false, false, [R.MEM_DRAM_CFG_DENSITY, R.MEM_DRAM_CFG_RANKS, R.MEM_DRAM_CFG_ECC_EN]⟩,
  ⟨"MEM_DRAM_STAT", 0x2c0014, [], false, false, [R.MEM_DRAM_STAT_CAP_MB]⟩,
  ⟨"MEM_TRAIN", 0x2c0018, [], false, false, [R.MEM_TRAIN_DELTA, R.MEM_TRAIN_DEFER_MAX]⟩,
  ⟨"MEM_TRAIN_STAMP", 0x2c0020, [], true, false, [R.MEM_TRAIN_STAMP_STAMP]⟩,
  ⟨"MEM_TRAIN_TEMP", 0x2c0028, [], false, false, [R.MEM_TRAIN_TEMP_TEMP]⟩,
  ⟨"MEM_REF", 0x2c0030, [], false, false, [R.MEM_REF_TRFC, R.MEM_REF_MULT, R.MEM_REF_TREFI]⟩,
  ⟨"MEM_REF_CNT", 0x2c0034, [], false, false, [R.MEM_REF_CNT_POSTPONED, R.MEM_REF_CNT_FORCED]⟩,
  ⟨"MEM_AGE", 0x2c0038, [], false, false, [R.MEM_AGE_PIPE, R.MEM_AGE_BULK, R.MEM_AGE_CTRL]⟩,
  ⟨"MEM_RH", 0x2c003c, [], false, false, [R.MEM_RH_WINDOW, R.MEM_RH_LIMIT]⟩,
  ⟨"MEM_RH_LOG", 0x2c0040, [], false, false, [R.MEM_RH_LOG_BANK, R.MEM_RH_LOG_RANK, R.MEM_RH_LOG_CHAN, R.MEM_RH_LOG_REQ]⟩,
  ⟨"MEM_RH_CNT", 0x2c0044, [], false, false, [R.MEM_RH_CNT_COUNT]⟩,
  ⟨"MEM_ERR_CE", 0x2c0048, [], false, false, [R.MEM_ERR_CE_COUNT]⟩,
  ⟨"MEM_ERR_UE", 0x2c004c, [], false, false, [R.MEM_ERR_UE_COUNT]⟩,
  ⟨"MEM_ERR_ADDR", 0x2c0050, [], true, false, [R.MEM_ERR_ADDR_ADDR]⟩,
  ⟨"MEM_ERR_INFO", 0x2c0058, [], false, false, [R.MEM_ERR_INFO_REQ, R.MEM_ERR_INFO_MEM]⟩,
  ⟨"MEM_FQ", 0x2c0100, [(0x4, 4)], false, false, [R.MEM_FQ_LEVEL 0, R.MEM_FQ_DRAM 0]⟩]

/-- The registers of the SCO window (base 0x300000). -/
def RegMap.sco : List Reg := [
  ⟨"SCO_CTRL", 0x300000, [], false, false, [R.SCO_CTRL_TCOMMIT, R.SCO_CTRL_COMMIT]⟩,
  ⟨"SCO_STAT", 0x300004, [], false, false, [R.SCO_STAT_WR_LINE, R.SCO_STAT_LINE, R.SCO_STAT_PANIC, R.SCO_STAT_BLACK, R.SCO_STAT_TPENDING, R.SCO_STAT_PENDING, R.SCO_STAT_STATE]⟩,
  ⟨"SCO_EVENT", 0x300008, [], false, false, [R.SCO_EVENT_CFG_REJECT, R.SCO_EVENT_LATCHED, R.SCO_EVENT_UNDERRUN, R.SCO_EVENT_TILE_DROP, R.SCO_EVENT_TE_MISS, R.SCO_EVENT_FAIL]⟩,
  ⟨"SCO_FB_BASE", 0x300010, [], true, false, [R.SCO_FB_BASE_ADDR]⟩,
  ⟨"SCO_FB_GEOM", 0x300018, [], false, false, [R.SCO_FB_GEOM_FB_LINES, R.SCO_FB_GEOM_STRIDE]⟩,
  ⟨"SCO_FB_TOP", 0x30001c, [], false, false, [R.SCO_FB_TOP_TOP]⟩,
  ⟨"SCO_PIX", 0x300020, [], false, false, [R.SCO_PIX_FLAG_MASK, R.SCO_PIX_SHIFT, R.SCO_PIX_MAG, R.SCO_PIX_FORMAT]⟩,
  ⟨"SCO_MAP", 0x300024, [], false, false, [R.SCO_MAP_YDIV, R.SCO_MAP_XDIV, R.SCO_MAP_MARK_GAP, R.SCO_MAP_AUTO_TOP, R.SCO_MAP_DEF]⟩,
  ⟨"SCO_XFIRST", 0x300028, [], false, false, [R.SCO_XFIRST_VALUE]⟩,
  ⟨"SCO_OFFSET", 0x30002c, [], false, false, [R.SCO_OFFSET_VALUE]⟩,
  ⟨"SCO_COL_FLAG", 0x300030, [], false, false, [R.SCO_COL_FLAG_RGB]⟩,
  ⟨"SCO_COL_GAP", 0x300034, [], false, false, [R.SCO_COL_GAP_RGB]⟩,
  ⟨"SCO_COL_UNDER", 0x300038, [], false, false, [R.SCO_COL_UNDER_RGB]⟩,
  ⟨"SCO_LB", 0x30003c, [], false, false, [R.SCO_LB_URGENT, R.SCO_LB_CALM]⟩,
  ⟨"SCO_HTIM0", 0x300040, [], false, false, [R.SCO_HTIM0_HFP, R.SCO_HTIM0_HACT]⟩,
  ⟨"SCO_VTIM0", 0x300048, [], false, false, [R.SCO_VTIM0_VFP, R.SCO_VTIM0_VACT]⟩,
  ⟨"SCO_HTIM1", 0x300044, [], false, false, [R.SCO_HTIM1_HBP, R.SCO_HTIM1_HSYNC]⟩,
  ⟨"SCO_VTIM1", 0x30004c, [], false, false, [R.SCO_VTIM1_VBP, R.SCO_VTIM1_VSYNC]⟩,
  ⟨"SCO_TCFG", 0x300050, [], false, false, [R.SCO_TCFG_TE_DELAY, R.SCO_TCFG_TE_TIMEOUT, R.SCO_TCFG_TEPOL, R.SCO_TCFG_CLKPOL, R.SCO_TCFG_VPOL, R.SCO_TCFG_HPOL, R.SCO_TCFG_CMD]⟩,
  ⟨"SCO_PCLK", 0x300054, [], false, false, [R.SCO_PCLK_FRAC]⟩,
  ⟨"SCO_UNDERRUN", 0x300058, [], false, false, [R.SCO_UNDERRUN_COUNT]⟩,
  ⟨"SCO_TILEDROP", 0x30005c, [], false, false, [R.SCO_TILEDROP_COUNT]⟩,
  ⟨"SCO_TE_CNT", 0x300060, [], false, false, [R.SCO_TE_CNT_MISS, R.SCO_TE_CNT_EARLY]⟩,
  ⟨"SCO_LUT", 0x300400, [(0x4, 256)], false, false, [R.SCO_LUT_RGB 0]⟩]

/-- The registers of the HIF window (base 0x340000). -/
def RegMap.hif : List Reg := [
  ⟨"HIF_STAT", 0x340000, [], false, false, [R.HIF_STAT_LINK_UP, R.HIF_STAT_SPEED, R.HIF_STAT_WIDTH, R.HIF_STAT_D3HOT, R.HIF_STAT_ETH0_UP, R.HIF_STAT_ETH1_UP]⟩,
  ⟨"HIF_EVENT", 0x340004, [], false, false, [R.HIF_EVENT_PCIE_LINK, R.HIF_EVENT_ETH0_LINK, R.HIF_EVENT_ETH1_LINK, R.HIF_EVENT_FLR, R.HIF_EVENT_CQ_FULL, R.HIF_EVENT_DESC_ERR, R.HIF_EVENT_DMA_ERR, R.HIF_EVENT_ETH_CMD_ERR, R.HIF_EVENT_SPI_OVF, R.HIF_EVENT_CFG_REJECT]⟩,
  ⟨"HIF_SQ_BASE", 0x340010, [], true, false, [R.HIF_SQ_BASE_ADDR]⟩,
  ⟨"HIF_CQ_BASE", 0x340028, [], true, false, [R.HIF_CQ_BASE_ADDR]⟩,
  ⟨"HIF_SQ_CFG", 0x340018, [], false, false, [R.HIF_SQ_CFG_SIZE, R.HIF_SQ_CFG_CRC_EN, R.HIF_SQ_CFG_EN]⟩,
  ⟨"HIF_CQ_CFG", 0x340030, [], false, false, [R.HIF_CQ_CFG_SIZE, R.HIF_CQ_CFG_COAL_CNT, R.HIF_CQ_CFG_COAL_US, R.HIF_CQ_CFG_EN]⟩,
  ⟨"HIF_SQ_TAIL", 0x34001c, [], false, false, [R.HIF_SQ_TAIL_INDEX]⟩,
  ⟨"HIF_SQ_HEAD", 0x340020, [], false, false, [R.HIF_SQ_HEAD_INDEX]⟩,
  ⟨"HIF_CQ_HEAD", 0x340034, [], false, false, [R.HIF_CQ_HEAD_INDEX]⟩,
  ⟨"HIF_CQ_TAIL", 0x340038, [], false, false, [R.HIF_CQ_TAIL_INDEX]⟩,
  ⟨"HIF_CQ_LOST", 0x34003c, [], false, false, [R.HIF_CQ_LOST_COUNT]⟩,
  ⟨"HIF_STR_BASE", 0x340120, [(0x20, 6)], true, false, [R.HIF_STR_BASE_VALUE 1]⟩,
  ⟨"HIF_STR_WADDR", 0x340128, [(0x20, 6)], true, false, [R.HIF_STR_WADDR_VALUE 1]⟩,
  ⟨"HIF_STR_RD", 0x340130, [(0x20, 6)], true, false, [R.HIF_STR_RD_VALUE 1]⟩,
  ⟨"HIF_STR_CFG", 0x340138, [(0x20, 6)], false, false, [R.HIF_STR_CFG_SIZE 1, R.HIF_STR_CFG_COAL_US 1]⟩,
  ⟨"HIF_ETH_CFG", 0x341000, [(0x400, 2)], false, false, [R.HIF_ETH_CFG_MTU 0, R.HIF_ETH_CFG_PAUSE_EN 0, R.HIF_ETH_CFG_FEC 0, R.HIF_ETH_CFG_SPEED 0, R.HIF_ETH_CFG_EN 0]⟩,
  ⟨"HIF_ETH_RATE", 0x341004, [(0x400, 2)], false, false, [R.HIF_ETH_RATE_LIMIT 0]⟩,
  ⟨"HIF_ETH_MAC", 0x341008, [(0x400, 2)], true, false, [R.HIF_ETH_MAC_ADDR 0]⟩,
  ⟨"HIF_ETH_RXOK", 0x341010, [(0x400, 2)], false, false, [R.HIF_ETH_RXOK_COUNT 0]⟩,
  ⟨"HIF_ETH_RXBAD", 0x341014, [(0x400, 2)], false, false, [R.HIF_ETH_RXBAD_COUNT 0]⟩,
  ⟨"HIF_ETH_TXOK", 0x341018, [(0x400, 2)], false, false, [R.HIF_ETH_TXOK_COUNT 0]⟩,
  ⟨"HIF_ETH_CMDBAD", 0x34101c, [(0x400, 2)], false, false, [R.HIF_ETH_CMDBAD_COUNT 0]⟩,
  ⟨"HIF_ETH_DISCARD", 0x341020, [(0x400, 2)], false, false, [R.HIF_ETH_DISCARD_COUNT 0]⟩,
  ⟨"HIF_MSIX_W0", 0x348000, [(0x10, 64)], false, false, [R.HIF_MSIX_ADDR_LO 0]⟩,
  ⟨"HIF_MSIX_W1", 0x348004, [(0x10, 64)], false, false, [R.HIF_MSIX_ADDR_HI 0]⟩,
  ⟨"HIF_MSIX_W2", 0x348008, [(0x10, 64)], false, false, [R.HIF_MSIX_DATA 0]⟩,
  ⟨"HIF_MSIX_W3", 0x34800c, [(0x10, 64)], false, false, [R.HIF_MSIX_MASK 0]⟩,
  ⟨"HIF_PBA", 0x349000, [(0x4, 2)], false, false, [R.HIF_PBA_PENDING 0]⟩]

/-- The registers of the ARY window (base 0x380000). -/
def RegMap.ary : List Reg := [
  ⟨"ARY_CTRL", 0x380000, [], false, false, [R.ARY_CTRL_ETH, R.ARY_CTRL_EVE_FIRE, R.ARY_CTRL_USE_ONSET]⟩,
  ⟨"ARY_CFG", 0x380004, [], false, false, [R.ARY_CFG_MERGE, R.ARY_CFG_ORPHAN_TMO, R.ARY_CFG_BEAT]⟩,
  ⟨"ARY_ARRAY_NO", 0x380008, [], false, false, [R.ARY_ARRAY_NO_VALUE]⟩,
  ⟨"ARY_LAG", 0x38000c, [], false, false, [R.ARY_LAG_VALUE]⟩,
  ⟨"ARY_STAT", 0x380010, [], false, false, [R.ARY_STAT_MEMBERS, R.ARY_STAT_TIME, R.ARY_STAT_TIME_OK, R.ARY_STAT_ARMED, R.ARY_STAT_MASTER, R.ARY_STAT_STATE]⟩,
  ⟨"ARY_EVENT", 0x380014, [], false, false, [R.ARY_EVENT_JOINED, R.ARY_EVENT_LEFT, R.ARY_EVENT_ORPHAN, R.ARY_EVENT_MEMBER_LOST, R.ARY_EVENT_MEMBER_LAG, R.ARY_EVENT_MEMBER_TIME, R.ARY_EVENT_FIRE_HELD, R.ARY_EVENT_CFG_REJECT]⟩,
  ⟨"ARY_FIRES", 0x380018, [], false, false, [R.ARY_FIRES_RECEIVED, R.ARY_FIRES_SENT]⟩,
  ⟨"ARY_MERGED", 0x38001c, [], false, false, [R.ARY_MERGED_COUNT]⟩,
  ⟨"ARY_HELD", 0x380020, [], false, false, [R.ARY_HELD_COUNT]⟩,
  ⟨"ARY_LAT_MAX", 0x380024, [], false, false, [R.ARY_LAT_MAX_COUNT]⟩,
  ⟨"ARY_MEM", 0x390000, [(0x4, 4096)], false, false, [R.ARY_MEM_LAT_MAX 0, R.ARY_MEM_TQ 0, R.ARY_MEM_ARMED 0, R.ARY_MEM_STATE 0]⟩]

end Sys2Proof.Machine
end

