-- ==== Sys2Proof/Config.lean ====
section
/-! DEFINITION. The values that the manual leaves open, as constants without a body: nothing can be proved of them but
what holds for every value. Each is named in an assumption log entry. -/

namespace Sys2Proof.Config

/-- The value of an open quantity, a fresh one for each reading of the counter `State.fresh` (log entry 3). -/
opaque freeValue : Nat → BitVec 64

/-- The VCO band code of synthesiser `p` measured at final test and stored in fuses (R53, log entry 4). -/
opaque fusedBand : Nat → BitVec 6

/-- The die number that IDENTIFY returns (R416, log entry 4). -/
opaque dieNumber : BitVec 64

/-- The relative error of the natural logarithm of m × 2^e, in units of 2^−103 (R225, log entry 15). -/
opaque lnError : Int → Int → BitVec 64

/-- Whether C after a subtraction of a DSP core is the inverse of the borrow (R267, log entry 18). -/
opaque subCarryInverted : Bool

/-- The values that the board configuration of a copy's bytes gives (R455 step 6), whose layout the manual leaves open:
0 WAIT_RDY, 1 subsystem IDs, 2 and 3 the MAC addresses, 4 BUDGET, 5 DENSITY, 6 RANKS, 7 ECC_EN (log entry 21). -/
opaque boardField : List Nat → Nat → BitVec 64

/-- The SHA-384 of the public key of key slot `k`, as its fuses hold it (R443, log entry 22). -/
opaque keyHash : Nat → BitVec 384

/-- Where SNAPSHOT puts its copy in the Chadihus area (R424, log entry 23). -/
opaque snapshotAt : BitVec 32

/-- Which of its two neighbours a value takes whose rounding the manual does not state: the place where it is rounded,
and the exact value as a fraction; true for the higher one (log entry 75). -/
opaque roundUp : Nat → Int → Nat → Bool

/-- The combined response of the three decimation filters of a down-converter: the output, s1.17, from the products that
lie within 120 ticks of its centre, each with its place in that window (R140, log entry 76). -/
opaque ddcFilter : List (Nat × Int) → BitVec 18

/-- How far, in ticks from the centre of an output, the filter span of R140 reaches (log entry 76). -/
opaque ddcSpan : BitVec 6

/-- The error of the CORDIC, −1 to +2 above the phase rounded down, where R145 bounds it, and its output below that
power (R145, log entry 77). -/
opaque cordicError : Int → Int → BitVec 2
opaque cordicLow : Int → Int → BitVec 16

/-- The error of the iteration of R246 below R0, in units of 2^−63 of its last step's bound of 0.001 K (log entry 39). -/
opaque rtdError : Int → Int → BitVec 64

/-- The hash of three bytes, of which 15 bits choose a chain (R320, log entry 42). -/
opaque lzHash : Nat → Nat → Nat → BitVec 15

/-- The codes that the encoder chooses for a dynamic block, and the block in them: its bits behind BTYPE, from the
literals and the pairs of length and distance that it is to carry (R319, log entry 42). -/
opaque dynamicBits : List (Nat × Nat) → List Bool

end Sys2Proof.Config
end

