-- ==== Sys2Proof/Machine/Blocks.lean ====
section
/-! DEFINITION. The state that the blocks hold beside their registers: loops and counters, queues, job table,
segments, rosters. Every structure is plain data. -/

namespace Sys2Proof.Machine

/-! ### SYN, TBU, TDC -/

/-- A chirp of a launch (R59, R60): the stamp of its launch, the half tick of elapsed time at which it begins, its
profile and its LENGTH in ticks. -/
structure Chirp where
  stamp  : Nat
  begins : Int
  prof   : Nat
  len    : Nat
  deriving DecidableEq, Repr

/-- SYN beside its registers. Masks have bit p for synthesiser p, bit n for port n. -/
structure Syn where
  /-- The loop acquires. -/
  acquiring : Nat
  /-- EN is set and the synthesiser waits for OCXO_RDY (R55). -/
  waiting : Nat
  /-- The boot ROM or Chadihus enabled it and it has not locked since (R53). -/
  firmware : Nat
  /-- Bit p: SYN_BANDp_0 holds the fused code as it was loaded (R53). -/
  fused : Nat
  /-- The operating point that PLL_M's band search was begun for (R52). -/
  searchOp : Nat
  /-- The active slot and chirp tables, under the keys of their shadow registers (R56). -/
  active : List (Nat × Nat)
  /-- The frequency increment per DDS clock of each profile of each CSYk, computed at COMMIT (R59). -/
  inc : Vector (Vector Int 8) 2
  /-- Elapsed tick of the last lock declaration of PLL_S (R131). -/
  relock : Nat
  /-- Bit k: CSYk has reloaded its accumulators since its lock (R63). -/
  loaded : Nat
  /-- A STEP relock is under way (R69). -/
  stepping : Bool
  /-- The jump that a STEP relock has yet to give to the TBU (R78), in units of 3.125 ps. -/
  jump : Option Int
  /-- The slew offset held over a reference loss (R72). -/
  held : Int
  /-- A reference loss is declared and no return has qualified. -/
  refDown : Bool
  /-- Raw tick at which the current holdover began. -/
  holdStart : Nat
  /-- Per port: the slot the carrier channel runs on (R58). -/
  slot : Vector Nat 4
  /-- Per port: the last chirp that has begun and was not cut (R59). -/
  chirp : Vector (Option Chirp) 4
  /-- Bit n: the check-tone state of port n holds (R65). -/
  tone : Nat
  deriving DecidableEq, Repr

/-- Where the course of the counter changed: from elapsed tick `raw` on it holds `count` for `hold` ticks and then counts
on (R15, R76). -/
structure Bend where
  (raw count hold : Nat)
  deriving DecidableEq, Repr

/-- The delta of the present tick (R79): an action or a relock step, whether a load is in it, and what stood before it:
counter, hold, epoch, EPOCH_SRC, LAST_STEP, LAST_AT, STEP_DONE and STEP_REJECT, and the causes of each port. -/
structure TickAct where
  d : Int
  (relock load : Bool)
  (count hold : Nat)
  past : List Bend
  epoch : Bool
  (src step stamp : Nat)
  (done reject : Bool)
  causes : Vector Nat 4
  deriving DecidableEq, Repr

/-- The TBU beside its registers. -/
structure Tbu where
  /-- The stamp counter (R14). -/
  count : Nat
  /-- Ticks of PLL_S since the TIME domain turned on, which measure elapsed time across steps. -/
  raw : Nat
  /-- The counter has started (R15). -/
  running : Bool
  /-- Held ticks left of a backward step (R76). -/
  hold : Nat
  /-- An epoch has been loaded since device reset (R75). -/
  epoch : Bool
  /-- An action armed for PPS_IN: load or step, and its value (R513). -/
  armed : Option (Bool × Nat)
  /-- The delta of the present tick, if there was one (R79). -/
  tickDelta : Option TickAct
  /-- The last changes of the counter's course, newest first. -/
  past : List Bend
  /-- PPS_IN went missing since its last qualified edge. -/
  ppsMissed : Bool
  /-- Count of the last PPS_OUT pulse, while the counter stays there (R82). -/
  ppsOut : Option Nat
  /-- REFOUT10 is high (R83). -/
  refHigh : Bool
  deriving DecidableEq, Repr

/-- One TDC unit: the configuration applied at the rise of EN (R87) and its measurement. Times are pairs of raw tick
and fraction. -/
structure Tdc where
  run : Bool
  sync : Bool
  falling : Bool
  ref : Nat
  holdoff : Nat
  wopen : Nat
  wclose : Nat
  timeout : Nat
  /-- The window reference (EVENT) or the pending start (SYNC): raw tick, fraction, stamp. -/
  start : Option (Nat × Nat × Nat)
  /-- The last accepted edge: raw tick, fraction, stamp. -/
  last : Option (Nat × Nat × Nat)
  /-- A stop that came without a start (R89): raw tick, fraction, stamp. -/
  early : Option (Nat × Nat × Nat)
  /-- With REF 12, accepted edges that a PPS_IN edge before them may still concern until it qualifies (R81, R88). -/
  edges : List (Nat × Nat × Nat)
  /-- FIFO entries of four words (R91). -/
  fifo : List (Nat × Nat × Nat × Nat)
  seq : Nat
  lost : Bool
  /-- Intervals of the block in progress (R92). -/
  block : List Int
  nflag : Nat
  deriving DecidableEq, Repr

/-! ### Commands, jobs, hods, streams -/

inductive JobState where
  | queued | running | suspended | done | cancelled | failed
  deriving DecidableEq, Repr

/-- An entry of the job table (R408, R409). -/
structure Job where
  entry  : Nat
  typ    : Nat
  serial : Nat
  op     : Nat
  state  : JobState
  status : Nat
  detail : Nat
  req    : Requester
  notify : Bool
  /-- The command's parameter words. -/
  words  : List Nat
  /-- Result words given in the DONE notification. -/
  result : List Nat
  /-- Stamps at which it was made, began to run and ended. -/
  made   : Nat
  began  : Nat
  ended  : Nat
  /-- Order of ending, for the reuse of entries. -/
  endNo  : Nat
  progress : Nat
  /-- Arrival number of the command that made it. -/
  arr    : Nat
  /-- RCAP and RESULT of that command over PCIe, which its notifications use (R378, R410). -/
  (rcap addr : Nat)
  deriving DecidableEq, Repr

/-- A queued hod request (R437). -/
structure HodReq where
  user : HodUser
  hods : Nat
  cls  : Nat
  tmo  : Nat
  job  : Nat
  deriving DecidableEq, Repr

/-- A stream record that waits to leave (R328, R329). -/
structure Rec where
  port  : Nat
  rtype : Nat
  stamp : Nat
  body  : List Nat
  /-- Engine of a tile, group of a DSP record, channel of a segment. -/
  lane  : Nat
  /-- Slot of a segment. -/
  slot  : Nat
  deriving DecidableEq, Repr

/-- A stream, 1 to 6 (R328): whether it is open and where it goes, and its queue. -/
structure Strm where
  /-- 0 closed, 1 PCIe, 2 Ethernet. -/
  dest : Nat
  ethM : Nat
  addr : Nat
  udp  : Nat
  ipv6 : Bool
  queue : List Rec
  /-- A wait is in progress (R330): records that found no room, in order. -/
  waitq : List Rec
  seq  : Nat
  /-- Byte count written to the PCIe ring (R380). -/
  written : Nat
  /-- Closing after the record in hand. -/
  closing : Bool
  /-- A message is pending under COAL_US (R383). -/
  coal : Bool
  /-- The raw tick of the last message. -/
  lastMsg : Option Nat
  /-- The lane that gave the last tile record (round robin). -/
  turn : Nat
  /-- Bytes of the record in hand that have left (R380). -/
  part : Nat
  deriving DecidableEq, Repr

/-- A reply or notification, before it crosses its interface (R397). -/
structure Reply where
  (op tag kind status detail : Nat)
  job : Nat
  stamp : Nat
  result : List Nat
  deriving DecidableEq, Repr

/-- What is to be written to the host: a reply or notification with RCAP and RESULT. `own`: it is the reply of the
command in flight under its tag, which ends when it is written (R400). -/
structure Completion where
  reply : Reply
  rcap  : Nat
  addr  : Nat
  own   : Bool
  deriving DecidableEq, Repr

/-- The command processor (R399 to R412). -/
structure Cmd where
  jobs : List Job
  serial : Nat
  ends : Nat
  /-- Packets accepted and not dispatched (R404), in order of arrival, with their arrival numbers. -/
  waiting : List (Nat × Packet)
  /-- Replies kept per Ethernet requester: requester, tag, SEQ, reply (R386), newest first. -/
  kept : List (Requester × Nat × Nat × Reply)
  /-- Packets running whose reply is still to come (R406), with their arrival numbers. -/
  open_ : List (Nat × Packet)
  /-- Packets that have arrived, and the arrival number of the one that was dispatched last. -/
  (arrivals arr : Nat)
  deriving DecidableEq, Repr

/-- HIF beside its registers. -/
structure Hif where
  /-- Completions held while the ring is full (R379), oldest first: 64, and behind them replies that are not yet
  written. -/
  held : List Completion
  /-- The arrival number of the last packet fetched before a link-down or function level reset, whose completions are
  discarded (R375). -/
  cutoff : Nat
  /-- PHASE of the completion ring (R378). -/
  phase : Bool
  /-- Entries written since the last CQ message (R383). -/
  cqNew : Nat
  /-- SPI replies waiting (R390), oldest first. -/
  spi : List Reply
  spiErr : Bool
  spiOvf : Bool
  /-- UART rate in baud (R391). -/
  baud : Nat
  /-- JTAG instruction (R393): 0 BYPASS, 1 IDCODE, 2 SAMPLE/PRELOAD, 3 EXTEST, 4 CLAMP, 5 HIGHZ; and the boundary-scan
  register. -/
  jtag : Nat
  boundary : List Bool
  /-- Network configuration per Ethernet port, as NET_CONFIG gave it. -/
  net : Vector (List Nat) 2
  /-- PTP configuration words, servo state and offset. -/
  ptp : List Nat
  ptpState : Nat
  /-- The port has taken the master state (R85, R389). -/
  ptpMaster : Bool
  ptpOffset : Int
  /-- Mean path delay in 3.125 ps, and the grandmaster's clockIdentity. -/
  ptpDelay : Nat
  ptpGm : Nat
  /-- The stream that each Ethernet port served last. -/
  ethTurn : Vector Nat 2
  /-- The last timestamps that Chadihus was given (R84), by messageType: Sync, Delay_Req, Pdelay_Req, Pdelay_Resp. -/
  ptpRx : Vector Nat 4
  ptpTx : Vector Nat 4
  /-- Time since reset, in ticks, until which a received PAUSE holds each Ethernet port (R384). -/
  pause : Vector Nat 2
  /-- Time since reset, in ticks, before which HIF_ETHm_RATE lets no further stream record leave each port (R387). -/
  paced : Vector Nat 2
  deriving DecidableEq, Repr

/-! ### ACQ and ARY -/

/-- A stored COURSE or FRAME unit (R291). -/
structure CapUnit where
  stamp : Nat
  bytes : List Nat
  clip  : Bool
  trunc : Bool
  deriving DecidableEq, Repr

/-- A segment being captured or waiting for its release (R301 to R306). -/
structure Segment where
  (trig first last : Nat)
  cond : Nat
  input : Nat
  array : Bool
  origin : Nat
  (pre post : Nat)
  /-- Bits of the flag byte of R306. -/
  flags : Nat
  /-- COURSE and FRAME: the units taken, and how many post-trigger units are still to come. -/
  units : List CapUnit
  need : Nat
  slot : Nat
  segno : Nat
  lost : Nat
  ofs : Nat
  data : List Nat
  gaps : Nat
  /-- Elapsed tick at which the first unit of a RAW segment is taken. -/
  at_ : Nat
  deriving DecidableEq, Repr

/-- An acquisition channel beside its registers. -/
structure Chan where
  /-- First stamp of the slot's history (R300). -/
  fillStart : Nat
  /-- Units stored since fill start. -/
  filled : Nat
  /-- The last SEG units, oldest first. -/
  units : List CapUnit
  /-- Stamp of the newest unit that has left the slot (R302). -/
  gone : Option Nat
  /-- The unit size U (R291). -/
  usize : Nat
  /-- Elapsed tick of the first tick of the slot's history, of a RAW channel. -/
  fillRaw : Nat
  /-- Data dropped since fill start (R294): stamps of units, or elapsed ticks at which raw blocks began. -/
  drops : List Nat
  seg : Option Segment
  /-- Completed segments not released, oldest first. -/
  done : List Segment
  /-- Slots not free. -/
  busy : List Nat
  /-- The slot that is used next (R308). -/
  next : Nat
  /-- COURSE and FRAME units on their way to the slot, oldest first. -/
  inq : List CapUnit
  /-- Segments recorded since arm. -/
  recorded : Nat
  /-- Triggers lost since the previous segment (R306). -/
  lost : Nat
  /-- Bytes in the DRAM write buffer (R294). -/
  buffer : Nat
  draining : Bool
  suspending : Bool
  deriving DecidableEq, Repr

structure Acq where
  ch : Vector Chan 4
  /-- Ticks left of timers 0 and 1, none when stopped. -/
  tmr0 : Option Nat
  tmr1 : Option Nat
  /-- Stamps at which the timers reached 0. -/
  exp0 : Nat
  exp1 : Nat
  /-- Array triggers on their way to the inputs of SRC 7: T and origin (R482). -/
  inbox : List (Nat × Nat)
  /-- GAP records per port: FIRST and LAST (R304). -/
  gapRanges : Vector (List (Nat × Nat)) 4
  /-- LOST reports of CPL per port: first and last stamp (R158). -/
  lostReports : Vector (List (Nat × Nat)) 4
  /-- Elapsed ticks at which a load or step with D ≠ 0 took effect (R304). -/
  steps : List Nat
  /-- The last tick with input events, and the inputs that had one (R296). -/
  (tinAt tinMask : Nat)
  deriving DecidableEq, Repr

/-- A roster entry of the master (R475), the address it came from, beats without an answer, and whether the last ARM
or DISARM has been answered. -/
structure Member where
  id : Nat
  addr : Nat
  missed : Nat
  armAck : Bool
  deriving DecidableEq, Repr

structure Ary where
  id : Nat
  udp : Nat
  /-- The master's address, as a member holds it. -/
  master : Nat
  seq : Nat
  fireNo : Nat
  roster : List Member
  /-- T and raw time of the fires relayed (R483). -/
  relayed : List (Nat × Nat)
  joinJob : Nat
  armJob : Nat
  /-- The channel mask of ARRAY_ARM, on the master. -/
  armMask : Nat
  disarming : Bool
  /-- Channels of this device that the array has armed. -/
  chans : Nat
  deriving DecidableEq, Repr

/-! ### SYS, MGT -/

/-- Where the part stands between a reset and its modes (R455, R459). `lock` and `dram` are boot steps 4 and 8, of a
boot or of a mode change. -/
inductive Phase where
  /-- Reset is asserted. -/
  | held
  /-- Boot step 2 waits for the die to cool. -/
  | hot
  | lock
  | dram
  /-- WATCH or RUN. -/
  | up
  /-- Footing mode served by the boot ROM, and by Chadihus. -/
  | footRom
  | footFw
  | standby
  /-- Off after the thermal trip of R434. -/
  | tripped
  deriving DecidableEq, Repr

/-- The always-on retention (R454). -/
structure Retention where
  (fails reason footReason preferred tried : Nat)
  (footReq trip : Bool)
  deriving DecidableEq, Repr

/-- The always-on domain, fuses, boot and power. -/
structure Sys where
  /-- Ticks of 0.8 ns since device reset. -/
  uptime : Nat
  /-- Domains that are on, bits as in PWR_DOMAIN. -/
  domains : Nat
  /-- The mode code of R426; 0 while no mode is reached. -/
  mode : Nat
  /-- A port has been started since device reset, so the owners of the shared buffer SRAM have written it. -/
  bufUsed : Bool
  phase : Phase
  ret : Retention
  /-- Boot attempts since POR_N. -/
  boots : Nat
  /-- Uptime at boot complete. -/
  doneAt : Nat
  /-- What step 6 finds of the PMBus rails, and a section that fails its hash (R455, R457). -/
  (railBad sectionBad : Bool)
  /-- The STANDBY wake time in s, 0 for none (R430). -/
  wakeAfter : Nat
  /-- The preference record of the flash: none while blank (R456). -/
  prefRecord : Option Nat
  /-- Slots that hold a verified image (R445). -/
  verified : Nat
  /-- Fuses: revoked key slots, and the counter (R443). -/
  (revoked svn : Nat)
  /-- 600 s in WATCH or RUN have passed since boot complete (R446, R458). -/
  settled : Bool
  /-- PCIe subsystem IDs in force (R373). -/
  subsys : Nat
  /-- Levels of OCXO_RDY and ILK_IN_N. -/
  (ocxo ilkIn : Bool)
  deriving DecidableEq, Repr

/-- A mode change in progress (R430): job, target and TIME. -/
structure Change where
  (job target : Nat)
  time : Bool
  deriving DecidableEq, Repr

/-- An update that has begun (R444): slot, size, the staged bytes that have been written, and the commit's job. -/
structure Update where
  (slot size : Nat)
  staged : Bool
  cells : List (Nat × BitVec 8)
  job : Nat
  deriving DecidableEq, Repr

/-- A sensor (R439): ID, value (s24.8), the flags LOW, HIGH and FAULT, and the uptime of its sample. -/
structure Sensor where
  (id value flags at_ : Nat)
  deriving DecidableEq, Repr

/-- A CAL_RUN job: its targets still to end, those passed, failed not quiet, failed otherwise, and of these the ones
that failed for power (R419). -/
structure CalJob where
  job : Nat
  (mask passed quiet other power tmo : Nat)
  held : Bool
  deriving DecidableEq, Repr

/-- Offsets in codes and gains, both in units of 2^−16, of one channel by range (R221, log entry 14). -/
structure RCorr where
  ofs : List Int
  gain : List Nat
  deriving DecidableEq, Repr

structure Mgt where
  /-- Plumb: the target that runs, or that waits for its hods, its step, and whether a step is in progress (R448).
  Targets are numbered as in CAL_RUN W0: 0 to 3 CDG, 4 to 7 RRX, 8 RSF. -/
  calRun : Option Nat
  calWait : Option Nat
  calStep : Nat
  calIn : Bool
  calJobs : List CalJob
  /-- Targets that failed not quiet and wait for their retry, and those refused hods. -/
  calRetry : Nat
  /-- Die temperature at the last pass of each target, and the confirmed reading at the last pass of each RRX. -/
  calTj : Vector (Option Int) 9
  /-- The last passing digitiser selections of each port, slice and tap for each unit and lane (R125). -/
  cdgSel : Vector (List (List Nat)) 4
  /-- The last passing Raman corrections of each port (R221, R238). -/
  rrxCorr : Vector (List RCorr) 4
  calRef : Vector (Option Int) 4
  /-- The log rings and the flash copy (R442), oldest record first. -/
  ring : List (List Nat)
  dramRing : List (List Nat)
  flashLog : List (List Nat)
  change : Option Change
  update : Option Update
  /-- The SNAPSHOT job in progress and its port. -/
  snap : Option (Nat × Nat)
  /-- Sensors sampled since device reset, in rising order of ID. -/
  sensors : List Sensor
  /-- PM_ALERT_N is asserted and no rail has been read since. -/
  alert : Bool
  deriving DecidableEq, Repr

/-! ### Zones, filters, detectors -/

/-- A zone entry as a generation holds it (R171). -/
structure ZEntry where
  e : Nat
  en : Bool
  priv : Bool
  port : Nat
  box : Bool
  (pidx routes start gauge count z0 interval scale unit base filt det label : Nat)
  deriving DecidableEq, Repr

/-- ZON beside its registers. -/
structure Zon where
  /-- The active table, under the keys of the shadow entries (R171). -/
  active : List (Nat × Nat)
  /-- What BUSY waits for: 0 nothing, 1 commit, 2 discard, 3 recomputation. -/
  busy : Nat
  /-- The group index under recomputation: port and value. -/
  ng : Option (Nat × Nat)
  /-- The GROUP_INDEX or ZONE_COMMIT packets that wait for the end of BUSY. -/
  waiter : Option Packet
  deriving DecidableEq, Repr

/-- A value of a filter stage and its flags (R192). -/
structure FVal where
  v  : Int
  fl : Nat
  deriving DecidableEq, Repr

/-- The filter state of one point (R189). -/
structure FPoint where
  (point entry prof : Nat)
  /-- Sum and flags of the stage-1 group in progress. -/
  sum : Int
  sfl : Nat
  /-- Stage-1 outputs, newest first, at most 64. -/
  hist : List FVal
  /-- Stage-2 outputs, newest first, at most 9. -/
  rs : List FVal
  /-- Outputs with a stamp below this carry SETTLING (R199). -/
  settle : Nat
  /-- The number of its last reset among those of the port. -/
  epoch : Nat
  /-- The point produces no output until the next port start (R197, R344). -/
  muted : Bool
  /-- An uncorrectable error: the point is reset at the next course (R351). -/
  again : Bool
  deriving DecidableEq, Repr

/-- The phases that the points of one profile share. -/
structure FProf where
  /-- Inputs in the stage-1 group, and stage-1 outputs since the last stage-2 output. -/
  (grp dec : Nat)
  /-- Represented times τ of the stage-2 outputs, newest first, at most 9. -/
  taus : List Int
  /-- SLEWING of the inputs of the group, of the stage-1 and of the stage-2 outputs. -/
  slewG : Bool
  slew1 : List Bool
  slew2 : List Bool
  /-- The next output instant to look at (R191). -/
  next : Option Nat
  /-- Stamp of the first course after the reset. -/
  first : Nat
  /-- Outputs since the last reset of the phase. -/
  idx : Nat
  deriving DecidableEq, Repr

/-- A run of a frame: entry, first point, and (value, epoch of the point). -/
structure FRun where
  entry : Nat
  point : Nat
  vals : List (Nat × Nat)
  deriving DecidableEq, Repr

/-- A frame (R201). `idx` is its place since the last reset of the phase, `first` that S of R199. -/
structure Frame where
  (stamp tq : Nat)
  slewing : Bool
  watch : Bool
  (prof port kind gen frame det dropped course gaps : Nat)
  runs : List FRun
  idx : Nat
  /-- The zones of the profile, as they were for the course. -/
  zones : List ZEntry
  deriving DecidableEq, Repr

/-- A GAP record (R157). -/
structure Gap where
  (first last lost causes next no : Nat)
  deriving DecidableEq, Repr

/-- An item on its way to the VDC (R275): a frame, an event record or a temperature profile. -/
structure VItem where
  (src port prof kind entry stamp : Nat)
  frame : Option Frame
  words : List Nat
  deriving DecidableEq, Repr

/-- A temperature profile on its way to CMP (R312): header words and values. -/
structure TProf where
  port : Nat
  words : List Nat
  vals : List Nat
  deriving DecidableEq, Repr

/-- What CMP reads (R313, R315), and the stop of a port behind its last frame (R314). -/
inductive CmpItem where
  | stop (port : Nat)
  | frame (f : Frame)
  | gap (port : Nat) (g : Gap)
  | profile (t : TProf)
  deriving DecidableEq, Repr

/-- A row of a tile definition (R312, R313): the values of its points and what its rows have in common. -/
structure TRow where
  stamp : Nat
  vals : List Nat
  /-- GEN, or ROUTE, B and Z0 of a profile. -/
  key : List Nat
  watch : Bool
  slewing : Bool
  tq : Nat
  deriving DecidableEq, Repr

/-- A closed tile (R317, R324): its definition, the number of its assembly set, its column and its header fields. -/
structure Tile where
  (t set col : Nat)
  (first last gen point w rows missed close tq : Nat)
  (watch slewing settling gapfill flagged half major delta : Bool)
  payload : List Nat
  deriving DecidableEq, Repr

/-- What waits for an engine (R315, R321). -/
inductive EngItem where
  | tile (x : Tile)
  | gap (g : Gap)
  deriving DecidableEq, Repr

/-- A tile definition beside its registers. -/
structure TDef where
  rows : List TRow
  /-- Number of the set that is open. -/
  set : Nat
  missed : Nat
  /-- A tile-stop drains it (R326). -/
  stopping : Bool
  deriving DecidableEq, Repr

/-- An engine: what waits, LEVEL and LAZY as it began the tile in hand (R320), whether it writes that tile again as stored
blocks (R322), and the bytes of its counters below a KB. -/
structure Eng where
  queue : List EngItem
  begun : Option (Nat × Bool)
  again : Bool
  (inB outB : Nat)
  deriving DecidableEq, Repr

structure Cmp where
  defs : Vector TDef 32
  engs : Vector Eng 4
  /-- Tile-stop jobs and their masks. -/
  stops : List (Nat × Nat)
  /-- The job of a tile-start whose engines wait for hods: handle and mask. -/
  starts : List (Nat × Nat)
  deriving DecidableEq, Repr

/-- SCO beside its registers (R354 to R370). -/
structure Sco where
  /-- Tiles in its two buffers, and GAP records of the tile stream, in order. -/
  queue : List EngItem
  /-- The set in progress: FIRST, rows, and rows taken. -/
  cur : Option (Nat × Nat × Nat)
  /-- Rows seen before the set. -/
  seen : Nat
  /-- Base and TOP that a commit has made pending, and those latched. -/
  pend : Option (Nat × Nat)
  (base top : Nat)
  /-- The running timing and the pending one, under the keys of the shadow registers (R368). -/
  timing : List (Nat × Nat)
  tpend : Option (List (Nat × Nat))
  /-- Command mode: a frame is being sent; a TE edge was taken and TE_DELAY runs. -/
  (sending delaying : Bool)
  /-- Jobs of a start that waits for its hod, and of a stop. -/
  (startJob stopJob : Nat)
  /-- DRAM became DEGRADED while SCO ran (R365). -/
  failed : Bool
  /-- Lines of this frame that underran, each with the pixel at which it did (R365). -/
  under : List (Nat × Nat)
  deriving DecidableEq, Repr

/-- What a frame queue holds, with the consumers that have not read it (R202). -/
structure FqItem where
  frame : Option Frame
  gap : Option Gap
  wait : Nat
  deriving DecidableEq, Repr

/-- The FDC of one port. -/
structure Fdc where
  points : List FPoint
  profs : Vector FProf 16
  /-- The generation and zones of the last course taken. -/
  gen : Option Nat
  zones : List ZEntry
  /-- Courses that have come, so that each reset of a point has a number of its own. -/
  resets : Nat
  /-- A synchronising reset is due at the next course (R199). -/
  sync : Bool
  /-- Point values discarded in a DRAM outage (R343). -/
  hit : Bool
  /-- Frames made and dropped, for each profile and kind: index 4 × profile + kind. -/
  made : Vector Nat 64
  dropped : Vector Nat 64
  queue : List FqItem
  /-- The queue is the one in DRAM (R339). -/
  inDram : Bool
  (lastTq lastCourse lastGaps lastGen : Nat)
  lastWatch : Bool
  deriving DecidableEq, Repr

/-- The detector state of one point (R205). -/
structure DPoint where
  (point epoch peak sum env count fl : Nat)
  /-- Some output of the window was SLEWING. -/
  slew : Bool
  /-- Number of the window in progress. -/
  win : Nat
  deriving DecidableEq, Repr

/-- The alarm state of a zone beside EVE_ZSTAT (R210, R211). -/
structure Alarm where
  onset : Nat
  /-- Stamp of the RAISE. -/
  raised : Nat
  /-- Results since the last record. -/
  since : Nat
  /-- The kind of the previous result: watch or RUN. -/
  watch : Option Bool
  port : Nat
  entry : Nat
  deriving DecidableEq, Repr

structure Eve where
  /-- The committed threshold sets, under the keys of their shadow (R208). -/
  active : List (Nat × Nat)
  points : List DPoint
  alarms : List (Nat × Alarm)
  /-- Per port: the stamps of the last record sent and of the last frame read. -/
  (sent seen : Vector Nat 4)
  deriving DecidableEq, Repr

/-! ### VDC (R256 to R288) -/

/-- An active hardware loop (R262). -/
structure DLoop where
  (first last count : Nat)
  deriving DecidableEq, Repr

/-- A block transfer in flight (R282). -/
structure Xfer where
  toRemote : Bool
  y : Bool
  (loc rem len : Nat)
  deriving DecidableEq, Repr

/-- An OUT that waits for room (R280): Y address, bytes and tag. -/
structure DOut where
  (addr len tag : Nat)
  /-- The output queue had no room as the OUT issued, or the group had another OUT in hand. -/
  late : Bool
  deriving DecidableEq, Repr

/-- A DSP core (R262, R263). -/
structure DCore where
  v : Vector (Vector (BitVec 32) 8) 16
  a : Vector (Vector (BitVec 40) 8) 4
  /-- Bit 8a + ℓ: AOV of lane ℓ of Aa, and OVS, 1 for a positive exact result. -/
  (aov ovs : BitVec 32)
  s : Vector (BitVec 32) 16
  (p m l b : Vector (BitVec 16) 8)
  am : BitVec 16
  (sb si : Vector (BitVec 32) 8)
  /-- The rule of the last search op since SRCH.INIT: its op. -/
  rule : Option Nat
  (sc sn : BitVec 32)
  fl : BitVec 8
  pc : Nat
  calls : List Nat
  loops : List DLoop
  (iwp irp : Vector (BitVec 16) 4)
  /-- Items in the ring of each channel: bytes not yet passed, and stamp. -/
  items : Vector (List (Nat × Nat)) 4
  /-- Stamp of the last item whose IRP the core advanced past (R280). -/
  itemStamp : Nat
  stampH : BitVec 32
  (xloc xrem xlen : BitVec 32)
  xerr : Bool
  xfer : Option Xfer
  out : Option DOut
  halted : Bool
  /-- A kernel run has started the core since its memories were last cleared: HALTED of the group shows the cores that
  have halted, not those that were never started (R289). -/
  ran : Bool
  /-- The mask of a WAIT in progress (R279). -/
  waiting : Option Nat
  /-- The core has reached a SYNC (R267). -/
  sync : Bool
  fault : Nat
  entry : Nat
  /-- Cycles since kernel-run, and for each accumulator the cycle from which a read of it does not stall (R266). -/
  cycle : Nat
  ready : Vector Nat 4
  deriving DecidableEq, Repr

/-- A DSP group beside its registers. -/
structure DGroup where
  wakeJob : Nat
  /-- The KERNEL_LOAD packet that waits for the end of LOADING. -/
  load : Option Packet
  /-- Raw tick, stamp and codes of the last TRIG (R281). -/
  trigRaw : Option Nat
  trigStamp : Nat
  trigCode : Nat
  deriving DecidableEq, Repr

structure Vdc where
  cores : Vector DCore 64
  groups : Vector DGroup 8
  /-- Items of each binding dropped since the previous one delivered (R276). -/
  missed : Vector Nat 64
  deriving DecidableEq, Repr

/-! ### RRX, RSF -/

/-- A Raman launch from its trigger to the end of its trace (R217, R222). -/
structure Trace where
  stamp : Nat
  raw : Nat
  tq : Nat
  slewing : Bool
  watch : Bool
  route : Nat
  /-- Native samples of the trace. -/
  len : Nat
  /-- A condition of R222 has failed since the fetch. -/
  bad : Bool
  /-- A buffer was open at the origin. -/
  room : Bool
  deriving DecidableEq, Repr

/-- An accumulation buffer (R223, R229). -/
structure RBuf where
  sums : List RSum
  n : Nat
  (first last tq rejected len route : Nat)
  slewing : Bool
  watch : Bool
  uncal : Bool
  stale : Bool
  routeEnd : Bool
  suspended : Bool
  corr : List RCorr
  /-- The settings that the compute takes as it starts: GAMMA, DA and LOW_TH (R235). -/
  (gamma da low : Nat)
  /-- The coil temperatures chosen, and whether a coil in use is older than 10 s (R227). -/
  coil0 : Option Int
  coil1 : Option Int
  coilStale : Bool
  deriving DecidableEq, Repr

/-- RRX of one port beside its registers. -/
structure Rrx where
  /-- RRX_PORTn_STAT.JOB, the job's handle and its settings (R230, R231). -/
  state : Nat
  job : Nat
  depth : Nat
  sums : Bool
  cont : Bool
  long : Bool
  /-- SUSPEND waits for the end of the trace in hand. -/
  suspending : Bool
  /-- RESUME waits for hods, with its timeout. -/
  resuming : Bool
  /-- The packet of a RESUME that waits for its hods. -/
  resumer : Option Packet
  profile : Nat
  /-- Raman launches whose trigger has fired and whose trace has not begun; the trace in hand. -/
  waiting : List Trace
  hand : Option Trace
  open_ : Option RBuf
  /-- Closed buffers whose compute runs or waits, oldest first. -/
  closed : List RBuf
  /-- Corrections in force and those that wait (R224). -/
  corr : List RCorr
  deferred : Option (List RCorr)
  /-- A window of R236 has ended, and a pass has completed, since power-on (R229). -/
  (quietSeen passed : Bool)
  /-- A route change waits for the last trace on the old route (R232). -/
  leaving : Bool
  /-- Corrections measured by the steps of a pass in progress. -/
  trial : List (List (Int × Nat))
  deriving DecidableEq, Repr

/-- A conversion result of the RSF before it is posted (R245). -/
structure RsfResult where
  ch : Nat
  code : Nat
  burnout : Bool
  ov : Bool
  sat : Bool
  uncal : Bool
  value : Nat
  stamp : Nat
  deriving DecidableEq, Repr

/-- RSF beside its registers (R243 to R254). -/
structure Rsf where
  /-- The active set, under the keys of the shadow registers (R253). -/
  active : List (Nat × Nat)
  /-- A channel register was written since the last check. -/
  dirty : Bool
  /-- A sequence is in progress, and its next channel to look at. -/
  inSeq : Bool
  next : Nat
  /-- 0 between slots, 1 discharge and settle, 2 modulation, 3 self-calibration. -/
  phase : Nat
  /-- The elapsed tick at which the modulation in hand began. -/
  modStart : Nat
  selfcal : Bool
  stopping : Bool
  restart : Bool
  post : List RsfResult
  /-- Clamps engaged now, and at any time of the conversion in hand (R249). -/
  (clamp clampSeen : Nat)
  /-- Per channel: the last conversion, if it may become a confirmed reading (R250): value and stamp. -/
  prev : Vector (Option (Nat × Nat)) 16
  /-- Channels that have a confirmed reading. -/
  good : Nat
  /-- Currents of the excitation sources in µA. -/
  exc : Vector Nat 4
  /-- The balls that burn-out sources and sinks of 1 µA drive (R247). -/
  (source sink : Nat)
  /-- The selections of the last passing self-calibration (R252). -/
  sel : List Nat
  deriving DecidableEq, Repr

/-! ### Ports -/

/-- A course from its fetch to its release (R153, R162). -/
structure Course where
  stamp : Nat
  raw   : Nat
  slot  : Nat
  chirp : Nat
  step  : Nat
  amp   : Nat
  width : Nat
  route : Nat
  /-- Native samples (CPL_LENr of the route). -/
  len   : Nat
  watch : Bool
  dark  : Bool
  fresh : Bool
  reseed : Bool
  slewing : Bool
  test  : Bool
  tq    : Nat
  /-- The sequence number taken at stage 6 (R148). -/
  seq   : Option Nat
  /-- The stamp of the fresh course whose series it continues, its own where it is fresh (R149). -/
  root  : Nat
  ne    : Nat
  /-- PREDICTED and SAT entries, and whether some value carries CLIP or SAT (R162). -/
  (faded satn : Nat)
  clip : Bool
  sat : Bool
  /-- Course number and GAP count at the commit (R162). -/
  (number gaps : Nat)
  deriving DecidableEq, Repr

/-- The configuration of a lane (R127, R136), and the elapsed tick at which its test pattern began. -/
structure LaneSet where
  inv : Bool
  (dly test fixed start : Nat)
  deriving DecidableEq, Repr

/-- What the link words of a port depend on beside their samples, from elapsed tick `since` on. -/
structure LinkEra where
  since : Nat
  /-- PORTn is on, and PLL_S is locked. -/
  (on locked : Bool)
  /-- The elapsed tick from which all eight units convert (R129). -/
  full : Option Nat
  /-- The elapsed tick of the last lock declaration of PLL_S, at which the ÷8 counter is re-phased (R131). -/
  phase : Nat
  /-- Lanes in hard overload (R130). -/
  hovl : Nat
  lanes : Vector LaneSet 4
  deriving DecidableEq, Repr

/-- A replica (R141): WIDTH and CHIRP of its steps, and its taps, complex s1.11. -/
structure Replica where
  (width chirp : Nat)
  taps : List (Int × Int)
  deriving DecidableEq, Repr

/-- A launch between its fetch and its stamp (R98). -/
structure Fetch where
  course : Course
  raman : Bool
  /-- A condition of R222 has failed since the fetch. -/
  bad : Bool
  /-- 0 fetched, 1 past the point of no return, 2 hopped. -/
  stage : Nat
  lost : Bool
  deriving DecidableEq, Repr

/-- An open rollback episode (R153). -/
structure Episode where
  (first last causes count : Nat)
  deriving DecidableEq, Repr

/-- What waits for the release of a port, in order: a course or a GAP record. -/
inductive CplItem where
  | course (c : Course)
  | gap (g : Gap)
  deriving DecidableEq, Repr

/-- The course link: a course with its generation, group index, zones and values, or a GAP record. -/
inductive LinkItem where
  | course (c : Course) (gen ng : Nat) (zones : List ZEntry) (vals : List Nat)
  | gap (g : Gap)
  deriving DecidableEq, Repr

/-- A point that ZON has made. -/
structure Point where
  (entry point value : Nat)
  deriving DecidableEq, Repr

/-- The second course link: points of a course, or a GAP record. -/
inductive PointItem where
  | course (c : Course) (gen : Nat) (zones : List ZEntry) (pts : List Point)
  | gap (g : Gap)
  deriving DecidableEq, Repr

/-- What a port holds beside its registers. -/
structure Port where
  /-- The start in progress is a start in WATCH (R42). -/
  startWatch : Bool
  /-- The last launch came from the WATCH pattern (R42). -/
  lastWatch : Bool
  /-- What a start waits for: 0 nothing, 1 releases, 2 lock, 3 settling, 4 the scan, 5 ZON, 6 hods. -/
  startStage : Nat
  startJob : Nat
  startTmo : Nat
  /-- The state before STARTING. -/
  former : Nat
  /-- Raw tick at which the wait for lock ends (R429). -/
  lockBy : Option Nat
  /-- PORT_STOP jobs that wait for IDLE. -/
  stopJobs : List Nat
  /-- A port-stop command is pending. -/
  stopping : Bool
  /-- A route change: 0 none, 1 old courses return, 2 wait for the scan, 3 settling, 4 the scan, 5 ZON; the
  state before it, its route and its job (R109). -/
  routeStage : Nat
  routeOld : Nat
  routeNew : Nat
  routeJob : Nat
  /-- The running pattern, its next step, and the switch that is asked for: some true to WATCH (R119). -/
  watchPat : Bool
  step : Nat
  switch : Option Bool
  fetched : List Fetch
  /-- Chirp profiles and Raman triggers of launches that have not come to them. -/
  chirps : List Chirp
  ramans : List Trace
  /-- Current of the gate pulse in progress. -/
  pulse : Option Nat
  /-- Raw tick at which TRIG_RMn falls after its last rise (R101). -/
  trigEnd : Option Nat
  /-- Raw ticks of the last launch, of the next one's stamp, of the last launch on each slot, of the last Raman
  trigger and of the last RUN launch. -/
  lastRaw : Option Nat
  nextRaw : Option Nat
  slotRaw : Vector (Option Nat) 8
  ramanRaw : Option Nat
  runRaw : Option Nat
  /-- A bias code that waits to move (R102): 0 none, 1 for the first step of the pattern, 2 for IDLE or HALTED, 3 for
  the first launch of a start. -/
  biasWait : Nat
  /-- The code that the output of BIASn reached last, and the one that it moves to now. -/
  biasOut : Nat
  biasTo : Option Nat
  /-- The last step fetched had LAST at 1. -/
  wrapped : Bool
  /-- Causes on their way to the reference monitor (R151). -/
  causes : Nat
  /-- Courses whose check tone failed or whose chirp was cut, by stamp (R65, R61). -/
  checkFail : List Nat
  /-- Courses fetched and neither committed nor lost, in launch order (R153). -/
  courses : List Course
  episode : Option Episode
  /-- The next course not lost at its fetch is fresh (R517). -/
  freshNext : Bool
  /-- BASE_SEQ, the stamp of the last fresh course that was visited, and that of the last fresh course whose release has
  begun, with its number of records (R149). -/
  (baseSeq freshStamp : Nat)
  folded : Option (Nat × Nat)
  outq : List CplItem
  /-- A release runs. -/
  releasing : Bool
  link : List LinkItem
  points : List PointItem
  /-- GAP records since port start. -/
  gapNo : Nat
  /-- Stamp and kind of the previous committed course that ZON mapped, if RATE can be taken from it (R174). -/
  zonPrev : Option (Nat × Bool)
  fdc : Fdc
  /-- The calibrated selections are loaded (R125). -/
  cdgReady : Bool
  /-- The selections in force (R125), and those of a calibration pass in progress (R134), one list per step: the slices
  of units 0 to 7 on the four lanes, then their taps. -/
  cdgForce : List (List Nat)
  cdgTrial : List (List Nat)
  /-- A window of R132 has ended since power-on. -/
  quietSeen : Bool
  /-- How the link words were formed, newest first. -/
  eras : List LinkEra
  /-- The replicas of the running patterns (R141), and the sum of DELAY and number of steps of the RUN pattern (R188),
  as the port start or the last route change took them. -/
  replicas : List Replica
  (pinC pinS : Nat)
  /-- Courses launched whose near-end window may not have ended (R146), oldest first. -/
  near : List Course
  /-- A test pattern checker has synchronised and shown an error on these lanes (R136). -/
  prbsSeen : Nat
  deriving DecidableEq, Repr

/-! ### DRAM (R340 to R350) -/

structure Memc where
  /-- A DRAM outage is in progress (R343). -/
  outage : Bool
  /-- PLL_M lost lock and the retraining waits for it (R341). -/
  relock : Bool
  /-- A command or a register write started the run, so step 3 trains at TARGET first; and its job (R342). -/
  byTarget : Bool
  job : Nat
  /-- Step of R342 in progress, 0 none; the OP that is trained; the OP and the state at the start of the run. -/
  (step op fromOp fromState : Nat)
  /-- A deferred temperature trigger, and the uptime at which it came (R341). -/
  deferred : Bool
  deferAt : Nat
  /-- Line the scrubber reads next. -/
  line : Nat
  deriving DecidableEq, Repr

/-! ### The route matrix -/

structure Rmd where
  /-- A scan is in progress, and the row driven. -/
  scanning : Bool
  row : Nat
  /-- Elements extended in this scan, and those that wait for an extension in the next (R107, R109, R118). -/
  (ext want : Nat)
  /-- Rows removed from drive, rows and columns that shorted in this scan (R514). -/
  (removed shortRows shortCols : Nat)
  /-- Elements driven and sampled in this scan. -/
  (driven sampled : Nat)
  /-- A clearing scan is asked for, and is running (R118). -/
  clearAsked : Bool
  clearing : Bool
  /-- ILK_CLEAR packets that wait for the clearing scan. -/
  clearWait : List Packet
  deriving DecidableEq, Repr

end Sys2Proof.Machine
end

