-- ==== Sys2Proof/Machine/Init.lean ====
section
/-! DEFINITION. The records of Blocks as they are after device reset, and as a block's power domain finds them when it
turns on (R21, R467). -/

namespace Sys2Proof.Machine

def fprofInit : FProf :=
  { grp := 0, dec := 0, taus := [], slewG := false, slew1 := [], slew2 := [], next := none, first := 0, idx := 0 }

def fdcInit : Fdc :=
  { points := [], profs := Vector.replicate 16 fprofInit, gen := none, zones := [], resets := 0, sync := false, hit := false
    made := Vector.replicate 64 0, dropped := Vector.replicate 64 0, queue := [], inDram := false, lastTq := 0
    lastCourse := 0, lastGaps := 0, lastGen := 0, lastWatch := false }

/-- Before any pass every unit uses slice 0 and tap 32 (R125). -/
def cdgDefault : List (List Nat) := List.replicate 8 [0, 0, 0, 0] ++ List.replicate 8 [32, 32, 32, 32]

def portInit : Port :=
  { startWatch := false, lastWatch := false, startStage := 0, startJob := 0, startTmo := 0, former := 0, lockBy := none
    stopJobs := [], stopping := false, routeStage := 0, routeOld := 0, routeNew := 0, routeJob := 0, watchPat := false
    step := 0, switch := none, fetched := [], chirps := [], ramans := [], pulse := none, trigEnd := none, lastRaw := none
    nextRaw := none, slotRaw := Vector.replicate 8 none, ramanRaw := none, runRaw := none, biasWait := 0, biasOut := 0, biasTo := none
    wrapped := false, causes := 0, checkFail := [], courses := [], episode := none, freshNext := false, baseSeq := 0
    freshStamp := 0, folded := none, outq := [], releasing := false, link := [], points := [], gapNo := 0, zonPrev := none
    fdc := fdcInit, cdgReady := false, cdgForce := cdgDefault, cdgTrial := [], quietSeen := false, eras := []
    replicas := [], pinC := 0, pinS := 0, near := [], prbsSeen := 0 }

/-- The corrections before any pass: O 0 and K 4^r (R221). -/
def corrInit : List RCorr :=
  let one : RCorr := { ofs := [0, 0, 0, 0], gain := [65536, 262144, 1048576, 4194304] }
  [one, one]

def rrxInit : Rrx :=
  { state := 0, job := 0, depth := 0, sums := false, cont := false, long := false, suspending := false
    resuming := false, resumer := none, profile := 0, waiting := [], hand := none, open_ := none, closed := []
    corr := corrInit, deferred := none, quietSeen := false, passed := false, leaving := false, trial := [] }

def rsfInit : Rsf :=
  { active := [], dirty := false, inSeq := false, next := 0, phase := 0, modStart := 0, selfcal := false
    stopping := false, restart := false, post := [], clamp := 0, clampSeen := 0, prev := Vector.replicate 16 none
    good := 0, exc := Vector.replicate 4 0, source := 0, sink := 0, sel := [] }

def synInit : Syn :=
  { acquiring := 0, waiting := 0, firmware := 0, fused := 0, searchOp := 0, active := []
    inc := Vector.replicate 2 (Vector.replicate 8 0), relock := 0, loaded := 0, stepping := false, jump := none, held := 0
    refDown := false, holdStart := 0, slot := Vector.replicate 4 0, chirp := Vector.replicate 4 none, tone := 0 }

def tbuInit : Tbu :=
  { count := 0, raw := 0, running := false, hold := 0, epoch := false, armed := none, tickDelta := none
    past := [], ppsMissed := false, ppsOut := none, refHigh := false }

def tdcInit : Tdc :=
  { run := false, sync := false, falling := false, ref := 0, holdoff := 0, wopen := 0, wclose := 0, timeout := 0
    start := none, last := none, early := none, edges := [], fifo := [], seq := 0, lost := false, block := [], nflag := 0 }

def strmInit : Strm :=
  { dest := 0, ethM := 0, addr := 0, udp := 0, ipv6 := false, queue := [], waitq := [], seq := 0, written := 0, closing := false
    coal := false, lastMsg := none, turn := 0, part := 0 }

def cmdInit : Cmd := { jobs := [], serial := 0, ends := 0, waiting := [], kept := [], open_ := [], arrivals := 0, arr := 0 }

def chanInit : Chan :=
  { fillStart := 0, filled := 0, units := [], gone := none, usize := 0, fillRaw := 0, drops := [], seg := none, done := [], busy := []
    next := 0, inq := [], recorded := 0, lost := 0, buffer := 0, draining := false, suspending := false }

def acqInit : Acq :=
  { ch := Vector.replicate 4 chanInit, tmr0 := none, tmr1 := none, exp0 := 0, exp1 := 0, inbox := []
    gapRanges := Vector.replicate 4 [], lostReports := Vector.replicate 4 [], steps := []
    tinAt := 0, tinMask := 0 }

def aryInit : Ary :=
  { id := 0, udp := 0, master := 0, seq := 0, fireNo := 0, roster := [], relayed := [], joinJob := 0, armJob := 0
    armMask := 0, disarming := false, chans := 0 }

def cmpInit : Cmp :=
  { defs := Vector.replicate 32 { rows := [], set := 0, missed := 0, stopping := false }
    engs := Vector.replicate 4 { queue := [], begun := none, again := false, inB := 0, outB := 0 }, stops := [], starts := [] }

def scoInit : Sco :=
  { queue := [], cur := none, seen := 0, pend := none, base := 0, top := 0, timing := [], tpend := none, sending := false
    delaying := false, startJob := 0, stopJob := 0, failed := false, under := [] }

def zonInit : Zon := { active := [], busy := 0, ng := none, waiter := none }

def eveInit : Eve := { active := [], points := [], alarms := [], sent := Vector.replicate 4 0, seen := Vector.replicate 4 0 }

def memcInit : Memc :=
  { outage := false, relock := false, byTarget := false, job := 0, step := 0, op := 0, fromOp := 0, fromState := 0
    deferred := false, deferAt := 0, line := 0 }

def rmdInit : Rmd :=
  { scanning := false, row := 0, ext := 0, want := 0, removed := 0, shortRows := 0, shortCols := 0, driven := 0
    sampled := 0, clearAsked := false, clearing := false, clearWait := [] }

def dcoreInit : DCore :=
  { v := Vector.replicate 16 (Vector.replicate 8 0#32), a := Vector.replicate 4 (Vector.replicate 8 0#40), aov := 0#32
    ovs := 0#32, s := Vector.replicate 16 0#32, p := Vector.replicate 8 0#16, m := Vector.replicate 8 0#16
    l := Vector.replicate 8 0#16, b := Vector.replicate 8 0#16, am := 0#16, sb := Vector.replicate 8 0#32
    si := Vector.replicate 8 0xFFFFFFFF#32, rule := none, sc := 0#32, sn := 0#32, fl := 0#8, pc := 0, calls := []
    loops := [], iwp := Vector.replicate 4 0#16, irp := Vector.replicate 4 0#16, items := Vector.replicate 4 []
    itemStamp := 0, stampH := 0#32, xloc := 0#32, xrem := 0#32, xlen := 0#32, xerr := false, xfer := none, out := none
    halted := true, ran := false, waiting := none, sync := false, fault := 0, entry := 0, cycle := 0, ready := Vector.replicate 4 0 }

def dgroupInit : DGroup := { wakeJob := 0, load := none, trigRaw := none, trigStamp := 0, trigCode := 0 }

def vdcInit : Vdc :=
  { cores := Vector.replicate 64 dcoreInit, groups := Vector.replicate 8 dgroupInit, missed := Vector.replicate 64 0 }

def retInit : Retention :=
  { fails := 0, reason := 0, footReason := 0, preferred := 0, tried := 0, footReq := false, trip := false }

/-- Only the always-on domain is on, and the reset is asserted. -/
def sysInit : Sys :=
  { uptime := 0, domains := 1, mode := 0, bufUsed := false, phase := .held, ret := retInit, boots := 0, doneAt := 0
    railBad := false, sectionBad := false, wakeAfter := 0, prefRecord := none, verified := 0, revoked := 0, svn := 0
    settled := false, subsys := 0x00841F9B, ocxo := true, ilkIn := true }

def mgtInit : Mgt :=
  { calRun := none, calWait := none, calStep := 0, calIn := false, calJobs := [], calRetry := 0
    calTj := Vector.replicate 9 none, cdgSel := Vector.replicate 4 cdgDefault, rrxCorr := Vector.replicate 4 corrInit, calRef := Vector.replicate 4 none, ring := []
    dramRing := [], flashLog := [], change := none, update := none, snap := none, sensors := [], alert := false }

/-- The UART stands at 115,200 baud (R391), the test logic at IDCODE. -/
def hifInit : Hif :=
  { held := [], cutoff := 0, phase := true, cqNew := 0, spi := [], spiErr := false, spiOvf := false, baud := 115200, jtag := 1
    boundary := [], net := Vector.replicate 2 [], ptp := [], ptpState := 0, ptpMaster := false, ptpOffset := 0, ptpDelay := 0, ptpGm := 0
    ethTurn := Vector.replicate 2 0, ptpRx := Vector.replicate 4 0, ptpTx := Vector.replicate 4 0
    pause := Vector.replicate 2 0, paced := Vector.replicate 2 0 }

end Sys2Proof.Machine
end

