-- ==== Sys2Proof/Machine/State.lean ====
section
/-! DEFINITION. The state of the part, the reasons a step can stop, and the state after device reset. -/

namespace Sys2Proof.Machine

/-- Why a command stops with a fault. -/
inductive Fault where
  /-- An access of a shape that R44 does not accept; safe: the manual gives it no effect. -/
  | illFormed (mnemonic : String)
  deriving DecidableEq, Repr

/-- Why a command has no meaning. -/
inductive Refusal where
  /-- A row whose meaning is not modelled; safe. -/
  | notModelled (mnemonic : String)
  deriving DecidableEq, Repr

/-- What has left the part: the model's own record (log entry 5). -/
inductive Emit where
  /-- An MSI-X message of a vector. -/
  | msix (v : Nat)
  /-- Bytes written to host memory. -/
  | hostWrite (addr : Nat) (bytes : List Nat)
  /-- A UDP payload sent on Ethernet port `m`. -/
  | datagram (m : Fin 2) (addr udp : Nat) (bytes : List Nat)
  /-- The words of a reply printed on the console. -/
  | console (words : List Nat)
  /-- CLEAR_FAULTS sent to a PMBus rail. -/
  | clearFaults (rail : Nat)
  /-- The data of a BAR0 read, of a BAR2 read, and the bytes that the SPI slave shifts out. -/
  | bar0 (v : Nat)
  | bar2 (bytes : List Nat)
  | spi (bytes : List Nat)
  /-- A console answer: what it is and the numbers it shows. -/
  | text (what : String) (vals : List Nat)
  /-- A frame that Ethernet port `m` sends on its own: its protocol and its bytes. -/
  | frame (m : Fin 2) (kind : String) (bytes : List Nat)
  /-- Bits that the test port shifts out. -/
  | tdo (bits : List Bool)
  /-- A transfer on the I2C bus: bus, address and the bytes written. -/
  | i2c (bus addr : Nat) (bytes : List Nat)
  /-- A ball takes a value. -/
  | ball (name : String) (n v : Nat)
  deriving DecidableEq, Repr

structure State where
  /-- Every register field of the map that differs from its reset value, by BAR0 offset and bit (R3 to R5, R40). -/
  regs : List (Nat × Nat)
  /-- Shadow copies of the high words of 64-bit registers, and the high words that wait for their low word (R11). -/
  shadow : List (Nat × Nat)
  wbuf : List (Nat × Nat)
  /-- On-chip memories by BAR2 offset (R43, R332), DRAM by byte address (R338), flash by byte address (R456). -/
  sram : List Host.Cell
  dram : List Host.Cell
  flash : List Host.Cell
  sys : Sys
  syn : Syn
  tbu : Tbu
  tdc : Vector Tdc 8
  ports : Vector Port 4
  rmd : Rmd
  rrx : Vector Rrx 4
  rsf : Rsf
  memc : Memc
  zon : Zon
  eve : Eve
  vdc : Vdc
  cmp : Cmp
  sco : Sco
  /-- Items that the VDC and CMP have read and not handled. -/
  vdcIn : List VItem
  cmpIn : List CmpItem
  cmd : Cmd
  /-- Hod requests that wait, in the order in which they are granted, and the hods held (R435 to R438). -/
  hodQueue : List HodReq
  hodHeld : List (HodUser × Nat)
  streams : Vector Strm 7
  hif : Hif
  acq : Acq
  ary : Ary
  mgt : Mgt
  /-- The model's own: how many free values have been taken (log entry 3), and what has left the part (log entry 5). -/
  fresh : Nat
  out : List Emit
  /-- The model's own: the commands that wait, first in first out. -/
  pending : List Instr
  deriving DecidableEq, Repr

/-- The part while the reset of a power-on is asserted: every field at its reset value, only the always-on domain on,
nothing listed in any memory. -/
def State.reset : State :=
  { regs := [], shadow := [], wbuf := [], sram := [], dram := [], flash := [], sys := sysInit, syn := synInit
    tbu := tbuInit, tdc := Vector.replicate 8 tdcInit, ports := Vector.replicate 4 portInit, rmd := rmdInit
    rrx := Vector.replicate 4 rrxInit, rsf := rsfInit, memc := memcInit, zon := zonInit, eve := eveInit, vdc := vdcInit
    cmp := cmpInit, sco := scoInit, vdcIn := [], cmpIn := [], cmd := cmdInit, hodQueue := [], hodHeld := []
    streams := Vector.replicate 7 strmInit, hif := hifInit, acq := acqInit, ary := aryInit, mgt := mgtInit, fresh := 0
    out := [], pending := [] }

end Sys2Proof.Machine
end

