-- ==== Sys2Proof/Machine/Ops.lean ====
section
/-! DEFINITION. The named operations over State: reading and writing one register field, event flags and their
interrupt vectors (R382, R383), the event log (R441, R442), replies (R378, R397), the job table (R407 to R412), hods
(R435 to R438) and stream queues (R328, R330). -/

namespace Sys2Proof.Machine

/-- What a command answers. -/
abbrev Out := Host.Outcome State Fault Refusal

/-! The bits of PWR_DOMAIN of the power domains (R21). -/

def dMGT : Nat := 1
def dTIME : Nat := 2
def dPORT (n : Nat) : Nat := 3 + n
def dCORE : Nat := 7
def dDSP (g : Nat) : Nat := 8 + g
def dMEM : Nat := 16

end Sys2Proof.Machine

namespace Sys2Proof.Machine.State
open Sys2Proof Arith

/-! ### Fields -/

/-- The value of a field. -/
def rd (s : State) (f : Field) : Nat := Bank.get s.regs f.key f.reset

/-- The state with the field at `v`, cut to its width. -/
def wr (s : State) (f : Field) (v : Nat) : State :=
  { s with regs := Bank.put s.regs f.key (v % 2 ^ f.width) f.reset }

/-- A one-bit field as a Bool. -/
def on (s : State) (f : Field) : Bool := s.rd f != 0

/-- The state with the one-bit field at `b`. -/
def put (s : State) (f : Field) (b : Bool) : State := s.wr f (ofBool b)

/-- Bit `i` of a field. -/
def bit (s : State) (f : Field) (i : Nat) : Bool := (s.rd f).testBit i

/-- The state with bit `i` of the field at `b`. -/
def putBit (s : State) (f : Field) (i : Nat) (b : Bool) : State := s.wr f (Arith.putBit (s.rd f) i b)

/-- The signed value of a field. -/
def rdS (s : State) (f : Field) : Int := toSigned f.width (s.rd f)

/-- The state with the field at the two's complement pattern of `x`, saturating. -/
def wrS (s : State) (f : Field) (x : Int) : State := s.wr f (ofSigned f.width (satSigned f.width x))

/-- Adds `k` to a saturating counter. -/
def count (s : State) (f : Field) (k : Nat := 1) : State := s.wr f (satNat f.width (s.rd f + k))

/-- Adds `k` to a counter that wraps. -/
def bump (s : State) (f : Field) (k : Nat := 1) : State := s.wr f (s.rd f + k)

/-- The stamp of the present tick (R14, R32). -/
def now (s : State) : Nat := s.tbu.count

/-- Adds an effect at the balls or a message to what has left the part. -/
def emit (s : State) (e : Emit) : State := { s with out := s.out ++ [e] }

/-- A fresh free value (log entry 3). -/
def free (s : State) : Nat × State :=
  ((Config.freeValue s.fresh).toNat, { s with fresh := s.fresh + 1 })

/-! ### Domains -/

/-- Bit of PWR_DOMAIN of a power domain. -/
def domOn (s : State) (d : Nat) : Bool := s.sys.domains.testBit d

/-- PORTn is on. -/
def portOn (s : State) (n : Nat) : Bool := s.domOn (dPORT n)

/-! ### Interrupts (R374, R382, R383) -/

/-- Signals MSI-X vector `v`: the message leaves, or its pending bit is set while it is masked or the endpoint is not
in D0 with a link. While CORE is off there is no endpoint (R21). -/
def signal (s : State) (v : Nat) : State :=
  if !s.domOn dCORE then s
  else if s.on (R.HIF_MSIX_MASK v) || s.on R.HIF_STAT_D3HOT || !s.on R.HIF_STAT_LINK_UP
  then s.putBit (R.HIF_PBA_PENDING (v / 32)) (v % 32) true
  else s.emit (.msix v)

/-- The event registers of each vector from 8 on (R382), by BAR0 offset. -/
def evGroups : List (Nat × List Nat) :=
  [(8, [0x40008]), (9, [0x50008]), (10, [0x9000C]), (11, [0xC0004]),
   (12, [0x100008, 0x110008, 0x120008, 0x130008]), (13, [0x160008]),
   (14, [0x180008, 0x188008, 0x190008, 0x198008]), (15, [0x1A0008]), (16, [0x1C0004]), (17, [0x1E0008]),
   (18, [0x200004]), (19, [0x240008]), (20, [0x280008]), (21, [0x2C0008]), (22, [0x300008]), (23, [0x340004]),
   (24, [0x380014]), (25, [0x20004]), (26, [0x10008])]

/-- The vector and the event registers of the register at `off`. -/
def evGroup (off : Nat) : Option (Nat × List Nat) := evGroups.find? fun g => g.2.contains off

/-- Some flag of the event register at `off` is set. -/
def evSet (s : State) (off : Nat) : Bool :=
  s.regs.any fun e => 8 * off ≤ e.1 && e.1 < 8 * off + 32 && e.2 != 0

/-- Sets the flags `m` of an event field, and signals its vector when the OR of the event registers rises. -/
def evMask (s : State) (f : Field) (m : Nat) : State :=
  if m = 0 then s else
  let off := f.key / 32 * 4
  let s' := s.wr f (s.rd f ||| m)
  match evGroup off with
  | none => s'
  | some (v, l) => if l.any (evSet s) then s' else s'.signal v

/-- Sets flag `i` of an event field. -/
def ev (s : State) (f : Field) (i : Nat := 0) : State := s.evMask f (2 ^ i)

/-- After a write to an event register: the vector is signalled again while a bit stays set. -/
def evWritten (s : State) (off : Nat) : State :=
  match evGroup off with
  | none => s
  | some (v, l) => if l.any (evSet s) then s.signal v else s

/-! ### Port states and modes -/

def stIdle : Nat := 0
def stStarting : Nat := 1
def stRun : Nat := 2
def stWatch : Nat := 3
def stRouting : Nat := 4
def stDraining : Nat := 5
def stHalted : Nat := 6

/-- The launch state of port `n` (R119). -/
def pstate (s : State) (n : Nat) : Nat := s.rd (R.PPE_STAT_STATE n)

/-- PORT_RUN[n] and PORT_WATCH[n] of R42: 0 neither, 1 RUN, 2 WATCH. -/
def portShows (s : State) (n : Fin 4) : Nat :=
  let st := s.pstate n
  if st = stIdle || st = stHalted then 0
  else if st = stRun then 1
  else if st = stWatch then 2
  else if st = stStarting then (if s.ports[n].startWatch then 2 else 1)
  else if s.ports[n].lastWatch then 2 else 1

/-- Some bit of PORT_RUN or PORT_WATCH is 1. -/
def anyPortShows (s : State) : Bool := (List.finRange 4).any fun n => s.portShows n != 0

/-- DRAM is disabled (R344). -/
def degraded (s : State) : Bool := s.on R.SYS_GSTAT_DRAM_DEGRADED

/-- DRAM serves requests now: READY or SELF_REFRESH. -/
def dramUp (s : State) : Bool := s.rd R.MEM_STAT_STATE == 2 || s.rd R.MEM_STAT_STATE == 3

/-! ### The port record -/

/-- Changes the record of port `n`. -/
def modPort (s : State) (n : Fin 4) (f : Port → Port) : State :=
  { s with ports := s.ports.set n (f s.ports[n]) }

/-! ### Streams (R328 to R330) -/

/-- Bytes that a record takes in its queue: stream header and padded body. -/
def recBytes (r : Rec) : Nat := 32 + (r.body.length + 3) / 4 * 4

/-- The room of stream `st` for a record of lane `lane` (R330); none where no limit applies here. -/
def streamRoom (st : Nat) : Option Nat :=
  if st = 1 then some 262144 else if st = 2 then some 131072 else if st = 3 then some 786432 else none

/-- The bytes that the queue of stream `st` holds, of one lane for the tile rings. -/
def streamHeld (q : List Rec) (st lane : Nat) : Nat :=
  ((q.filter fun r => st != 1 || r.lane == lane).map recBytes).sum

/-- Shows the queue's level in KB, rounded up (R331). -/
def showLevel (s : State) (st : Fin 7) : State :=
  s.wr (R.CMP_STR_STAT_LEVEL st) (ceilDiv (((s.streams[st]).queue.map recBytes).sum) 1024)

/-- The stream takes no record: it is closed, or closes after the record in hand (R421). -/
def shut (q : Strm) : Bool := q.dest == 0 || q.closing

/-- Offers a record to its stream: discarded and counted while the stream is closed, queued while it has room, and
otherwise waiting in order (R328, R330). -/
def offer (s : State) (st : Fin 7) (r : Rec) : State :=
  let q := s.streams[st]
  if shut q then s.count (R.CMP_STR_DISCARD_COUNT st)
  else
    let fits := (q.waitq.all fun w => st = 1 && w.lane != r.lane) &&
      match streamRoom st with
      | none => true
      | some c => decide (streamHeld q.queue st r.lane + recBytes r ≤ c)
    if fits then ({ s with streams := s.streams.set st { q with queue := q.queue ++ [r] } } : State).showLevel st
    else ({ s with streams := s.streams.set st { q with waitq := q.waitq ++ [r] } } : State).count (R.CMP_STR_WAITS_COUNT st)

/-! ### The event log (R441, R442) -/

/-- The stamp of a log record: the stamp counter, or 1/32,768 s since device reset while it does not run. -/
def logStamp (s : State) : Nat × Nat :=
  if s.tbu.running then (0, s.now) else (1, s.sys.uptime * 32768 / 1250000000)

/-- The bytes of a list of log records. -/
def ringBytes (l : List (List Nat)) : Nat := (l.map fun r => 4 * r.length).sum

/-- Keeps the newest records that fit in `cap` bytes. -/
def trimRing (cap : Nat) : List (List Nat) → List (List Nat)
  | [] => []
  | r :: rest => if ringBytes (r :: rest) ≤ cap then r :: rest else trimRing cap rest

/-- Appends a record of the given words to the rings, the flash copy and stream 6. -/
def logPut (s : State) (sev : Nat) (words : List Nat) : State :=
  let m := s.mgt
  let m := { m with ring := trimRing 65536 (m.ring ++ [words])
                    dramRing := if s.dramUp then trimRing 16777216 (m.dramRing ++ [words]) else m.dramRing
                    flashLog := if 4 ≤ sev then trimRing 262144 (m.flashLog ++ [words]) else m.flashLog }
  let s := { s with mgt := m }
  let s := s.offer 6 { port := 0, rtype := 1, stamp := s.now, body := bytesOfWords words, lane := 0, slot := 0 }
  let s := s.ev R.MGT_EVENT_LOG_NEW
  if 4 ≤ sev then s.ev R.MGT_EVENT_LOG_ERR else s

/-- Logs an event (Log sources and Log codes of R441). -/
def log (s : State) (src sev code detail : Nat) (args : List Nat := []) : State :=
  let s := s.bump R.MGT_LOG_SEQ_SEQ
  let (a, st) := s.logStamp
  s.logPut sev ([(20 + 4 * args.length) * 65536 + src * 256 + sev * 32 + a * 8, s.rd R.MGT_LOG_SEQ_SEQ,
    st % 2 ^ 32, st / 2 ^ 32, code * 65536 + detail % 65536] ++ args)

/-! ### Replies (R378, R379, R385, R386, R390, R397) -/

/-- The six header words of a reply (R397). -/
def replyHeader (r : Reply) : List Nat :=
  [r.op + r.tag * 2 ^ 16 + r.kind * 2 ^ 24, r.status + r.detail % 2 ^ 16 * 2 ^ 16, 4 * r.result.length, r.job,
   r.stamp % 2 ^ 32, r.stamp / 2 ^ 32]

/-- Entries of the ring that a CFG register of `SIZE` gives. -/
def ringEntries (sz : Nat) : Nat := 2 ^ (sz + 4)

/-- Signals vector CQ by COAL_CNT and COAL_US (R383): at once when the count is reached or both are 0. -/
def cqSignal (s : State) : State :=
  let n := s.hif.cqNew + 1
  let c := s.rd R.HIF_CQ_CFG_COAL_CNT
  if c ≤ n then ({ s with hif := { s.hif with cqNew := 0 } } : State).signal 0
  else { s with hif := { s.hif with cqNew := n } }

/-- The command in flight under a tag ends: its tag and its place are free (R400, R401). -/
def tagFree (s : State) (q : Requester) (tag : Nat) : State :=
  { s with cmd := { s.cmd with open_ := s.cmd.open_.filter fun e => !(e.2.req == q && e.2.tag == tag) } }

/-- A completion has been written, or is discarded: the command whose reply it is ends. -/
def completed (s : State) (c : Completion) : State := if c.own then s.tagFree .pcie c.reply.tag else s

/-- Writes one completion entry and its result to host memory (R378). -/
def writeCompletion (s : State) (c : Completion) : State :=
  let tail := s.rd R.HIF_CQ_TAIL_INDEX
  let n := ringEntries (s.rd R.HIF_CQ_CFG_SIZE)
  let bytes := bytesOfWords c.reply.result
  let cut := decide (c.rcap < bytes.length)
  let s := if bytes.isEmpty || c.rcap = 0 then s else s.emit (.hostWrite c.addr (bytes.take c.rcap))
  let entry := replyHeader c.reply ++ [s.rd R.HIF_SQ_HEAD_INDEX,
    ofBool s.hif.phase * 2 ^ 31 + ofBool cut * 2 ^ 30]
  let s := s.emit (.hostWrite (s.rd R.HIF_CQ_BASE_ADDR * 4096 + 32 * tail) (bytesOfWords entry))
  let wrap := decide (tail + 1 = n)
  let s := s.wr R.HIF_CQ_TAIL_INDEX ((tail + 1) % n)
  let s := if wrap then { s with hif := { s.hif with phase := !s.hif.phase } } else s
  (s.completed c).cqSignal

/-- The completion ring is full. -/
def cqFull (s : State) : Bool :=
  (s.rd R.HIF_CQ_TAIL_INDEX + 1) % ringEntries (s.rd R.HIF_CQ_CFG_SIZE) == s.rd R.HIF_CQ_HEAD_INDEX

/-- The endpoint makes DMA: linked and in D0 (R374). -/
def pcieUp (s : State) : Bool := s.on R.HIF_STAT_LINK_UP && !s.on R.HIF_STAT_D3HOT

/-- A completion is discarded and counted (R375, R410). -/
def completionLost (s : State) (c : Completion) : State := (s.completed c).count R.HIF_CQ_LOST_COUNT

/-- Sends a completion on PCIe: written, held while the ring is full or no DMA is made, or discarded while no ring is in
use (R374, R375, R379). Behind the 64 that the device holds, the reply of a command in flight waits to be written, and a
notification cannot be delivered. -/
def sendCompletion (s : State) (c : Completion) : State :=
  if !s.on R.HIF_CQ_CFG_EN then s.completionLost c
  else if s.hif.held.isEmpty && !s.cqFull && s.pcieUp then s.writeCompletion c
  else if s.hif.held.length < 64 || c.own then
    let s := { s with hif := { s.hif with held := s.hif.held ++ [c] } }
    if s.cqFull then s.ev R.HIF_EVENT_CQ_FULL else s
  else s.completionLost c

/-- Writes held completions while the ring has room. -/
def drainHeld (s : State) : Nat → State
  | 0 => s
  | k + 1 =>
    match s.hif.held with
    | [] => s
    | c :: r =>
      if s.cqFull || !s.pcieUp then s
      else drainHeld (({ s with hif := { s.hif with held := r } } : State).writeCompletion c) k

/-- The Ethernet link of port `m` is up. -/
def ethUp (s : State) (m : Fin 2) : Bool :=
  if m.val = 0 then s.on R.HIF_STAT_ETH0_UP else s.on R.HIF_STAT_ETH1_UP

/-- The frames that a UDP payload of `n` bytes takes on port `m`: one, or IP fragments beyond the MTU (R385). -/
def ethFrames (s : State) (m : Fin 2) (n : Nat) : Nat :=
  let mtu := s.rd (R.HIF_ETH_CFG_MTU m)
  let v6 := (s.hif.net[m].headD 0).testBit 1
  if n + 8 + (if v6 then 40 else 20) ≤ mtu then 1
  else ceilDiv (n + 8) ((mtu - (if v6 then 48 else 20)) / 8 * 8)

/-- A good frame arrives on Ethernet port `m`: counted, and handled by `f`. None arrives while the port is not in use
or its link is down. -/
def ethIn (s : State) (m : Fin 2) (f : State → State) : State :=
  if s.on (R.HIF_ETH_CFG_EN m) && s.ethUp m then f (s.count (R.HIF_ETH_RXOK_COUNT m)) else s

/-- Sends a UDP payload on port `m` while its link is up. -/
def udpSend (s : State) (m : Fin 2) (a u : Nat) (l : List Nat) : State :=
  if s.ethUp m then (s.emit (.datagram m a u l)).count (R.HIF_ETH_TXOK_COUNT m) (s.ethFrames m l.length) else s

/-- Sends a reply to its requester over its interface. `seq` is the SEQ of a command, whose reply is
kept on Ethernet (R386); none for a notification or a refused packet. -/
def deliver (s : State) (q : Requester) (r : Reply) (rcap addr : Nat) (seq : Option Nat) : State :=
  match q with
  | .pcie => s.sendCompletion ⟨r, rcap, addr, false⟩
  | .eth m a u =>
    let s := match seq with
      | none => s
      | some k =>
        let mine := (s.cmd.kept.filter fun (e : Requester × Nat × Nat × Reply) =>
          e.1 == q && !(e.2.1 == r.tag && e.2.2.1 == k)).take 127
        let others := s.cmd.kept.filter fun (e : Requester × Nat × Nat × Reply) => e.1 != q
        { s with cmd := { s.cmd with kept := (q, r.tag, k, r) :: mine ++ others } }
    s.udpSend m a u (bytesOfWords (replyHeader r ++ r.result))
  | .spi =>
    if s.hif.spi.length < 8 || r.kind = 0 then { s with hif := { s.hif with spi := s.hif.spi ++ [r] } } else s
  | .console => s.emit (.console (replyHeader r ++ r.result))
  | .firmware => s

/-- The reply to packet `p` that a check refuses before it is a command (R399). -/
def answer (s : State) (p : Packet) (status detail : Nat) : State :=
  s.deliver p.req ⟨p.op, p.tag, 0, status, detail, 0, s.now, []⟩ p.rcap p.result none

/-- The command in flight under a tag was fetched over PCIe before the last link-down or function level reset (R375). -/
def cutOff (s : State) (tag : Nat) : Bool :=
  s.cmd.open_.any fun e => e.2.req == .pcie && e.2.tag == tag && decide (e.1 ≤ s.hif.cutoff)

/-- The reply of a packet in flight. Its tag and its place are free once it is written (R386, R397, R400, R401); over
PCIe that is the write of its completion entry. -/
def reply (s : State) (p : Packet) (status detail : Nat) (job : Nat := 0) (result : List Nat := []) : State :=
  let r : Reply := ⟨p.op, p.tag, 0, status, detail, job, s.now, result⟩
  if p.req = .pcie then
    let c : Completion := ⟨r, p.rcap, p.result, true⟩
    if s.cutOff p.tag then s.completionLost c else s.sendCompletion c
  else (s.tagFree p.req p.tag).deliver p.req r p.rcap p.result (some p.seq)

/-! ### Status codes (R414) -/

def OK : Nat := 0
def ACCEPTED : Nat := 1
def W_DEFERRED : Nat := 0x4001
def W_CLAMPED : Nat := 0x4002
def E_OPCODE : Nat := 0x8001
def E_PARAM : Nat := 0x8002
def E_STATE : Nat := 0x8003
def E_POWER : Nat := 0x8004
def E_BUSY : Nat := 0x8005
def E_TAG : Nat := 0x8006
def E_ACQ_SIZE : Nat := 0x8010
def E_FILTER_RUNNING : Nat := 0x8011
def E_CAL_QUIET : Nat := 0x8012
def E_INTERLOCK : Nat := 0x8013
def E_AUTH : Nat := 0x8020
def E_DRAM : Nat := 0x8021
def E_TIMEOUT : Nat := 0x8030
def E_CANCELLED : Nat := 0x8031
def E_PATTERN : Nat := 0x8040
def E_SLOT : Nat := 0x8041
def E_ROUTE : Nat := 0x8042
def E_LOCK : Nat := 0x8043
def E_LENGTH : Nat := 0x8050
def E_REPLICA : Nat := 0x8051
def E_WATCH_SLOT : Nat := 0x8052
def E_RELEASE : Nat := 0x8053
def E_ZONE_ENTRY : Nat := 0x8054
def E_ZONE_Z0 : Nat := 0x8055
def E_ZONE_POINTS : Nat := 0x8056
def E_ZONE_PRIV : Nat := 0x8057
def E_ZONE_RATE : Nat := 0x8058
def E_ZONE_BUSY : Nat := 0x8059
def E_RAMAN_DEPTH : Nat := 0x8060
def E_RAMAN_SWITCH : Nat := 0x8061
def E_RAMAN_GEOMETRY : Nat := 0x8062
def E_DSP_IMAGE : Nat := 0x8070
def E_DSP_BIND : Nat := 0x8071
def E_DSP_FAULT : Nat := 0x8072
def E_MEM_TRAIN : Nat := 0x8080
def E_MEM_CONFIG : Nat := 0x8081
def E_ARRAY_ROLE : Nat := 0x8090
def E_ARRAY_ID : Nat := 0x8091
def E_ARRAY_TIME : Nat := 0x8092
def E_ARRAY_MEMBER : Nat := 0x8093
def E_INTERNAL : Nat := 0x80FF

/-! ### Jobs (R407 to R412) -/

/-- The handle of a job (R408). -/
def handle (j : Job) : Nat := j.typ * 2 ^ 28 + j.serial % 2 ^ 23 * 32 + j.entry

/-- The state is not final (R409). -/
def live (j : Job) : Bool := j.state == .queued || j.state == .running || j.state == .suspended

/-- The job of a handle. -/
def job? (s : State) (h : Nat) : Option Job :=
  if h = 0 then none else s.cmd.jobs.find? fun j => handle j == h

/-- The lowest free entry, or the entry of the job that ended first. -/
def freeEntry (s : State) : Nat :=
  match (List.range 32).find? (fun e => s.cmd.jobs.all fun j => j.entry != e) with
  | some e => e
  | none => (s.cmd.jobs.filter fun j => !live j).foldl (fun (b : Nat × Nat) j =>
      if j.endNo < b.2 then (j.entry, j.endNo) else b) (0, s.cmd.ends + 1) |>.1

/-- A change down to FOOTING or STANDBY is on its way: its domains turn off (R430). -/
def goingDown (s : State) : Bool := (s.mgt.change.map fun c => decide (c.target < 3)).getD false

/-- A seventeenth unfinished job is refused, and any job while the domains that it needs are about to turn off (R465). -/
def jobRoom (s : State) : Bool := decide ((s.cmd.jobs.filter live).length < 16) && !s.goingDown

/-- Makes a job for packet `p` and gives its handle. -/
def newJob (s : State) (p : Packet) (typ : Nat) (st : JobState) : State × Nat :=
  let e := s.freeEntry
  let began := if st == .queued then 0 else s.now
  let j : Job :=
    { entry := e, typ := typ, serial := s.cmd.serial + 1, op := p.op, state := st, status := 0, detail := 0
      req := p.req, notify := p.notify, words := p.words, result := [], made := s.now, began := began
      ended := 0, endNo := 0, progress := 0, arr := s.cmd.arr, rcap := p.rcap, addr := p.result }
  let jobs := (s.cmd.jobs.filter fun k => k.entry != e) ++ [j]
  ({ s with cmd := { s.cmd with jobs := jobs, serial := s.cmd.serial + 1 } }, handle j)

def modSys (s : State) (f : Sys → Sys) : State := { s with sys := f s.sys }

/-- Changes the job of handle `h`. -/
def modJob (s : State) (h : Nat) (f : Job → Job) : State :=
  { s with cmd := { s.cmd with jobs := s.cmd.jobs.map fun j => if h != 0 && handle j == h then f j else j } }

/-- One unit more of the job's progress (R420). -/
def jobStep (s : State) (h : Nat) : State := s.modJob h fun j => { j with progress := (j.progress + 1) % 2 ^ 32 }

/-- The notification of a job's change of state, when NOTIFY was set (R410). -/
def notifyJob (s : State) (h : Nat) : State :=
  match s.job? h with
  | none => s
  | some j =>
    if j.notify then
      let result := if j.state = .done then j.result else []
      s.deliver j.req ⟨j.op, 0xFE, 1, j.status, j.detail, h, s.now, result⟩ j.rcap j.addr none
    else s

/-- Ends a job in a final state. -/
def endJob (s : State) (h : Nat) (st : JobState) (status detail : Nat) (result : List Nat := []) : State :=
  match s.job? h with
  | none => s
  | some j =>
    if live j then
      let s := s.modJob h fun j =>
        { j with state := st, status := status, detail := detail, result := result, ended := s.now
                 endNo := s.cmd.ends }
      ({ s with cmd := { s.cmd with ends := s.cmd.ends + 1 } } : State).notifyJob h
    else s

def jobDone (s : State) (h : Nat) (detail : Nat := 0) (result : List Nat := []) : State :=
  s.endJob h .done OK detail result
def jobFailed (s : State) (h status : Nat) (detail : Nat := 0) : State := s.endJob h .failed status detail
def jobCancelled (s : State) (h : Nat) : State := s.endJob h .cancelled E_CANCELLED 0

/-- A job enters RUNNING. -/
def jobRuns (s : State) (h : Nat) : State :=
  s.modJob h fun j => { j with state := .running, began := if j.began = 0 then s.now else j.began }

/-- A job enters SUSPENDED, with its notification. -/
def jobSuspended (s : State) (h : Nat) : State :=
  (s.modJob h fun j => { j with state := .suspended }).notifyJob h

/-! ### Hods (R434 to R438) -/

/-- The base grant of the mode. -/
def baseHods (s : State) : Nat := if s.sys.mode = 2 then 4 else if s.sys.mode = 1 then 0 else 16

/-- Hods granted, the base included. -/
def granted (s : State) : Nat := s.baseHods + (s.hodHeld.map Prod.snd).sum

/-- Shows the governor's state in PWR_STAT. -/
def showHods (s : State) : State :=
  (s.wr R.PWR_STAT_GRANTED s.granted).wr R.PWR_STAT_QUEUED s.hodQueue.length

/-- The request fits in the free budget, and its class is granted at this temperature. -/
def hodFits (s : State) (r : HodReq) : Bool :=
  decide (s.granted + r.hods ≤ s.rd R.PWR_BUDGET_BUDGET) && !(r.cls == 1 && s.on R.PWR_STAT_HOT)

def holdsHods (s : State) (u : HodUser) : Bool := s.hodHeld.any fun e => e.1 == u

/-- Gives the hods of a request. -/
def grantHods (s : State) (u : HodUser) (k : Nat) : State :=
  (({ s with hodHeld := s.hodHeld ++ [(u, k)] } : State).ev R.PWR_EVENT_GRANT).showHods

/-- Returns every hod that `u` holds. -/
def releaseHods (s : State) (u : HodUser) : State :=
  ({ s with hodHeld := s.hodHeld.filter fun e => e.1 != u } : State).showHods

/-- Withdraws a queued request. -/
def withdrawHods (s : State) (u : HodUser) : State :=
  ({ s with hodQueue := s.hodQueue.filter fun e => e.user != u } : State).showHods

/-- The place of a request in the queue: by class, then by arrival. -/
def hodInsert (q : List HodReq) (r : HodReq) : List HodReq :=
  q.takeWhile (fun e => e.cls ≤ r.cls) ++ r :: q.dropWhile (fun e => e.cls ≤ r.cls)

/-- What became of a request. -/
inductive HodAnswer where
  | granted | queued | refused
  deriving DecidableEq, Repr

/-- Makes a request (R413, R437): granted in its cycle only when the queue is empty and it fits; with a timeout of 0
it is then refused, else it queues. -/
def requestHods (s : State) (r : HodReq) : State × HodAnswer :=
  if s.holdsHods r.user then (s, .granted)
  else if s.hodQueue.isEmpty && s.hodFits r then (s.grantHods r.user r.hods, .granted)
  else if r.tmo = 0 then (s, .refused)
  else (({ s with hodQueue := hodInsert s.hodQueue r } : State).showHods, .queued)

/-! ### Causes on the status plane (R30, R151) -/

/-- The PPE state of port `n` is RUN, WATCH, ROUTING or DRAINING (R151). -/
def launches (s : State) (n : Nat) : Bool := decide (2 ≤ s.pstate n) && decide (s.pstate n ≤ 5)

def modRrx (s : State) (n : Fin 4) (f : Rrx → Rrx) : State := { s with rrx := s.rrx.set n (f s.rrx[n]) }

/-- A condition of R222 fails: every Raman launch of the port from its fetch to the end of its trace is spoiled. -/
def spoilTraces (s : State) (n : Fin 4) : State :=
  let s := s.modPort n fun p =>
    { p with fetched := p.fetched.map (fun f => { f with bad := true }), ramans := p.ramans.map (fun t => { t with bad := true }) }
  s.modRrx n fun r => { r with waiting := r.waiting.map (fun t => { t with bad := true }), hand := r.hand.map (fun t => { t with bad := true }) }

/-- The causes that spoil Raman traces (R222): PLL_S, INTERLOCK, ROUTE and TIME_STEP. -/
def spoilMask : Nat := 1 + 16 + 32 + 128

/-- Lays the cause bits `m` before the reference monitor of port `n` while it runs; MONITOR_CAUSE takes them. -/
def cause (s : State) (n : Fin 4) (m : Nat) : State :=
  let s := if m &&& spoilMask = 0 then s else s.spoilTraces n
  if s.launches n then s.modPort n fun p => { p with causes := p.causes ||| m } else s

/-- Lays a cause before every port. -/
def causeAll (s : State) (m : Nat) : State := (List.finRange 4).foldl (fun s n => s.cause n m) s

end Sys2Proof.Machine.State
end

