-- ==== Sys2Proof/Machine/Trig.lean ====
section
/-! DEFINITION. Sines and cosines in fixed point, and the rounding that the manual leaves open. Numbers are integers in
units of 2^−64. -/

namespace Sys2Proof.Machine.Trig
open Sys2Proof Arith

def one : Int := 2 ^ 64

/-- `n / d` rounded to one of its neighbours, where the manual does not say which (log entry 75); `site` numbers the
place. -/
def openRound (site : Nat) (n : Int) (d : Nat) : Int :=
  if n % d = 0 then n / d else n / d + (ofBool (Config.roundUp site n d) : Nat)

/-- The square root of `n / d`, rounded to one of its neighbours as in `openRound`. -/
def openSqrt (site n d : Nat) : Nat :=
  let r := isqrt (n / d)
  if r * r * d = n then r else r + ofBool (Config.roundUp site n d)

/-- Mean and RMS about the mean of a list of codes, in units of 1 ÷ 16 and of 1 ÷ 256 (R132, R236). -/
def spread (l : List Int) : Nat × Int :=
  let n := l.length
  let sum := l.sum
  let v := (n : Int) * (l.map fun x => x * x).sum - sum * sum
  (openSqrt 4 (65536 * v.toNat) (n * n), openRound 5 (16 * sum) n)

/-- The terms of atan (1 ÷ d) from power `i` on, `p` being d^−i. -/
def atanSum (d : Nat) : Nat → Nat → Int → Int
  | 0, _, _ => 0
  | k + 1, i, p => p / i - atanSum d k (i + 2) (p / (d * d : Nat))

/-- π, by the formula of Machin, in units of 2^−80. -/
def pi80 : Int := 4 * (4 * atanSum 5 40 1 (2 ^ 80 / 5) - atanSum 239 12 1 (2 ^ 80 / 239))

/-- The series x − x³ ÷ 3! + … (from `i` = 1) or 1 − x² ÷ 2! + … (from `i` = 0): `p` is the term of power `i`, `x2` the
square of the angle. -/
def series (x2 : Int) : Nat → Nat → Int → Int
  | 0, _, _ => 0
  | k + 1, i, p => p - series x2 k (i + 2) (p * x2 / one / ((i + 1) * (i + 2) : Nat))

/-- Sine and cosine of `r`, at most an eighth of a turn, in units of 2^−48 of a turn. -/
def eighth (r : Nat) : Int × Int :=
  let x : Int := (r : Int) * (2 * pi80) / 2 ^ 64
  (series (x * x / one) 14 1 x, series (x * x / one) 14 0 one)

/-- Sine and cosine of `x`, in units of 2^−48 of a turn. -/
def sinCos (x : Nat) : Int × Int :=
  let r := x % 2 ^ 46
  let (a, b) := if r ≤ 2 ^ 45 then eighth r else ((eighth (2 ^ 46 - r)).2, (eighth (2 ^ 46 - r)).1)
  match x / 2 ^ 46 % 4 with
  | 0 => (a, b)
  | 1 => (b, -a)
  | 2 => (-a, -b)
  | _ => (-b, a)

/-- The part of an argument in the first quadrant, by bisection on the bits of `k` from `j` down: the largest angle, in
units of 2^−16 of a turn, that is at most that of (i, q). -/
def argLoop (i q : Int) : Nat → Nat → Nat
  | 0, k => k
  | j + 1, k =>
    let c := k + 2 ^ j
    let (sn, cs) := sinCos (c * 2 ^ 32)
    argLoop i q j (if i * sn ≤ q * cs then c else k)

/-- The argument of the number (i, q), not zero, in units of 2^−15 π rad, rounded down. -/
def arg (i q : Int) : Nat :=
  if 0 < i && 0 ≤ q then argLoop i q 14 0
  else if i ≤ 0 && 0 < q then 2 ^ 14 + argLoop q (-i) 14 0
  else if i < 0 && q ≤ 0 then 2 ^ 15 + argLoop (-i) (-q) 14 0
  else 2 ^ 15 + 2 ^ 14 + argLoop (-q) i 14 0

end Sys2Proof.Machine.Trig
end

