-- ==== Sys2Proof/Machine/Link.lean ====
section
/-! DEFINITION. The sample links (R127, R129 to R131, R136): how the conditions under which link words are formed change,
and the link word of a lane at a tick. Ticks are elapsed ticks of PLL_S. -/

namespace Sys2Proof.Machine.State
open Sys2Proof Arith

/-! ### The course of the conditions -/

def laneOff : LaneSet := { inv := false, dly := 0, test := 0, fixed := 0, start := 0 }

/-- PORTn is off. -/
def eraOff : LinkEra :=
  { since := 0, on := false, locked := false, full := some 0, phase := 0, hovl := 0, lanes := Vector.replicate 4 laneOff }

/-- The conditions now. -/
def eraNow (s : State) (n : Fin 4) : LinkEra := s.ports[n].eras.headD eraOff

/-- From this tick on the conditions of port `n` are changed by `f`. -/
def era (s : State) (n : Fin 4) (f : LinkEra → LinkEra) : State :=
  let e := s.eraNow n
  if f e = e then s
  else
    s.modPort n fun p =>
      { p with eras := { f e with since := s.tbu.raw } :: p.eras.dropWhile fun x => x.since == s.tbu.raw }

/-- All eight units convert from tick `t` on, if they do not already (R129). -/
def fullRate (s : State) (n : Fin 4) (t : Nat) : State :=
  (s.put (R.CDG_PORT_STAT_FULL_RATE n) true).era n fun e => { e with full := e.full <|> some t }

/-- The lanes drop to reduced rate (R129). -/
def reducedRate (s : State) (n : Fin 4) : State :=
  (s.put (R.CDG_PORT_STAT_FULL_RATE n) false).era n fun e => { e with full := none }

/-- The lock state of PLL_S, as the links show it (R131). -/
def linkLock (s : State) (b : Bool) : State :=
  let s := if b then { s with syn := { s.syn with relock := s.tbu.raw } } else s
  (List.finRange 4).foldl (fun (s : State) n =>
    s.era n fun e => { e with locked := b, phase := if b then s.tbu.raw else e.phase }) s

/-- CDG_LANEl_CFG of lane `k` of port `n`, whose pattern begins at this tick (R136). -/
def laneSet (s : State) (n : Fin 4) (k : Nat) : LaneSet :=
  { inv := s.on (R.CDG_LANE_CFG_INVERT n k), dly := s.rd (R.CDG_LANE_CFG_DLY n k), test := s.rd (R.CDG_LANE_CFG_TEST n k)
    fixed := s.rd (R.CDG_LANE_CFG_FIXED n k), start := s.tbu.raw }

/-- The configuration of lane `k` takes effect on its link. -/
def linkLane (s : State) (n k : Fin 4) : State := s.era n fun e => { e with lanes := e.lanes.set k (s.laneSet n k) }

/-- PORTn turns on. -/
def linkOn (s : State) (n : Fin 4) : State :=
  s.era n fun e =>
    { e with on := true, locked := s.bit R.SYN_STAT_LOCK 0, full := some s.tbu.raw, phase := s.syn.relock, hovl := 0
             lanes := Vector.ofFn fun k => s.laneSet n k.val }

/-- PORTn turns off: every word is EMPTY (R291). -/
def linkOff (s : State) (n : Fin 4) : State := s.era n fun e => { e with on := false }

/-! ### Link words -/

/-- A link word (R127). -/
structure LinkWord where
  (unlocked test empty clip : Bool)
  code : Int
  deriving DecidableEq, Repr

/-- The conditions at tick `t`. -/
def eraAt (l : List LinkEra) (t : Int) : LinkEra := (l.find? fun e => decide ((e.since : Int) ≤ t)).getD eraOff

/-- Tick `t` belongs to unit 0 or 4 (R129): the ÷8 counter starts from unit 0 at the lock declaration (DESIGN CHOICE, log
entry 74). -/
def unitTick (e : LinkEra) (t : Int) : Bool := (t - e.phase) % 4 == 0

/-- A unit converts at tick `t` (R129). -/
def converts (e : LinkEra) (t : Int) : Bool :=
  e.on && (unitTick e t || match e.full with
    | some x => decide ((x : Int) ≤ t)
    | none => false)

/-- The shift register of PRBS-15 after `i` bits: bit 14 is the next bit of the sequence (R136). Its first fifteen bits are
the seed of all ones (DEDUCED, log entry 74). -/
def prbsReg : Nat → Nat
  | 0 => 0x7FFF
  | i + 1 =>
    let r := prbsReg i
    r % 2 ^ 14 * 2 + ofBool (r.testBit 14 != r.testBit 13)

/-- Group `i` of 12 bits of PRBS-15, the earliest bit the highest. The sequence repeats after 2^15 − 1 bits. -/
def prbsCode (i : Nat) : Nat :=
  let at_ (j : Nat) : Bool := (prbsReg ((12 * i + j) % (2 ^ 15 - 1))).testBit 14
  (List.range 12).foldl (fun a j => 2 * a + ofBool (at_ j)) 0

/-- The test pattern in the place of code `x` at tick `t` (R136). -/
def patternCode (c : LaneSet) (t : Nat) (x : Int) : Int :=
  match c.test with
  | 1 => 0
  | 2 => toSigned 12 c.fixed
  | 4 => toSigned 12 (t - c.start)
  | 5 => toSigned 12 (prbsCode (t - c.start))
  | _ => x

/-- INVERT (R127). -/
def invertCode (x : Int) : Int := if x = -2048 then 2047 else -x

/-- Full scale (R130). -/
def atScale (x : Int) : Bool := x == -2048 || x == 2047

/-- The link word of lane `k` at tick `t`, where the converter's code at tick `t'` is `ball t'` (R127). A clip is judged on
the code before INVERT, and on the code of a digital pattern; the tone comes through the whole lane (DEDUCED, log entry
74). -/
def linkWord (l : List LinkEra) (k : Fin 4) (t : Int) (ball : Int → Int) : LinkWord :=
  let e := eraAt l t
  let c := e.lanes[k]
  let t0 := t - c.dly
  let e0 := eraAt l t0
  let digital := c.test != 0 && c.test != 6
  let x := ball t0
  let code := patternCode c t.toNat (if c.inv then invertCode x else x)
  let empty := !e.on || !converts e0 t0 || (decide ((e.phase : Int) < t) && decide (t ≤ e.phase + 64))
  { unlocked := !e0.locked, test := c.test != 0, empty := empty
    clip := !empty && (if digital then atScale code else atScale x || (c.test == 0 && e0.hovl.testBit k))
    code := if empty then 0 else code }

/-- The code of lane `k` in what the four converters give. -/
def laneOf (c : Codes) (k : Fin 4) : Int :=
  match k with
  | 0 => c.xi.toInt
  | 1 => c.xq.toInt
  | 2 => c.yi.toInt
  | 3 => c.yq.toInt

/-- The code of lane `k` at tick `t`, in codes that begin at tick `t0`; 0 outside them (log entry 73). -/
def codeAt (xs : List Codes) (t0 : Int) (k : Fin 4) (t : Int) : Int :=
  if t < t0 then 0
  else
    match xs[(t - t0).toNat]? with
    | some c => laneOf c k
    | none => 0

/-- The codes of lane `k` of port `n` in the link words that are not EMPTY, newest first, where the converters gave the
codes `xs` up to this tick. The first seven only feed DLY. -/
def linkCodes (s : State) (n k : Fin 4) (xs : List Codes) : List Int :=
  let t0 : Int := s.tbu.raw + 1 - xs.length
  ((List.range (xs.length - 7)).filterMap fun (i : Nat) =>
    let w := linkWord s.ports[n].eras k (t0 + 7 + i) (codeAt xs t0 k)
    if w.empty then none else some w.code).reverse

/-- RMS and mean of each lane over the last `len` of these codes. -/
def laneSpread (s : State) (n : Fin 4) (xs : List Codes) (len : Nat) : List (Nat × Int) :=
  (List.finRange 4).map fun k => Trig.spread ((s.linkCodes n k xs).take len)

end Sys2Proof.Machine.State
end

