-- ==== Sys2Proof/Machine/Lookup.lean ====
section
/-! DEFINITION. Finding the register at a BAR0 offset, and the power domain that an offset belongs to (R9, R29, R39,
R40). -/

namespace Sys2Proof.Machine
open Sys2Proof Arith

/-- Splits an offset from a register's base into index shifts and a rest. -/
def splitDims : List (Nat × Nat) → Nat → Nat × Nat
  | [], rem => (0, rem)
  | (st, k) :: l, rem =>
    let i := min (k - 1) (rem / st)
    let (d, r) := splitDims l (rem - i * st)
    (i * st + d, r)

/-- The place of `off` in a register: the shift of the instance, and whether it is the high word. -/
def Reg.place (r : Reg) (off : Nat) : Option (Nat × Bool) :=
  if off < r.base then none
  else
    let (d, rem) := splitDims r.dims (off - r.base)
    if rem = 0 then some (d, false) else if rem = 4 && r.wide then some (d, true) else none

/-- A register instance at an offset: the register, the shift of its fields, and whether the high word is meant. -/
structure Hit where
  reg : Reg
  d   : Nat
  hi  : Bool
  deriving DecidableEq, Repr

def findReg : List Reg → Nat → Option Hit
  | [], _ => none
  | r :: l, off =>
    match r.place off with
    | some (d, hi) => some ⟨r, d, hi⟩
    | none => findReg l off

/-- The registers of the window that holds `off` (R39). -/
def windowRegs (off : Nat) : List Reg :=
  if off < 0x10000 then RegMap.sys
  else if off < 0x20000 then RegMap.pwr
  else if off < 0x40000 then RegMap.mgt
  else if off < 0x50000 then RegMap.syn
  else if off < 0x80000 then RegMap.tbu
  else if off < 0xC0000 then RegMap.ldr
  else if off < 0x100000 then RegMap.cdg
  else if off < 0x140000 then RegMap.cpl
  else if off < 0x180000 then RegMap.zon
  else if off < 0x1C0000 then RegMap.fdc
  else if off < 0x1E0000 then RegMap.rrx
  else if off < 0x200000 then RegMap.rsf
  else if off < 0x240000 then RegMap.vdc
  else if off < 0x280000 then RegMap.acq
  else if off < 0x2C0000 then RegMap.cmp
  else if off < 0x300000 then RegMap.mem
  else if off < 0x340000 then RegMap.sco
  else if off < 0x380000 then RegMap.hif
  else if off < 0x3C0000 then RegMap.ary
  else []

/-- The register at a BAR0 offset, if one occupies it. -/
def regAt (off : Nat) : Option Hit := findReg (windowRegs off) off

/-- The port whose range of a shared window holds `off` (R29, R40, R137, R239): launch, CDG, CPL and RRX windows.
LDR_BIAS is supplied from CORE (R22, log entry 13). -/
def portOfOffset (off : Nat) : Option Nat :=
  if 0x80000 ≤ off && off < 0x90000 then
    if (off - 0x80000) % 0x4000 = 4 then none else some ((off - 0x80000) / 0x4000)
  else if 0xC1000 ≤ off && off < 0xC5000 then some ((off - 0xC1000) / 0x1000)
  else if 0x100000 ≤ off && off < 0x140000 then some ((off - 0x100000) / 0x10000)
  else if 0x1C1000 ≤ off && off < 0x1C5000 then some ((off - 0x1C1000) / 0x1000)
  else none

/-- The power domain that serves `off` (R39); none outside every window. -/
def domainOf (off : Nat) : Option Nat :=
  match portOfOffset off with
  | some n => some (dPORT n)
  | none =>
    if off < 0x40000 then some dMGT
    else if off < 0x80000 then some dTIME
    else if 0x204000 ≤ off && off < 0x205000 then some (dDSP ((off - 0x204000) / 0x200))
    else if 0x2C0000 ≤ off && off < 0x300000 then some dMEM
    else if off < 0x3C0000 then some dCORE
    else none

/-- The register at `off` is retained while its domain is off (R22). -/
def retainedAt (off : Nat) : Bool :=
  match regAt off with
  | some h => h.reg.retained
  | none => false

end Sys2Proof.Machine

namespace Sys2Proof.Machine.State
open Sys2Proof

/-- A write of a register at `off` reaches its block only while the domain is on (R29). -/
def gate (s : State) (off : Nat) (f : State → State) : State :=
  match domainOf off with
  | none => s
  | some d => if s.domOn d || retainedAt off then f s else s.ev R.SYS_GSTAT_PD_ACCESS

end Sys2Proof.Machine.State
end

