-- ==== Sys2Proof/Machine/Mem.lean ====
section
/-! DEFINITION. The addressed memories: lists of (address, byte) in rising order of address, without an entry equal to
what an unlisted address reads as, and the named operations over them (R43, R332, R338). -/

namespace Sys2Proof.Machine
open Sys2Proof Arith

namespace Mem

/-- The byte at `a`, where an unlisted address reads as `d`. -/
def read : List Host.Cell → Byte → Nat → Byte
  | [], d, _ => d
  | (k, v) :: r, d, a => if k = a then v else read r d a

/-- The memory with nothing listed at `a`. -/
def erase : List Host.Cell → Nat → List Host.Cell
  | [], _ => []
  | (k, v) :: r, a => if k = a then erase r a else (k, v) :: erase r a

/-- The memory, which lists nothing at `a`, with `v` listed there. -/
def insert : List Host.Cell → Nat → Byte → List Host.Cell
  | [], a, v => [(a, v)]
  | (k, w) :: r, a, v => if a < k then (a, v) :: (k, w) :: r else (k, w) :: insert r a v

/-- Writes the byte `v` at `a`: the value an unlisted address reads as is not listed. -/
def write (m : List Host.Cell) (d : Byte) (a : Nat) (v : Byte) : List Host.Cell :=
  if v = d then erase m a else insert (erase m a) a v

/-- Writes bytes from `a` upward. -/
def writes (d : Byte) : List Host.Cell → Nat → List Nat → List Host.Cell
  | m, _, [] => m
  | m, a, b :: r => writes d (write m d a (BitVec.ofNat 8 b)) (a + 1) r

/-- `n` bytes from `a` upward. -/
def reads (m : List Host.Cell) (d : Byte) (a : Nat) : Nat → List Nat
  | 0 => []
  | n + 1 => (read m d a).toNat :: reads m d (a + 1) n

/-- Drops the entries with lo ≤ address < hi. -/
def drop (m : List Host.Cell) (lo hi : Nat) : List Host.Cell :=
  m.filter fun c => !(decide (lo ≤ c.1) && decide (c.1 < hi))

/-- The canonical form: addresses rise strictly, and no entry equals what an unlisted address reads as. -/
def wf : List Host.Cell → Byte → Bool
  | [], _ => true
  | [(_, v)], d => v != d
  | (a, v) :: (b, w) :: r, d => (v != d) && decide (a < b) && wf ((b, w) :: r) d

end Mem

namespace State

/-- What an unlisted byte reads as: on-chip memory is cleared at boot (R455) and reads 0; DRAM that nothing has
written reads 0 (log entry 6, DESIGN CHOICE); erased flash reads 0xFF (R444). -/
def sramFill : Byte := 0#8
def dramFill : Byte := 0#8
def flashFill : Byte := 255#8

def sramPut (s : State) (a : Nat) (l : List Nat) : State := { s with sram := Mem.writes sramFill s.sram a l }
def sramGet (s : State) (a n : Nat) : List Nat := Mem.reads s.sram sramFill a n
def dramPut (s : State) (a : Nat) (l : List Nat) : State := { s with dram := Mem.writes dramFill s.dram a l }
def dramGet (s : State) (a n : Nat) : List Nat := Mem.reads s.dram dramFill a n
def flashPut (s : State) (a : Nat) (l : List Nat) : State := { s with flash := Mem.writes flashFill s.flash a l }
def flashGet (s : State) (a n : Nat) : List Nat := Mem.reads s.flash flashFill a n

/-- A little-endian word of `n` bytes of on-chip memory. -/
def sramWord (s : State) (a n : Nat) : Nat := ofLeBytes (s.sramGet a n)
def sramPutWord (s : State) (a n v : Nat) : State := s.sramPut a (leBytes n v)

/-- Usable DRAM capacity in bytes (R337), 0 while OFF or DEGRADED. -/
def capacity (s : State) : Nat := s.rd R.MEM_DRAM_STAT_CAP_MB * 1048576

/-- DRAM offset of the acquisition area (R338). -/
def acqArea : Nat := 0x23000000

/-! ### Errors (R334, R351) -/

/-- The requester codes of R351. -/
def reqCPL : Nat := 0
def reqFDC : Nat := 2
def reqEVE : Nat := 3
def reqACQ : Nat := 6
def reqCMP : Nat := 7
def reqBAR2 : Nat := 10
def reqScrub : Nat := 13

/-- `k` single-bit errors were corrected in memory `mem` by requester `req`. -/
def eccCorrected (s : State) (mem req k addr : Nat) : State :=
  if k = 0 then s
  else
    ((s.count R.MEM_ERR_CE_COUNT k).ev R.MEM_EVENT_CE).log 18 1 0x0062 (mem * 4096 + req * 256) [addr % 2 ^ 32, addr / 2 ^ 32]

/-- An uncorrectable error at byte `addr` of memory `mem`, read by `req`: recorded if it is the first since
MEM_EVENT.UE was last clear, counted and logged. -/
def eccUncorrectable (s : State) (mem req addr : Nat) : State :=
  let s := if s.on R.MEM_EVENT_UE then s
    else ((s.wr R.MEM_ERR_ADDR_ADDR addr).wr R.MEM_ERR_INFO_MEM mem).wr R.MEM_ERR_INFO_REQ req
  ((s.count R.MEM_ERR_UE_COUNT).ev R.MEM_EVENT_UE).log 18 4 0x0061 (mem * 4096 + req * 256)
    [addr % 2 ^ 32, addr / 2 ^ 32]

/-- What the codes of memory `mem` can show: DRAM carries a check only with ECC_EN (R337). -/
def eccOf (s : State) (mem : Nat) (e : Ecc) : Ecc :=
  if mem = 4 && !s.on R.MEM_DRAM_CFG_ECC_EN then { ce := 0, ue := [] } else e

/-- What the codes showed in a step that read memory `mem`: `at_` gives the byte address of a place. -/
def eccSeen (s : State) (mem req : Nat) (e : Ecc) (at_ : Nat → Nat) : State :=
  let e := s.eccOf mem e
  e.ue.foldl (fun (s : State) i => s.eccUncorrectable mem req (at_ i)) (s.eccCorrected mem req e.ce (at_ 0))

end State
end Sys2Proof.Machine
end

