-- ==== Sys2Proof/Machine/Trigger.lean ====
section
/-! DEFINITION. ACQ triggers: the inputs and the sequencer (R296 to R299), placing a segment on a FIRE (R300 to R302),
completing and releasing it (R303 to R308), the end of a channel's job (R309), and the fires that ARY sends (R482,
R483). -/

namespace Sys2Proof.Machine.State
open Sys2Proof Arith

def modCh (s : State) (k : Fin 4) (f : Chan → Chan) : State :=
  { s with acq := { s.acq with ch := s.acq.ch.set k (f s.acq.ch[k]) } }

def cIdle : Nat := 0
def cFilling : Nat := 1
def cReady : Nat := 2
def cPost : Nat := 3
def cRearm : Nat := 4
def cFull : Nat := 5
def cSuspended : Nat := 6

def cstate (s : State) (k : Fin 4) : Nat := s.rd (R.ACQ_CH_STAT_STATE k)
def setCstate (s : State) (k : Fin 4) (v : Nat) : State := s.wr (R.ACQ_CH_STAT_STATE k) v

/-- PRE := SEG − POST (R295). -/
def chPre (s : State) (k : Fin 4) : Nat := s.rd (R.ACQ_CH_SEG_UNITS k) - s.rd (R.ACQ_CH_POST_UNITS k)

/-- The channel enters FILLING in a slot with an empty history (R300). -/
def chFill (s : State) (k : Fin 4) (slot : Nat) : State :=
  let wait := if s.rd (R.ACQ_CH_CFG0_SRC k) = 0 then 32 - s.now % 32 else 0
  let s := s.modCh k fun c =>
    { c with fillStart := stampAdd s.now wait, fillRaw := s.tbu.raw + s.tbu.hold + wait, filled := 0, units := []
             gone := none, drops := [], next := slot }
  (s.wr (R.ACQ_CH_STAT_SLOT k) slot).setCstate k (if s.chPre k = 0 then cReady else cFilling)

/-- A trigger that makes no segment: its counter, LOSTTRIG of the next segment and the event (R300, R306). -/
def chLost (s : State) (k : Fin 4) (f : Field) : State :=
  ((s.count f).modCh k fun c => { c with lost := satNat 32 (c.lost + 1) }).ev R.ACQ_EVENT_LOSTTRIG k

/-- PANIC shows while the write buffer of some DRAM channel holds PANIC_TH KB (R294). -/
def showPanic (s : State) : State :=
  s.put R.ACQ_STAT_PANIC ((List.finRange 4).any fun k =>
    s.on (R.ACQ_CH_CFG0_MEM k) && decide (s.rd R.ACQ_CTRL_PANIC_TH * 1024 ≤ s.acq.ch[k].buffer))

/-- The job of channel `k` ends: JOB, IDLE, the event and the job-table entry (R309). -/
def chEnd (s : State) (k : Fin 4) (code : Nat) (st : JobState) (status : Nat) : State :=
  let s := (s.wr (R.ACQ_CH_STAT_JOB k) code).setCstate k cIdle
  let s := s.putBit R.ACQ_STAT_ARMED k false
  let s := s.modCh k fun c =>
    { c with seg := none, done := [], draining := false, suspending := false, units := [], inq := [], buffer := 0 }
  (s.showPanic.ev R.ACQ_EVENT_DONE k).endJob (s.rd (R.ACQ_CH_JOB_VALUE k)) st status 0

/-- The channel reads out by stream (R308). -/
def chStream (s : State) (k : Fin 4) : Bool := !s.on (R.ACQ_CH_CFG0_MODE k)

/-- Nothing of the channel is left to complete, release or take. -/
def chSettled (s : State) (k : Fin 4) : Bool :=
  let c := s.acq.ch[k]
  c.seg.isNone && c.done.isEmpty && (!s.chStream k || c.busy.isEmpty)

/-- The job ends DONE when the COUNT-th segment has been released and taken, or when a DISARM has drained (R309). -/
def chCheckEnd (s : State) (k : Fin 4) : State :=
  let c := s.acq.ch[k]
  let n := s.rd (R.ACQ_CH_COUNT_COUNT k)
  let job := s.rd (R.ACQ_CH_STAT_JOB k)
  if (job = 1 || job = 2) && s.chSettled k && (c.draining || (job = 1 && n != 0 && decide (n ≤ c.recorded)))
  then s.chEnd k 3 .done OK else s

/-- The sixteen header words of a released segment (R306). -/
def segHeader (s : State) (k : Fin 4) (g : Segment) (valid : Bool) : List Nat :=
  let src := s.rd (R.ACQ_CH_CFG0_SRC k)
  [g.first % 2 ^ 32, g.first / 2 ^ 32, g.trig % 2 ^ 32, g.trig / 2 ^ 32,
   src * 2 ^ 30 + s.rd (R.ACQ_CH_CFG0_PORT k) * 2 ^ 28 + k * 2 ^ 26 + g.cond * 2 ^ 21 + g.input * 2 ^ 17
     + (if src = 2 then s.rd (R.ACQ_CH_CFG0_PROFILE k) * 2 ^ 13 + s.rd (R.ACQ_CH_CFG0_KIND k) * 2 ^ 11 else 0),
   g.flags, g.pre, g.post, g.segno, g.lost, if valid then g.ofs else 0, g.data.length,
   s.rd (R.ACQ_CH_JOB_VALUE k), g.origin * 512 + g.slot, g.gaps, ofBool valid * 2 ^ 31]

/-- Releases a segment: to the segment stream, or to its directory entry in HOLD (R305, R306, R308). -/
def chRelease (s : State) (k : Fin 4) (g : Segment) : State :=
  let s := ((s.bump (R.ACQ_CH_SEGS_COUNT k)).ev R.ACQ_EVENT_RELEASE k).jobStep (s.rd (R.ACQ_CH_JOB_VALUE k))
  let g := { g with segno := s.rd (R.ACQ_CH_SEGS_COUNT k) }
  if s.chStream k then
    let gone := shut s.streams[4]
    let s := s.offer 4
      { port := s.rd (R.ACQ_CH_CFG0_PORT k), rtype := 1, stamp := s.now
        body := bytesOfWords (s.segHeader k g false) ++ g.data, lane := k, slot := g.slot }
    let s := if gone then s.modCh k fun c => { c with busy := c.busy.filter (· != g.slot) } else s
    s.chCheckEnd k
  else
    let ws := s.segHeader k g true
    ((List.range 16).foldl (fun s w => s.wr (R.ACQ_CH_DIR_WORD k g.slot w) (ws.getD w 0)) s).chCheckEnd k

/-- The port of the channel. -/
def chPort (s : State) (k : Fin 4) : Fin 4 := Fin.ofNat 4 (s.rd (R.ACQ_CH_CFG0_PORT k))

/-- The elapsed tick at which the counter comes to stamp `t`, by the changes of its course `l`, newest first, the
last of which ends before tick `stop`: the newest such tick, or the tick of the step that passes `t` over. -/
def tickOf (t : Nat) : List Bend → Option Nat → Option Nat
  | [], _ => none
  | b :: r, stop =>
    if stampLt t b.count then tickOf t r (some b.raw)
    else
      let x := b.raw + b.hold + stampSub t b.count
      some (match stop with
        | some y => min x y
        | none => x)

/-- The elapsed tick of stamp `t` (R17, R304): before the changes that are kept, as if there had been none (DEDUCED, log
entry 84). -/
def rawAt (s : State) (t : Nat) : Nat :=
  (tickOf t s.tbu.past none).getD (s.tbu.raw - stampSub s.now t)

/-- How many of the ranges overlap first to last. -/
def overlaps (l : List (Nat × Nat)) (first last : Nat) : Nat :=
  (l.filter fun r => !stampLt last r.1 && !stampLt r.2 first).length

/-- GAP_OVERLAP and GAPS of a segment (R304, R306). -/
def segGaps (s : State) (k : Fin 4) (g : Segment) : Segment :=
  let p := s.chPort k
  let ranges := if s.rd (R.ACQ_CH_CFG0_SRC k) = 0 then s.acq.lostReports[p] else s.acq.gapRanges[p]
  let gaps := overlaps ranges g.first g.last
  { g with gaps := gaps, flags := g.flags ||| (if gaps = 0 then 0 else 2) }

/-- The flags of R304 that stand when a segment is complete, at elapsed tick `stop`: TIME_STEP, OVERRUN (`lost`) and
ARRAY. -/
def segFlags (s : State) (g : Segment) (stop : Nat) (lost : Bool) : Segment :=
  let step := s.acq.steps.any fun t => decide (g.at_ < t) && decide (t ≤ stop)
  { g with flags := g.flags ||| (if step then 4 else 0) ||| (if lost then 8 else 0) ||| (if g.array then 128 else 0) }

/-- A segment is complete: the channel enters REARM, the slot is taken (R303). A COURSE or FRAME segment is released
at once; a RAW one joins the segments that wait for the reports of CPL (R305). -/
def chComplete (s : State) (k : Fin 4) (g : Segment) : State :=
  let raw := s.rd (R.ACQ_CH_CFG0_SRC k) = 0
  let s := s.modCh k fun c =>
    { c with seg := none, busy := c.busy ++ [g.slot], recorded := c.recorded + 1
             next := (g.slot + 1) % max 1 (s.rd (R.ACQ_CH_COUNT_NSEG k))
             done := if raw then c.done ++ [g] else c.done }
  let s := if s.acq.ch[k].suspending then
      (s.setCstate k cSuspended).modCh k fun c => { c with suspending := false }
    else s.setCstate k cRearm
  if raw then s else s.chRelease k (s.segGaps k g)

/-- The bytes of the units of a COURSE or FRAME segment, each at most U long (R307). -/
def unitsData (g : Segment) : List Nat := g.units.flatMap CapUnit.bytes

/-- Closes a COURSE or FRAME segment whose POST-th unit is stored (R303): LAST, data and flags. -/
def chCloseUnits (s : State) (k : Fin 4) (g : Segment) : State :=
  let first := (g.units.head?.map CapUnit.stamp).getD g.trig
  let last := (g.units.getLast?.map CapUnit.stamp).getD g.trig
  let fl := g.flags ||| (if g.units.any CapUnit.trunc then 16 else 0) ||| (if g.units.any CapUnit.clip then 64 else 0)
  let lost := s.acq.ch[k].drops.any fun t => !stampLt t first && !stampLt last t
  let g := { g with first := first, last := last, at_ := s.rawAt first, data := unitsData g, flags := fl }
  s.chComplete k (s.segFlags g s.tbu.raw lost)

/-- A trigger with stamp `t` reaches channel `k` (R300 to R302): the condition `cond` that fired, the input, and the
origin of an array trigger. -/
def chTrigger (s : State) (k : Fin 4) (t cond input : Nat) (array : Bool) (origin : Nat) : State :=
  let c := s.acq.ch[k]
  let st := s.cstate k
  if c.draining || c.suspending then s
  else if st = cPost then s.chLost k (R.ACQ_CH_LOSS0_INPOST k)
  else if st = cRearm then s.chLost k (R.ACQ_CH_LOSS0_MISSED k)
  else if st = cFull then s.chLost k (R.ACQ_CH_LOSS1_NOSLOT k)
  else if !(st = cFilling || st = cReady) then s
  else
    let seg := s.rd (R.ACQ_CH_SEG_UNITS k)
    let pre := s.chPre k
    let post := s.rd (R.ACQ_CH_POST_UNITS k)
    let slot := s.rd (R.ACQ_CH_STAT_SLOT k)
    let base : Segment :=
      { trig := t, first := t, last := t, cond := cond, input := input, array := array, origin := origin, pre := 0
        post := 0, flags := 0, units := [], need := 0, slot := slot, segno := 0, lost := c.lost, ofs := 0, data := []
        gaps := 0, at_ := 0 }
    if s.rd (R.ACQ_CH_CFG0_SRC k) = 0 then
      let now : Int := s.now
      let near (x : Nat) : Int := now + toSigned 64 (stampSub x s.now)
      let f : Int := 32 * ((near t - pre) / 32)
      let h : Int := max (32 * -(-(now - seg + 64) / 32)) (near c.fillStart)
      if near t < h || now + 16777216 < near t then s.chLost k (R.ACQ_CH_LOSS1_LATE k)
      else
        let first := if h ≤ f then f else h
        let last := f + seg - 1
        let x := s.rawAt (stampAdd 0 first)
        let g := { base with
          first := stampAdd 0 first, last := stampAdd 0 last, pre := (near t - first).toNat
          post := (last - near t + 1).toNat, flags := if h ≤ f then 0 else 1, at_ := x
          ofs := 6 * ((x - c.fillRaw) % seg) }
        (s.modCh k fun c => { c with seg := some g, lost := 0 }).setCstate k cPost
    else
      let before := c.units.filter fun u => stampLt u.stamp t
      let after := (c.units.filter fun u => !stampLt u.stamp t).take post
      if c.gone.any fun g => !stampLt g t then s.chLost k (R.ACQ_CH_LOSS1_LATE k)
      else
        let kept := before.drop (before.length - pre)
        let first := c.filled - c.units.length + (before.length - kept.length)
        let g := { base with
          pre := kept.length, post := post, flags := if before.length < pre then 1 else 0, units := kept ++ after
          need := post - after.length, ofs := c.usize * first % max 1 (s.rd (R.ACQ_CH_STRIDE_VALUE k)) }
        let s := (s.modCh k fun c => { c with seg := some g, lost := 0 }).setCstate k cPost
        if g.need = 0 then s.chCloseUnits k g else s

/-! ### ARY fires (R469, R482, R483) -/

/-- The bytes of an array datagram: header, body and CRC (R469). -/
def aryBytes (s : State) (typ seq : Nat) (body : List Nat) : List Nat :=
  let b := bytesOfWords ([typ * 2 ^ 24 + 2 ^ 16 + s.ary.id, s.rd R.ARY_ARRAY_NO_VALUE, seq, 4 * body.length] ++ body)
  b ++ leBytes 4 (crc32 b)

/-- Sends one array datagram to an address. -/
def arySend (s : State) (addr typ : Nat) (body : List Nat) : State :=
  let q := s.ary.seq + 1
  let s := { s with ary := { s.ary with seq := q } }
  s.udpSend (Fin.ofNat 2 (s.rd R.ARY_CTRL_ETH)) addr s.ary.udp (s.aryBytes typ q body)

/-- The body of a FIRE. -/
def fireBody (t sent cause origin fireno label : Nat) : List Nat :=
  [t % 2 ^ 32, t / 2 ^ 32, sent % 2 ^ 32, sent / 2 ^ 32, cause * 2 ^ 24 + origin, fireno, label]

/-- T lies within MERGE µs of the T of a fire relayed in the last 1 s (R483). -/
def aryMerges (s : State) (t : Nat) : Bool :=
  let w := s.rd R.ARY_CFG_MERGE * 1250
  s.ary.relayed.any fun e => decide (s.sys.uptime ≤ e.2 + 1250000000) && (decide (stampSub t e.1 ≤ w) || decide (stampSub e.1 t ≤ w))

/-- The master relays a fire to every roster member but itself and the origin, unless it merges (R483). -/
def aryRelay (s : State) (t origin : Nat) (body : List Nat) : State :=
  if s.aryMerges t then s.count R.ARY_MERGED_COUNT
  else
    let recent := s.ary.relayed.filter fun e => decide (s.sys.uptime ≤ e.2 + 1250000000)
    let s := { s with ary := { s.ary with relayed := (t, s.sys.uptime) :: recent } }
    let l := s.ary.roster.filter fun m => m.id != s.ary.id && m.id != origin
    let s := if l.isEmpty then s else s.count R.ARY_FIRES_SENT
    l.foldl (fun (s : State) (m : Member) => s.arySend m.addr 10 body) s

def ARY_JOINED : Nat := 2
def ARY_ORPHAN : Nat := 3

/-- Presents an array trigger to the inputs of SRC 7 at the next cycle of the sequencer. -/
def aryPresent (s : State) (t origin : Nat) : State :=
  { s with acq := { s.acq with inbox := s.acq.inbox ++ [(t, origin)] } }

/-- A fire of this device (R474, R477, R482): passed to its own inputs, and sent or relayed, or held. -/
def aryFire (s : State) (t cause label : Nat) : State :=
  let st := s.rd R.ARY_STAT_STATE
  if st = ARY_JOINED || st = ARY_ORPHAN then
    let s := s.aryPresent t s.ary.id
    let n := s.ary.fireNo + 1
    let s := { s with ary := { s.ary with fireNo := n } }
    if !s.on R.ARY_STAT_TIME_OK || st = ARY_ORPHAN then (s.count R.ARY_HELD_COUNT).ev R.ARY_EVENT_FIRE_HELD
    else
      let body := fireBody t s.now cause s.ary.id n label
      if s.on R.ARY_STAT_MASTER then s.aryRelay t s.ary.id body
      else (s.arySend s.ary.master 10 body).count R.ARY_FIRES_SENT
  else s

/-! ### Inputs and sequencer (R296 to R299) -/

/-- An event at a trigger input: input, T, origin. -/
abbrev InEvent := Nat × Nat × Nat

/-- A condition holds in this cycle; its T, input and origin (R297, R298). -/
def seqCond (s : State) (evs : List InEvent) (c : Nat) : Option InEvent :=
  if c < 16 then evs.find? fun e => e.1 == c
  else if c = 16 then if s.rd R.ACQ_CMP0_VALUE ≤ s.rd R.ACQ_CNT0_COUNT then some (0, s.now, 0) else none
  else if c = 17 then if s.rd R.ACQ_CMP1_VALUE ≤ s.rd R.ACQ_CNT1_COUNT then some (0, s.now, 0) else none
  else if c = 18 then if s.on R.ACQ_SEQ_STAT_TMR0_EXP then some (0, s.acq.exp0, 0) else none
  else if c = 19 then if s.on R.ACQ_SEQ_STAT_TMR1_EXP then some (0, s.acq.exp1, 0) else none
  else if c = 30 then some (0, s.now, 0) else none

/-- The actions of R298, in their order. `e` is the event of the condition `c`. -/
def seqAct (s : State) (act c : Nat) (e : InEvent) : State :=
  let s := if act.testBit 6 then s.wr R.ACQ_CNT0_COUNT 0 else s
  let s := if act.testBit 8 then s.wr R.ACQ_CNT1_COUNT 0 else s
  let s := if act.testBit 5 then s.count R.ACQ_CNT0_COUNT else s
  let s := if act.testBit 7 then s.count R.ACQ_CNT1_COUNT else s
  let s := if act.testBit 9 then
      ({ s with acq := { s.acq with tmr0 := some (s.rd R.ACQ_TMR0_LEN_VALUE) } } : State).put R.ACQ_SEQ_STAT_TMR0_EXP false
    else s
  let s := if act.testBit 10 then
      ({ s with acq := { s.acq with tmr1 := some (s.rd R.ACQ_TMR1_LEN_VALUE) } } : State).put R.ACQ_SEQ_STAT_TMR1_EXP false
    else s
  let input := if c < 16 then c else 0
  let arr := decide (c < 16) && s.rd (R.ACQ_TIN_SRC c) == 7
  let s := (List.finRange 4).foldl
    (fun (s : State) (k : Fin 4) => if act.testBit k.val then s.chTrigger k e.2.1 c input arr (if arr then e.2.2 else 0) else s) s
  let s := if act.testBit 4 then s.aryFire e.2.1 0 0 else s
  if act.testBit 11 then s.ev R.ACQ_EVENT_SEQ else s

/-- One cycle of the sequencer (R297): at most one transition. -/
def seqCycle (s : State) (evs : List InEvent) : State :=
  if !s.on R.ACQ_SEQ_CTRL_EN then s
  else
    let st := s.rd R.ACQ_SEQ_STAT_STATE
    let a := s.rd (R.ACQ_SEQ_STATE_COND_A st)
    let b := s.rd (R.ACQ_SEQ_STATE_COND_B st)
    match s.seqCond evs a with
    | some e =>
      let act := s.rd (R.ACQ_SEQ_STATE_ACT_A st)
      (s.wr R.ACQ_SEQ_STAT_STATE (s.rd (R.ACQ_SEQ_STATE_NEXT_A st))).seqAct act a e
    | none =>
      match s.seqCond evs b with
      | some e =>
        let act := s.rd (R.ACQ_SEQ_STATE_ACT_B st)
        (s.wr R.ACQ_SEQ_STAT_STATE (s.rd (R.ACQ_SEQ_STATE_NEXT_B st))).seqAct act b e
      | none => s

/-- The inputs that watch source `src` with the unit `unit` and for which `p` holds (R296). -/
def inputsOf (s : State) (src : Nat) (unit : Option Nat) (p : Nat → Bool) : List Nat :=
  (List.range 16).filter fun i =>
    s.on (R.ACQ_TIN_EN i) && s.rd (R.ACQ_TIN_SRC i) == src
      && (match unit with
          | none => true
          | some u => (if src = 2 || src = 3 then s.rd (R.ACQ_TIN_UNIT i) else s.rd (R.ACQ_TIN_UNIT i) % 4) == u)
      && p i

/-- Of the events of one input in a cycle the one with the earliest T is presented, the others are counted (R296). -/
def mergeEvents (evs : List InEvent) : List InEvent × Nat :=
  evs.foldl (fun (acc : List InEvent × Nat) e =>
    match acc.1.find? (fun x => x.1 == e.1) with
    | none => (acc.1 ++ [e], acc.2)
    | some x => if stampLt e.2.1 x.2.1 then ((acc.1.filter fun y => y.1 != e.1) ++ [e], acc.2 + 1) else (acc.1, acc.2 + 1))
    ([], 0)

/-- A course or frame unit is on its way to channel `k`, while its job runs or its segment is in POST. -/
def chHand (s : State) (k : Fin 4) (u : CapUnit) : State :=
  if s.rd (R.ACQ_CH_STAT_JOB k) = 1 || s.cstate k = cPost then s.modCh k fun c => { c with inq := c.inq ++ [u] } else s

/-- Hands a unit to every channel that records source `src` of port `n` and for which `p` holds. -/
def acqHand (s : State) (src : Nat) (n : Nat) (p : Fin 4 → Bool) (u : Fin 4 → CapUnit) : State :=
  (List.finRange 4).foldl (fun (s : State) (k : Fin 4) =>
    if s.rd (R.ACQ_CH_CFG0_SRC k) = src && s.rd (R.ACQ_CH_CFG0_PORT k) = n && p k then s.chHand k (u k) else s) s

/-- The U bytes of a COURSE unit: header, values, and EDGE beyond them (R291). -/
def courseUnit (usize stamp : Nat) (head vals : List Nat) (clip : Bool) : CapUnit :=
  let ul := (usize - 32) / 4
  { stamp := stamp, bytes := bytesOfWords (head ++ vals.take ul ++ List.replicate (ul - vals.length) 128), clip := clip
    trunc := false }

/-- Presents array triggers that wait, one a cycle, for at most `k` cycles. -/
def drainInbox (s : State) : Nat → State
  | 0 => s
  | k + 1 =>
    match s.acq.inbox with
    | [] => s
    | (t, o) :: r =>
      let s := { s with acq := { s.acq with inbox := r } }
      drainInbox (s.seqCycle ((s.inputsOf 7 none fun _ => true).map fun i => (i, t, o))) k

/-- Presents the events of one cycle to the sequencer, then the array triggers that it made (log entry 12). -/
def present (s : State) (evs : List InEvent) : State :=
  let (l, m) := mergeEvents evs
  let s := if m = 0 then s else s.count R.ACQ_TIN_MERGED_COUNT m
  let s := if l.isEmpty then s else s.seqCycle l
  s.drainInbox 16

/-- Presents events of this tick: an input that has already had an event in it merges the further one (R296; a tick is
taken as the cycle, log entry 12). -/
def presentNow (s : State) (evs : List InEvent) : State :=
  let mask := if s.acq.tinAt = s.sys.uptime then s.acq.tinMask else 0
  let (old, new) := evs.partition fun e => mask.testBit e.1
  let mask := new.foldl (fun m e => m ||| 2 ^ e.1) mask
  let s : State := { s with acq := { s.acq with tinAt := s.sys.uptime, tinMask := mask } }
  let s := if old.isEmpty then s else s.count R.ACQ_TIN_MERGED_COUNT old.length
  s.present new

/-- Presents an event of source `src`. -/
def presentSrc (s : State) (src : Nat) (unit : Option Nat) (p : Nat → Bool) (t : Nat) : State :=
  s.presentNow ((s.inputsOf src unit p).map fun i => (i, t, 0))

/-- A tick of the sequencer without an input event: timers count down, level conditions act (log entry 12). -/
def seqTick (s : State) : State :=
  let s := match s.acq.tmr0 with
    | some (n + 2) => { s with acq := { s.acq with tmr0 := some (n + 1) } }
    | some _ => ({ s with acq := { s.acq with tmr0 := none, exp0 := s.now } } : State).put R.ACQ_SEQ_STAT_TMR0_EXP true
    | none => s
  let s := match s.acq.tmr1 with
    | some (n + 2) => { s with acq := { s.acq with tmr1 := some (n + 1) } }
    | some _ => ({ s with acq := { s.acq with tmr1 := none, exp1 := s.now } } : State).put R.ACQ_SEQ_STAT_TMR1_EXP true
    | none => s
  (s.seqCycle []).drainInbox 16

/-- A load or step with D ≠ 0 takes effect (R304). -/
def acqTimeStep (s : State) : State := { s with acq := { s.acq with steps := s.acq.steps ++ [s.tbu.raw] } }

/-- CPL reports the outcome of a course, with its stamp range (R158). -/
def courseReport (s : State) (n : Fin 4) (lost : Bool) (first last : Nat) : State :=
  if lost then
    { s with acq := { s.acq with lostReports := s.acq.lostReports.set n (s.acq.lostReports[n] ++ [(first, last)]) } }
  else s

/-- Releases, in order, the complete RAW segments of channel `k` that no unreported course of the port overlaps
(R25, R305). -/
def chTryRelease (s : State) (k : Fin 4) : Nat → State
  | 0 => s
  | fuel + 1 =>
    match s.acq.ch[k].done with
    | [] => s
    | g :: r =>
      let open_ := (s.ports[s.chPort k].courses).map fun c => (c.stamp, stampAdd c.stamp (10 * c.len - 1))
      if overlaps open_ g.first g.last = 0 then
        let g := s.segGaps k g
        chTryRelease ((s.modCh k fun c => { c with done := r }).chRelease k g) k fuel
      else s

end Sys2Proof.Machine.State
end

