-- ==== Sys2Proof/Machine/Plumb.lean ====
section
/-! DEFINITION. Plumb, the calibration engine (R447 to R449): pending targets, their hods, the steps of a pass, and the
jobs of CAL_RUN (R419). The steps themselves are in the CDG, RRX and RSF families. -/

namespace Sys2Proof.Machine.State
open Sys2Proof Arith

/-- A trigger makes target `t` pending; one that is pending or running is not made so again (R447). -/
def calPend (s : State) (t : Nat) : State := s.putBit R.MGT_CAL_PEND_PENDING t true

/-- Shows JOB, DEFERRED and TRACES while PORTn is on. -/
def showRrx (s : State) (n : Fin 4) : State :=
  if !s.portOn n then s
  else
    let r := s.rrx[n]
    ((s.wr (R.RRX_PORT_STAT_JOB n) r.state).put (R.RRX_PORT_STAT_DEFERRED n) r.deferred.isSome).wr
      (R.RRX_PORT_STAT_TRACES n) ((r.open_.map RBuf.n).getD 0)

/-- Registers at the offsets for which `p` holds take their reset values; retained ones stay (R22). -/
def dropRegs (s : State) (p : Nat → Bool) : State :=
  { s with
    regs := Bank.drop s.regs fun k => p (k / 32 * 4) && !retainedAt (k / 32 * 4)
    shadow := Bank.drop s.shadow p, wbuf := Bank.drop s.wbuf p }

/-- A selection of route `i` on an IDLE port waits for the next scan (R109). -/
def selectWaits (s : State) (n : Fin 4) (i : Nat) : State :=
  (s.put (R.RMD_ROUTE_STAT_BUSY n) true).modPort n fun p => { p with routeStage := 7, routeNew := i }

/-- Shows RUNAHEAD, EPISODE and RELEASING of port `n` (R154, R165). -/
def showCpl (s : State) (n : Fin 4) : State :=
  let p := s.ports[n]
  let st := s.pstate n
  let rest := (st == stIdle || st == stHalted)
    && (!p.courses.isEmpty || p.outq.any fun i => match i with
      | .course _ => true
      | .gap _ => false)
  ((s.wr (R.CPL_STAT_RUNAHEAD n) (p.courses.filter fun c => c.seq.isSome).length).put (R.CPL_STAT_EPISODE n)
    p.episode.isSome).put (R.CPL_STAT_RELEASING n) (p.releasing || rest)

/-- PORTn turns on: nothing is in flight, its registers stand at their reset values but the retained ones, the Raman
corrections come from MGT's copy (R22, R125), a route selected while it was off is verified at the next scan (R109), and
its two targets wait for calibration (R428, R447). -/
def portPower (s : State) (n : Fin 4) : State :=
  if s.portOn n then s
  else
    let s := s.dropRegs fun off => portOfOffset off == some n.val
    let s := { s with sys := { s.sys with domains := Arith.putBit s.sys.domains (dPORT n) true } }
    let s := s.put (R.RMD_ROUTE_STAT_FAIL n) false
    let s := s.put (R.CDG_PORT_STAT_TEST n) ((List.range 4).any fun k => s.rd (R.CDG_LANE_CFG_TEST n k) != 0)
    let s := (((s.calPend n).calPend (4 + n)).showRrx n).linkOn n
    let s := s.modRrx n fun r => { r with corr := s.mgt.rrxCorr[n], deferred := none, quietSeen := false, passed := false }
    let sel : Nat := s.rd (R.RMD_ROUTE_SEL_SEL n)
    let act : Nat := s.rd (R.RMD_ROUTE_STAT_ACTIVE n)
    let s := if sel == act then s else s.selectWaits n sel
    s.showCpl n

/-- Whether an RSF channel is watched for port `n`, and which (R447). -/
def calWatch (s : State) (n : Nat) : Bool × Nat :=
  (s.on (R.MGT_CAL_WATCH_EN0.shift n), s.rd (R.MGT_CAL_WATCH_CHAN0.shift n))

/-- The CAL_RUN job that names target `t` and is not held. -/
def calJobOf (s : State) (t : Nat) : Option CalJob := s.mgt.calJobs.find? fun j => j.mask.testBit t && !j.held

/-- The target may run where it is: its PORTn is on, or turns on for a CAL_RUN job, or the sequencers of RSF run
(R448). -/
def calPlace (s : State) (t : Nat) : Bool :=
  if t = 8 then s.on R.RSF_STAT_RUNNING else s.portOn (t % 4) || (s.calJobOf t).isSome

/-- The order of R448: RSF, CDG 0 to 3, RRX 0 to 3. -/
def calOrder : List Nat := [8, 0, 1, 2, 3, 4, 5, 6, 7]

/-- A target is held by a suspended CAL_RUN job. -/
def calHeld (s : State) (t : Nat) : Bool := s.mgt.calJobs.any fun j => j.mask.testBit t && j.held

/-- The first pending target that may run. -/
def calPick (s : State) : Option Nat :=
  calOrder.find? fun t => s.bit R.MGT_CAL_PEND_PENDING t && !s.bit R.MGT_CAL_PEND_BLOCKED t && s.calPlace t
    && !s.calHeld t

/-- Target `t` has its hods and becomes the one that runs; for RSF Plumb writes SELFCAL (R252). -/
def calBegin (s : State) (t : Nat) : State :=
  let s := { s with mgt := { s.mgt with calWait := none, calRun := some t, calStep := 0, calIn := false } }
  let s := s.mgt.calJobs.foldl (fun (s : State) j => if j.mask.testBit t && !j.held then s.jobRuns j.job else s) s
  if t = 8 then (if s.rsf.phase == 3 then s else { s with rsf := { s.rsf with selfcal := true } }) else s.portPower (Fin.ofNat 4 t)

/-- The end of one target in a CAL_RUN job: 0 passed, 1 failed not quiet, 2 failed otherwise, 3 failed for power. -/
def calJobStep (j : CalJob) (t kind : Nat) : CalJob :=
  if j.mask.testBit t then
    { j with
      mask := Arith.putBit j.mask t false
      passed := if kind = 0 then Arith.putBit j.passed t true else j.passed
      quiet := if kind = 1 then Arith.putBit j.quiet t true else j.quiet
      other := if kind = 2 || kind = 3 then Arith.putBit j.other t true else j.other
      power := if kind = 3 then Arith.putBit j.power t true else j.power }
  else j

/-- The final status of a CAL_RUN job: that of its first failing target in the order of R448. -/
def calJobStatus (j : CalJob) : Nat :=
  match calOrder.find? fun t => j.quiet.testBit t || j.other.testBit t with
  | none => OK
  | some t => if j.quiet.testBit t then E_CAL_QUIET else if j.power.testBit t then E_POWER else E_INTERNAL

/-- Ends the CAL_RUN jobs whose targets have all ended: DONE when every target passed, otherwise FAILED with the
status of the first that failed (R419). -/
def calJobsEnd (s : State) : State :=
  let ended := s.mgt.calJobs.filter fun j => j.mask = 0
  let s := { s with mgt := { s.mgt with calJobs := s.mgt.calJobs.filter fun j => j.mask != 0 } }
  ended.foldl (fun (s : State) j =>
    let st := calJobStatus j
    s.endJob j.job (if st = OK then .done else .failed) st 0 [j.passed, j.quiet, j.other]) s

/-- A pass of target `t` ends with a pass, or a failure of `kind` as for `calJobStep` (R449). -/
def calOver (s : State) (t kind : Nat) : State :=
  let named := s.mgt.calJobs.filter fun j => j.mask.testBit t
  let status := if kind = 1 then E_CAL_QUIET else if kind = 3 then E_POWER else E_INTERNAL
  let s := { s with mgt := { s.mgt with
    calRun := if s.mgt.calRun = some t then none else s.mgt.calRun
    calWait := if s.mgt.calWait = some t then none else s.mgt.calWait
    calStep := 0
    calIn := false
    calRetry := if kind = 1 then Arith.putBit s.mgt.calRetry t true else s.mgt.calRetry
    calTj := if kind = 0 then s.mgt.calTj.setIfInBounds t (some (s.rdS R.MGT_TJ_TJ)) else s.mgt.calTj
    calJobs := s.mgt.calJobs.map fun j => calJobStep j t kind } }
  let s := (s.putBit R.MGT_CAL_PEND_PENDING t false).putBit R.MGT_CAL_PEND_BLOCKED t false
  let s := if kind = 0 then (s.log 2 1 0x0030 (2 ^ t) [s.rd R.MGT_TJ_TJ]).ev R.MGT_EVENT_CAL_PASS
    else (s.log 2 3 0x0031 (2 ^ t) [status]).ev R.MGT_EVENT_CAL_FAIL
  let s := if kind = 0 then named.foldl (fun (s : State) j => s.jobStep j.job) s else s
  (s.releaseHods (.cal t)).calJobsEnd

/-- Plumb takes the next target and requests its 2 hods of class 1 (R448). The one request of a target that a CAL_RUN
job names ends the target when it is refused; Plumb then goes on to the next. -/
def calLoop : Nat → State → State
  | 0, s => s
  | k + 1, s =>
    if s.mgt.calRun.isSome || s.mgt.calWait.isSome || s.sys.mode < 3 then s
    else
      match s.calPick with
      | none => s
      | some t =>
        match s.calJobOf t with
        | none =>
          match s.requestHods { user := .cal t, hods := 2, cls := 1, tmo := 0, job := 0 } with
          | (s, .granted) => s.calBegin t
          | (s, _) => s
        | some j =>
          match s.requestHods { user := .cal t, hods := 2, cls := 1, tmo := j.tmo, job := j.job } with
          | (s, .granted) => s.calBegin t
          | (s, .queued) => { s with mgt := { s.mgt with calWait := some t } }
          | (s, .refused) => calLoop k (s.calOver t 3)

def calNext (s : State) : State := calLoop 10 s

/-- A pass ends, and Plumb goes on. -/
def calEnd (s : State) (t kind : Nat) : State := (s.calOver t kind).calNext

/-- A step of target `t` in progress is abandoned: Plumb restarts the pass from its first step (R134, R238). -/
def calAbandon (s : State) (t : Nat) : State :=
  if s.mgt.calRun = some t && s.mgt.calIn then
    { s with mgt := { s.mgt with calStep := 0, calIn := false } }
  else s

/-- Abandons the steps of both targets of port `n`. -/
def calAbandonPort (s : State) (n : Nat) : State := (s.calAbandon n).calAbandon (4 + n)

/-- Abandons any step of a target that needs PLL_S. -/
def calAbandonAll (s : State) : State :=
  match s.mgt.calRun with
  | some t => if t < 8 then s.calAbandon t else s
  | none => s

/-- The target finds no place any longer (its port turned off): its hods are released and it stays pending. -/
def calLeave (s : State) (t : Nat) : State :=
  if s.mgt.calRun = some t || s.mgt.calWait = some t then
    ((({ s with mgt := { s.mgt with calRun := none, calWait := none, calStep := 0, calIn := false } } : State).releaseHods
      (.cal t)).withdrawHods (.cal t)).calNext
  else s

/-- A blocked target whose port changes state is tried again (R448). -/
def calUnblockPort (s : State) (n : Nat) : State :=
  (((s.putBit R.MGT_CAL_PEND_BLOCKED n false).putBit R.MGT_CAL_PEND_BLOCKED (4 + n) false)).calNext

end Sys2Proof.Machine.State
end

