-- ==== Sys2Proof/Machine/Pattern.lean ====
section
/-! DEFINITION. Bond patterns (R95), the pattern checks of the PPE (R96), the start checks of the CPL (R164), and the
figures that a port takes from its patterns (R139, R188). -/

namespace Sys2Proof.Machine.State
open Sys2Proof Arith

/-- A field of the active slot and chirp tables (R56). -/
def synActive (s : State) (f : Field) : Nat := Bank.get s.syn.active f.key f.reset

/-- The carrier synthesiser of port `n`. -/
def csyOf (n : Nat) : Nat := n / 2

/-- The frequency offset that START gives, in units of 2^−48 cycle per DDS clock, and the increment of profile `q` of
port `n`, as the last COMMIT left them (R59). -/
def chirpWords (s : State) (n q : Nat) : Int × Int :=
  (toSigned 32 (s.synActive (R.SYN_CSY_CHIRP0_START (csyOf n) q)) * 2 ^ 16,
   ((s.syn.inc[csyOf n]?.bind fun v => v[q]?).getD 0))

/-- The chirp accumulator of profile `q` after `m` DDS clocks, in units of 2^−48 of a cycle (R59): the sum of the
frequencies of the clocks before. A TRIANGLE falls back by the same increment (DESIGN CHOICE, log entry 63). -/
def chirpPhase (s : State) (n q m : Nat) : Int :=
  let (f, d) := s.chirpWords n q
  let shape := s.synActive (R.SYN_CSY_CHIRP2_SHAPE (csyOf n) q)
  let turn := 2 * (s.synActive (R.SYN_CSY_CHIRP2_LENGTH (csyOf n) q) / 2)
  let rise (k : Nat) : Int := f * k + d * ((k * (k - 1) / 2 : Nat) : Int)
  if shape = 2 && turn < m then
    let k := m - turn
    rise turn + (f + d * turn) * k - d * ((k * (k - 1) / 2 : Nat) : Int)
  else rise m

/-- First step of the RUN or WATCH pattern of port `n`. -/
def patFirst (s : State) (n : Nat) (watch : Bool) : Nat :=
  if watch then s.rd (R.PPE_PAT_WATCH_FIRST n) else s.rd (R.PPE_PAT_RUN_FIRST n)

/-- The steps from `x` up to the first with LAST at 1, at most `k` of them, and whether that step was found. -/
def patWalk (s : State) (n x : Nat) : Nat → List Nat × Bool
  | 0 => ([], false)
  | k + 1 =>
    if s.on (R.PPE_STEP_LAST n x) then ([x], true)
    else
      let (l, b) := patWalk s n (x + 1) k
      (x :: l, b)

/-- The steps of a pattern in order, and whether it has a LAST step (R96). -/
def pattern (s : State) (n : Nat) (watch : Bool) : List Nat × Bool :=
  let x := s.patFirst n watch
  s.patWalk n x (512 - x)

def patSteps (s : State) (n : Nat) (watch : Bool) : List Nat := (s.pattern n watch).1

def sDelay (s : State) (n x : Nat) : Nat := s.rd (R.PPE_STEP_DELAY n x)
def sWidth (s : State) (n x : Nat) : Nat := s.rd (R.PPE_STEP_WIDTH n x)
def sSlot (s : State) (n x : Nat) : Nat := s.rd (R.PPE_STEP_SLOT n x)
def sChirp (s : State) (n x : Nat) : Nat := s.rd (R.PPE_STEP_CHIRP n x)

/-- Round trip of route `r` in ticks. -/
def rtt (s : State) (n r : Nat) : Nat := s.rd (R.ROUTE_RTT n r)

/-- The active route of port `n`. -/
def route (s : State) (n : Nat) : Nat := s.rd (R.RMD_ROUTE_STAT_ACTIVE n)

/-- The chirp skew of port `n`, signed, in units of 0.4 ns (R60). -/
def skew (s : State) (n : Nat) : Int :=
  if n % 2 = 0 then s.rdS (R.SYN_CSY_SKEW_SKEW0 (csyOf n)) else s.rdS (R.SYN_CSY_SKEW_SKEW1 (csyOf n))

/-- A failed check: its number, the step, zone or profile it names, and its status. -/
abbrev CheckFail := Nat × Nat × Nat

/-- The first of a list for which a check fails. -/
def firstBad (l : List Nat) (chk status : Nat) (bad : Nat → Bool) : Option CheckFail :=
  (l.find? bad).map fun x => (chk, x, status)

/-- The time back from place `i` of the pattern to the previous launch that `same` holds for, cyclically through the
wrap; `l` pairs each step with its DELAY. -/
def timeBack (l : List (Nat × Nat)) (i : Nat) (same : Nat → Bool) : Nat :=
  let before := (l.take i).reverse
  let after := (l.drop i).reverse
  let rec go : List (Nat × Nat) → Nat → Nat
    | [], acc => acc
    | (x, d) :: r, acc => if same x then acc + d else go r (acc + d)
  go (before ++ after) 0

/-- Check 7 or 8 of R96: the first step of `sel` less than `rtt` after the previous one of `same`. -/
def spacing (l : List (Nat × Nat)) (rtt chk status : Nat) (sel : Nat → Bool) (same : Nat → Nat → Bool) :
    Option CheckFail :=
  ((List.range l.length).find? fun i =>
    let x := (l.getD i (0, 0)).1
    sel x && decide (timeBack l i (same x) < rtt)).map fun i => (chk, (l.getD i (0, 0)).1, status)

/-- The pattern checks of R96 against a round trip. -/
def patCheck (s : State) (n : Nat) (watch : Bool) (rtt : Nat) : Option CheckFail :=
  let (l, ended) := s.pattern n watch
  let k := csyOf n
  let ld := l.map fun x => (x, s.sDelay n x)
  if !ended then some (1, s.patFirst n watch, E_PATTERN)
  else
    (firstBad l 2 E_PATTERN fun x =>
        decide (s.sDelay n x < 128) || decide (s.sWidth n x < 4) || decide (250 < s.rd (R.PPE_STEP_AMP n x)))
    <|> (firstBad l 3 E_PATTERN fun x => decide (s.rd (R.LDR_CTRL_GATE_LIMIT n) < s.rd (R.PPE_STEP_AMP n x)))
    <|> (firstBad l 4 E_SLOT fun x => s.synActive (R.SYN_CSY_SLOT_EN k (s.sSlot n x)) = 0)
    <|> (firstBad l 5 E_PATTERN fun x => decide (s.sDelay n x - 64 < s.sWidth n x))
    <|> (firstBad l 6 E_PATTERN fun x =>
        decide (s.sDelay n x - 64 < s.synActive (R.SYN_CSY_CHIRP2_LENGTH k (s.sChirp n x))
          + ceilDiv (max 0 (s.skew n)).toNat 2))
    <|> (spacing ld rtt 7 E_PATTERN (fun _ => true) fun x y => s.sSlot n x == s.sSlot n y)
    <|> (spacing ld rtt 8 E_PATTERN (fun x => s.on (R.PPE_STEP_RAMAN n x)) fun _ y => s.on (R.PPE_STEP_RAMAN n y))

/-- The detail of a reply that a check fails: check in [15:12], step or entry in [11:0]. -/
def checkDetail (c : CheckFail) : Nat := c.1 * 4096 + c.2.1 % 4096

/-- Runs R96 and shows the outcome in PPE_CHECK. -/
def patCheckShow (s : State) (n : Nat) (watch : Bool) (rtt : Nat) : State × Option CheckFail :=
  let c := s.patCheck n watch rtt
  let (k, x, st) := c.getD (0, 0, 0)
  (((s.wr (R.PPE_CHECK_STATUS n) st).wr (R.PPE_CHECK_CHECK n) k).wr (R.PPE_CHECK_STEP n) x, c)

/-! ### CPL -/

/-- LEN of route `r` (R164) and the bins of a watch course (R163). -/
def lenOf (s : State) (n r : Nat) : Nat := s.rd (R.CPL_LEN_LEN n r)
def binsOf (len : Nat) : Nat := ceilDiv len 10

/-- Steps of the RUN pattern, then of the WATCH pattern. -/
def bothSteps (s : State) (n : Nat) : List Nat := s.patSteps n false ++ s.patSteps n true

/-- The step that brings the seventeenth distinct pair of WIDTH and CHIRP. -/
def seventeenth (s : State) (n : Nat) : List Nat → List (Nat × Nat) → Option Nat
  | [], _ => none
  | x :: r, seen =>
    let p := (s.sWidth n x, s.sChirp n x)
    if seen.contains p then seventeenth s n r seen
    else if seen.length = 16 then some x
    else seventeenth s n r (p :: seen)

/-- Check 3 of R164: the band of a watch slot straddles an aliasing boundary. In units of 2.5 GHz ÷ 2^48, 312.5 MHz is
2^45 and 7.5 MHz is 3 × 2^48 ÷ 1000. -/
def watchStraddles (s : State) (n x : Nat) : Bool :=
  let k := csyOf n
  let q := s.sChirp n x
  let f := s.synActive (R.SYN_CSY_SLOT_FTW k (s.sSlot n x))
  let folded : Int := ((f + 2 ^ 44) % 2 ^ 45 : Nat) - (2 ^ 44 : Nat)
  let a := (toSigned 32 (s.synActive (R.SYN_CSY_CHIRP0_START k q))).natAbs
  let b := (toSigned 32 (s.synActive (R.SYN_CSY_CHIRP1_STOP k q))).natAbs
  decide (1000 * 2 ^ 44 < 1000 * (folded.natAbs + max a b * 2 ^ 16) + 3 * 2 ^ 48)

/-- The start checks of R164 on route `r`; at a route change check 3 is not run (R109). -/
def cplCheck (s : State) (n r : Nat) (atStart : Bool) : Option CheckFail :=
  let len := s.lenOf n r
  let run := s.patSteps n false
  let watch := s.patSteps n true
  if len = 0 || 149796 < len || s.rtt n r < 10 * len then some (1, 0, E_LENGTH)
  else
    (firstBad (run ++ watch) 2 E_REPLICA fun x =>
        decide (12800 < s.sWidth n x) || s.seventeenth n (run ++ watch) [] == some x)
    <|> (if atStart then firstBad watch 3 E_WATCH_SLOT (s.watchStraddles n) else none)
    <|> (firstBad run 4 E_RELEASE fun x => decide (4 * s.sDelay n x < 5 * (len + 640)))
    <|> (firstBad watch 4 E_RELEASE fun x => decide (4 * s.sDelay n x < 5 * (binsOf len + 640)))

/-- Runs R164 and shows a failure in CPL_CHECK. -/
def cplCheckShow (s : State) (n r : Nat) (atStart : Bool) : State × Option CheckFail :=
  match s.cplCheck n r atStart with
  | none => (s.wr (R.CPL_CHECK_CHECK n) 0, none)
  | some (k, x, st) =>
    ((((s.wr (R.CPL_CHECK_STATUS n) st).wr (R.CPL_CHECK_CHECK n) k).wr (R.CPL_CHECK_STEP n) x).ev
      (R.CPL_EVENT_START_FAIL n), some (k, x, st))

/-- Replica length of a step in native samples (R141). -/
def replica (s : State) (n x : Nat) : Nat := ceilDiv (s.sWidth n x) 10

/-- The pipeline delay D (R139). -/
def pipeDelay (s : State) (n : Nat) : Nat :=
  272 + 10 * ((s.bothSteps n).map (s.replica n)).foldl max 0
    + ((List.range 4).map fun k => s.rd (R.CDG_LANE_CFG_DLY n k)).foldl max 0

/-- The sum of the DELAY values of the RUN pattern and its number of steps: Pin is C ÷ S ticks (R188). -/
def patPinC (s : State) (n : Nat) : Nat := ((s.patSteps n false).map (s.sDelay n)).sum
def patPinS (s : State) (n : Nat) : Nat := (s.patSteps n false).length

end Sys2Proof.Machine.State
end

