-- ==== Sys2Proof/Machine/ZonTab.lean ====
section
/-! DEFINITION. The zone table: entries of a table (R171), native positions (R170), covered ranges and the gauge map
(R177), applicable zones (R175), and the checks of R179. -/

namespace Sys2Proof.Machine.State
open Sys2Proof Arith

/-! ### Entries -/

/-- The keys of the shadow entries: those of the fields of 4,096 entries of 32 bytes from 0x0014_0000. -/
def zonKey (k : Nat) : Bool := decide (8 * 0x140000 ≤ k) && decide (k < 8 * 0x160000)

/-- The shadow table. -/
def zonShadow (s : State) : List (Nat × Nat) := s.regs.filter fun e => zonKey e.1

/-- The state with `b` as its shadow table. -/
def zonSetShadow (s : State) (b : List (Nat × Nat)) : State :=
  { s with regs := b.foldl (fun r e => Bank.set r e.1 e.2) (Bank.drop s.regs zonKey) }

/-- Entry `e` of a table. -/
def zentry (b : List (Nat × Nat)) (e : Nat) : ZEntry :=
  let g (f : Field) : Nat := Bank.get b f.key f.reset
  { e := e, en := g (R.ZON_ENTRY_EN e) != 0, priv := g (R.ZON_ENTRY_PRIV e) != 0, port := g (R.ZON_ENTRY_PORT e)
    box := g (R.ZON_ENTRY_BOX e) != 0, pidx := g (R.ZON_ENTRY_PIDX e), routes := g (R.ZON_ENTRY_ROUTES e)
    start := g (R.ZON_ENTRY_START e), gauge := g (R.ZON_ENTRY_GAUGE e), count := g (R.ZON_ENTRY_COUNT e)
    z0 := g (R.ZON_ENTRY_Z0 e), interval := g (R.ZON_ENTRY_INTERVAL e), scale := g (R.ZON_ENTRY_SCALE e)
    unit := g (R.ZON_ENTRY_UNIT e), base := g (R.ZON_ENTRY_POINT_BASE e), filt := g (R.ZON_ENTRY_FILT e)
    det := g (R.ZON_ENTRY_DET e), label := g (R.ZON_ENTRY_LABEL e) }

/-- The enabled entries of a table, in rising order. -/
def zenabled (b : List (Nat × Nat)) : List ZEntry := ((List.range 4096).map (zentry b)).filter ZEntry.en

/-- The group index of port `n` (R168). -/
def ngOf (s : State) (n : Nat) : Nat := s.rd (R.ZON_PORT_NG_NG n)

/-! ### Positions (R170, R172, R177). s_n is 1,199,169,832 nm ÷ NG with NG in u2.22. -/

/-- Q0 of an entry under the group index `ng`, in u18.24. -/
def zq0 (ng : Nat) (z : ZEntry) : Nat := z.z0 * 2 ^ 24 + (roundDiv (z.start * ng * 4000000 : Nat) 1199169832).toNat

/-- STEP of an entry. -/
def zstep (ng : Nat) (z : ZEntry) : Nat := (roundDiv (z.interval * ng * 4000000 : Nat) 1199169832).toNat

/-- q_k. -/
def zq (ng : Nat) (z : ZEntry) (k : Nat) : Nat := zq0 ng z + k * zstep ng z

/-- N of R172: the samples of a box average, halves rounded up; 1 for interpolation. -/
def zN (ng : Nat) (z : ZEntry) : Nat := if z.box then max 1 ((zstep ng z + 2 ^ 23) / 2 ^ 24) else 1

/-- h of R177. -/
def zh (ng : Nat) (z : ZEntry) : Nat := if z.box then (zN ng z - 1) / 2 else 0

/-- First and last native sample of the covered range. -/
def zcover (ng : Nat) (z : ZEntry) : Int × Int :=
  ((zq ng z 0 / 2 ^ 24 : Nat) - (zh ng z : Int),
   (zq ng z (z.count - 1) / 2 ^ 24 : Nat) - (zh ng z : Int) + zN ng z - 1)

/-- The zones of `l` that apply to port `n` on route `r` (R175). -/
def zapply (l : List ZEntry) (n r : Nat) : List ZEntry := l.filter fun z => z.port == n && z.routes.testBit r

/-- The gauge of native sample `i`: that of the lowest-numbered applicable entry that covers it (R177). -/
def zgauge (ng deflt : Nat) (l : List ZEntry) (i : Nat) : Nat :=
  match l.find? fun z => decide ((zcover ng z).1 ≤ i) && decide ((i : Int) ≤ (zcover ng z).2) with
  | some z => z.gauge
  | none => deflt

/-- The point of applicable zones: its position, entry, place in the entry and zone. -/
structure ZPlace where
  (q k : Nat)
  z : ZEntry
  deriving DecidableEq, Repr

/-- Rising q_k, then entry, then k (R175). -/
def zle (a b : ZPlace) : Bool :=
  decide (a.q < b.q) || (a.q == b.q && (decide (a.z.e < b.z.e) || (a.z.e == b.z.e && decide (a.k ≤ b.k))))

/-- Merges two lists in that order. -/
def zmerge : List ZPlace → List ZPlace → List ZPlace
  | [], l => l
  | a :: r, l =>
    let rec ins : List ZPlace → List ZPlace
      | [] => a :: zmerge r []
      | b :: m => if zle a b then a :: zmerge r (b :: m) else b :: ins m
    ins l

/-- The points of zones in the order in which ZON sends them. -/
def zplaces (ng : Nat) (l : List ZEntry) : List ZPlace :=
  (l.map fun z => (List.range z.count).map fun k => ({ q := zq ng z k, k := k, z := z } : ZPlace)).foldl zmerge []

/-- The last native sample that a point uses (R172). -/
def zlast (ng : Nat) (p : ZPlace) : Nat :=
  let i0 := p.q / 2 ^ 24
  if p.z.box then i0 + zN ng p.z - 1 - (zN ng p.z - 1) / 2
  else if p.q / 2 ^ 16 % 256 = 0 then i0 else i0 + 1

/-- By how many the points that use no sample beyond `i` outnumber `i` (R176, R179). -/
def zexcess (ng : Nat) (l : List ZPlace) (i : Nat) : Nat := (l.filter fun p => decide (zlast ng p ≤ i)).length - i

/-- The largest such excess over the points, and the entry of the first point for which it passes `lim`. -/
def zqueue (ng lim : Nat) (l : List ZPlace) : Nat × Option Nat :=
  ((l.map fun p => zexcess ng l (zlast ng p)).foldl max 0,
   (l.find? fun p => decide (lim < zexcess ng l (zlast ng p))).map fun p => p.z.e)

/-! ### Checks (R179): the check, the entry it names and the status -/

/-- The first entry of a list, in order, for which `bad` of the entries before it and itself holds. -/
def firstPair (l : List ZEntry) (bad : List ZEntry → ZEntry → Bool) : Option ZEntry :=
  let rec go : List ZEntry → List ZEntry → Option ZEntry
    | _, [] => none
    | before, z :: r => if bad before z then some z else go (before ++ [z]) r
  go [] l

/-- Two entries share a port and a route. -/
def zmeet (a b : ZEntry) : Bool := a.port == b.port && (a.routes &&& b.routes) != 0

/-- Check 1. -/
def zbad1 (z : ZEntry) : Bool :=
  z.routes == 0 || z.gauge == 0 || decide (123 < z.gauge) || z.count == 0 || decide (z.interval < 500)
    || decide (10000 < z.interval)

/-- Check 2. -/
def zbad2 (ng : Nat) (z : ZEntry) : Bool := decide ((zcover ng z).1 < 0) || decide (149796 ≤ (zcover ng z).2)

/-- Check 4, against the entries before it. -/
def zbad4 (before : List ZEntry) (z : ZEntry) : Bool :=
  decide (524288 < z.base + z.count)
    || (before.any fun a => !(a.port == z.port && !zmeet a z) && decide (a.base < z.base + z.count)
          && decide (z.base < a.base + a.count))
    || ((List.range 16).any fun r => z.routes.testBit r
          && decide (262143 < ((zapply (before ++ [z]) z.port r).map ZEntry.count).sum))

/-- Check 5, against the entries before it. -/
def zbad5 (before : List ZEntry) (z : ZEntry) : Bool :=
  z.priv && (decide (256 ≤ (before.filter ZEntry.priv).length) || before.any fun a => a.priv && a.pidx == z.pidx)

/-- Check 6 for port `n` on route `r`. -/
def zcheck6 (s : State) (l : List ZEntry) (n r : Nat) : Option CheckFail :=
  let l := zapply l n r
  let p := (l.map ZEntry.count).sum
  let len := s.lenOf n r
  let slow := (s.patSteps n false).any (fun x => decide (4 * s.sDelay n x < 5 * (max len p + 640)))
    || (s.patSteps n true).any fun x => decide (4 * s.sDelay n x < 5 * (max (binsOf len) p + 640))
  match l.head? with
  | none => none
  | some z =>
    if slow then some (6, z.e, E_ZONE_RATE)
    else (zqueue (s.ngOf n) 16384 (zplaces (s.ngOf n) l)).2.map fun e => (6, e, E_ZONE_RATE)

/-- The checks of a commit over the enabled entries `l` (R179). -/
def zcheck (s : State) (l : List ZEntry) : Option CheckFail :=
  ((l.find? zbad1).map fun z => (1, z.e, E_ZONE_ENTRY))
  <|> ((l.find? fun z => zbad2 (s.ngOf z.port) z).map fun z => (2, z.e, E_ZONE_ENTRY))
  <|> ((firstPair l fun b z => b.any fun a => zmeet a z && a.z0 != z.z0).map fun z => (3, z.e, E_ZONE_Z0))
  <|> ((firstPair l zbad4).map fun z => (4, z.e, E_ZONE_POINTS))
  <|> ((firstPair l zbad5).map fun z => (5, z.e, E_ZONE_PRIV))
  <|> ((List.range 4).findSome? fun n =>
        if s.pstate n = stIdle then none else s.zcheck6 l n (s.route n))

/-- Checks 4 and 6 for port `n` on route `r` against the active table (R180). -/
def zonPortCheck (s : State) (n r : Nat) : Option CheckFail :=
  let l := zenabled s.zon.active
  ((firstPair (l.filter fun z => z.port == n) zbad4).map fun z => (4, z.e, E_ZONE_POINTS)) <|> s.zcheck6 l n r

/-- Shows a failure in ZON_CHECK. -/
def zonShowCheck (s : State) (c : Option CheckFail) : State :=
  match c with
  | none => s.wr R.ZON_CHECK_CHECK 0
  | some (k, e, st) => ((s.wr R.ZON_CHECK_STATUS st).wr R.ZON_CHECK_CHECK k).wr R.ZON_CHECK_ENTRY e

/-- Two applicable entries of different GAUGE share a covered sample (R178). -/
def zshared (s : State) (l : List ZEntry) : Bool :=
  l.any fun a => l.any fun b =>
    zmeet a b && a.gauge != b.gauge
      && decide ((zcover (s.ngOf a.port) a).1 ≤ (zcover (s.ngOf b.port) b).2)
      && decide ((zcover (s.ngOf b.port) b).1 ≤ (zcover (s.ngOf a.port) a).2)

/-- Shows the points per course of each port, the privileged entries, and the entry of each privileged index. -/
def zonShow (s : State) : State :=
  let l := zenabled s.zon.active
  let s := (List.range 4).foldl (fun (s : State) n =>
    s.wr (R.ZON_PORT_POINTS_P n) ((zapply l n (s.route n)).map ZEntry.count).sum) s
  let s := s.wr R.ZON_STAT_PRIV (l.filter ZEntry.priv).length
  (List.range 256).foldl (fun (s : State) i =>
    s.wr (R.EVE_ZSTAT_ENTRY i) (((l.find? fun z => z.priv && z.pidx == i).map ZEntry.e).getD 0)) s

end Sys2Proof.Machine.State
end

