-- ==== Sys2Proof/Machine/Cpl.lean ====
section
/-! DEFINITION. The course pipeline: state records (R147), visits (R149, R150), the reference monitor with commit,
rollback and GAP records (R151 to R158), fresh courses (R159, R517) and releases (R160 to R163). -/

namespace Sys2Proof.Machine.State
open Sys2Proof Arith

/-! ### State records (R147). Phases are in units of 2^−15 π rad, increments in units of 2^−14 π rad. -/

/-- The state of one native sample (R149). -/
structure Rec9 where
  theta : Nat
  vel   : Int
  hold  : Nat
  refb  : Nat
  acq   : Nat
  /-- The sixteen 12-bit offsets. -/
  ofs   : Nat
  deriving DecidableEq, Repr

/-- A ring entry. -/
structure Entry where
  sat : Bool
  clip : Bool
  pol : Bool
  (res kind delta : Nat)
  deriving DecidableEq, Repr

def kNormal : Nat := 0
def kPredicted : Nat := 1
def kAcquire : Nat := 2
def kReseed : Nat := 3
def kDark : Nat := 4

/-- BAR2 offset of the record of native sample `i` of port `n`. -/
def recAddr (n i : Nat) : Nat := 0x800000 * n + 56 * i

/-- The empty state. -/
def rec9Empty : Rec9 := { theta := 0, vel := 0, hold := 15, refb := 0, acq := 0, ofs := 0 }

/-- The state in a checkpoint and offsets, and FSEQ. -/
def rec9Of (bytes : List Nat) : Rec9 × Nat :=
  let c := ofLeBytes (bytes.take 8)
  ({ theta := slice c 0 16, vel := toSigned 16 (slice c 16 16), hold := slice c 40 4, refb := slice c 44 4
     acq := slice c 48 16, ofs := ofLeBytes ((bytes.drop 8).take 24) }, slice c 32 8)

/-- The bytes of a checkpoint and offsets. -/
def rec9Bytes (r : Rec9) (fseq : Nat) : List Nat :=
  leBytes 8 (r.theta % 2 ^ 16 + ofSigned 16 r.vel * 2 ^ 16 + fseq % 256 * 2 ^ 32 + r.hold % 16 * 2 ^ 40
    + r.refb % 16 * 2 ^ 44 + r.acq % 2 ^ 16 * 2 ^ 48) ++ leBytes 24 r.ofs

def entryOf (w : Nat) : Entry :=
  { sat := w.testBit 23, clip := w.testBit 22, pol := w.testBit 21, res := slice w 19 2, kind := slice w 16 3
    delta := slice w 0 16 }

def entryWord (e : Entry) : Nat :=
  e.delta % 2 ^ 16 + e.kind % 8 * 2 ^ 16 + e.res % 4 * 2 ^ 19 + ofBool e.pol * 2 ^ 21 + ofBool e.clip * 2 ^ 22
    + ofBool e.sat * 2 ^ 23

/-- The ring entry of position `p` of a record. -/
def ringGet (s : State) (n i p : Nat) : Entry := entryOf (s.sramWord (recAddr n i + 32 + 3 * p) 3)

/-- Writes a ring entry. -/
def ringPut (s : State) (n i p : Nat) (e : Entry) : State := s.sramPutWord (recAddr n i + 32 + 3 * p) 3 (entryWord e)

/-- OFS of branch `b`. -/
def ofsGet (r : Rec9) (b : Nat) : Nat := slice r.ofs (12 * b) 12

/-- The offsets with OFS of branch `b` at `v`. -/
def ofsPut (r : Rec9) (b v : Nat) : Nat := r.ofs - ofsGet r b * 2 ^ (12 * b) + v % 4096 * 2 ^ (12 * b)

/-- The procedure apply of R149 with branch `b`. -/
def applyEntry (r : Rec9) (e : Entry) (b : Nat) : Rec9 :=
  let d := toSigned 16 e.delta
  let step (x : Int) : Nat := (((r.theta : Int) + 2 * x) % 65536).toNat
  if e.kind = kDark then r
  else if e.kind = kAcquire then
    { r with ofs := ofsPut r b (((d % 32768).toNat + 4) / 8), acq := r.acq ||| 2 ^ b, theta := step r.vel, hold := 0 }
  else if e.kind = kReseed then
    let r' := { r with theta := step d, vel := 0, hold := 0 }
    if r.acq = 0 then { r' with refb := b, acq := 2 ^ b, ofs := ofsPut r b 0 } else r'
  else if e.kind = kPredicted then { r with theta := step d, vel := d, hold := min (r.hold + 1) 15 }
  else
    let o := if b != r.refb && e.res = 1 then ofsPut r b (ofsGet r b + 1)
      else if b != r.refb && e.res = 3 then ofsPut r b (ofsGet r b + 4095)
      else r.ofs
    { r with theta := step d, vel := d, hold := 0, ofs := o }

/-- The branch of an entry of a course on slot `j`. -/
def branchOf (j : Nat) (pol : Bool) : Nat := 2 * j + ofBool pol

/-- The courses of port `n` that hold sequence numbers and are not released, oldest first. -/
def seqCourses (s : State) (n : Fin 4) : List Course :=
  (s.ports[n].outq.filterMap fun i => match i with
    | .course c => some c
    | .gap _ => none) ++ s.ports[n].courses.filter fun c => c.seq.isSome

/-- Whether the fresh course of stamp `root`, or a course after it, has folded record `i` (R149). -/
def recFolded (s : State) (n : Fin 4) (root i : Nat) : Bool :=
  match s.ports[n].folded with
  | some (f, l) => f == root && decide (i < l)
  | none => false

/-- The state of record `i` of port `n` before the course that holds sequence number `m` and builds on the fresh course
of stamp `root` (R149), `bad` for a record that shows an uncorrectable error (R351). -/
def recState (s : State) (n : Fin 4) (root i m : Nat) (bad : Bool) : Rec9 :=
  if bad then rec9Empty
  else
    let (ck, fseq) := rec9Of (s.sramGet (recAddr n i) 32)
    let folded := s.recFolded n root i
    let from_ := if folded then (fseq + 1) % 256 else s.ports[n].baseSeq
    let base := if folded then ck else rec9Empty
    (List.range ((m + 256 - from_) % 256)).foldl (fun (r : Rec9) k =>
      let q := (from_ + k) % 256
      match (s.seqCourses n).find? fun c => c.seq == some q with
      | none => r
      | some c =>
        let e := s.ringGet n i (q % 8)
        applyEntry r e (branchOf c.slot e.pol)) base

/-- wrap(x) of R150 for a phase in units of 2^−15 π rad. -/
def wrapPhase (x : Int) : Int := toSigned 16 (x % 65536).toNat

/-- A value in units of 2^−15 as a multiple of 2^−14, a halfway value rounded up. -/
def halfUp (x : Int) : Int := (x + 1) / 2

/-- The fade threshold test of R144 and R163. -/
def isFaded (s : State) (n : Nat) (watch : Bool) (i power : Nat) : Bool :=
  let native := if watch then 10 * i else i
  let th := s.rd (R.CPL_FADE_TH_TH n (min 63 (native / 2400)))
  if watch then decide (32 * power < 5 * th) else decide (power < th)

/-- The ring entry that the visit of course `c` computes at record `i` (R150). -/
def visitEntry (s : State) (n : Nat) (c : Course) (r : Rec9) (i : Nat) (x : Sample) : Entry :=
  let b := branchOf c.slot x.pol
  let known := r.acq.testBit b
  let th : Int := if known then ((x.theta : Int) - 16 * ofsGet r b) % 65536 else x.theta
  let reseed := c.reseed || decide (s.rd (R.CPL_CTRL_HOLD_MAX n) ≤ r.hold) || r.acq == 0
  let faded := s.isFaded n c.watch i x.power
  let mk (kind : Nat) (d : Int) (res : Nat) (sat : Bool) : Entry :=
    { sat := x.sat || sat, clip := x.clip, pol := x.pol, res := res, kind := kind, delta := ofSigned 16 d }
  if c.dark then mk kDark 0 0 false
  else if faded || (reseed && r.acq != 0 && !known) then mk kPredicted (if reseed then 0 else r.vel) 0 false
  else if reseed then mk kReseed (halfUp (wrapPhase (th - r.theta))) 0 false
  else if !known then mk kAcquire (halfUp (wrapPhase (x.theta - r.theta - 2 * r.vel))) 0 false
  else
    let p := wrapPhase (th - r.theta - 2 * r.vel)
    let d := halfUp (2 * r.vel + p)
    let dz : Int := 128 * s.rd (R.CPL_CTRL_DZ n)
    mk kNormal (satSigned 16 d) (if dz < p then 1 else if p < -dz then 3 else 0) (satSigned 16 d != d)

/-- Records of a course: LEN, or the bins of a watch course (R163). -/
def recCount (c : Course) : Nat := if c.watch then binsOf c.len else c.len

/-- GAP records at the head of the release queue pass on to the course link. -/
def passGaps (s : State) (n : Fin 4) : Nat → State
  | 0 => s
  | k + 1 =>
    match s.ports[n].outq with
    | .gap g :: r => passGaps (s.modPort n fun p => { p with outq := r, link := p.link ++ [.gap g] }) n k
    | _ => s

/-- Queues the GAP record of the open episode (R153, R157). -/
def queueGap (s : State) (n : Fin 4) : State :=
  match s.ports[n].episode with
  | none => s
  | some e =>
    let no := s.ports[n].gapNo + 1
    let g : Gap := { first := e.first, last := e.last, lost := satNat 16 e.count, causes := e.causes
                     next := s.rd (R.CPL_COURSES_COUNT n), no := no }
    let s := s.modPort n fun p => { p with episode := none, outq := p.outq ++ [.gap g], gapNo := no }
    let s := (s.ev (R.CPL_EVENT_GAP n) 0).count (R.CPL_GAPS_COUNT n)
    let s := ((s.wr (R.CPL_GAP_CAUSES_CAUSES n) e.causes).wr (R.CPL_GAP_FIRST_STAMP n) e.first).wr
      (R.CPL_GAP_LAST_STAMP n) e.last
    let s := { s with acq := { s.acq with gapRanges := s.acq.gapRanges.set n (s.acq.gapRanges[n] ++ [(e.first, e.last)]) } }
    let s := s.log 9 1 0x0081 n [e.causes, e.count, e.first % 2 ^ 32, e.first / 2 ^ 32]
    ((s.presentSrc 9 (some n.val) (fun _ => true) e.first).passGaps n (s.ports[n].outq.length)).showCpl n

/-- A course is lost with the causes `x` (R153, R517): the episode, the counters and the report. -/
def loseCourse (s : State) (n : Fin 4) (c : Course) (x : Nat) : State :=
  let s := s.modPort n fun p =>
    let e := p.episode.getD { first := c.stamp, last := c.stamp, causes := 0, count := 0 }
    { p with
      courses := p.courses.filter fun d => d != c
      episode := some { first := min e.first c.stamp, last := max e.last c.stamp, causes := e.causes ||| x
                        count := e.count + 1 }
      freshNext := p.freshNext || c.fresh }
  let s := (s.count (R.CPL_LOST_COUNT n)).ev (R.CPL_EVENT_ROLLBACK n) 0
  (s.courseReport n true c.stamp (stampAdd c.stamp (10 * c.len - 1))).showCpl n

/-- Loses the courses of a list, the sequence number going back to the oldest that held one (R153, R156). -/
def loseAll (s : State) (n : Fin 4) (l : List Course) (x : Nat) : State :=
  let s := match l.findSome? Course.seq with
    | some q => s.wr (R.CPL_STAT_NEXT_SEQ n) q
    | none => s
  l.foldl (fun (s : State) c => s.loseCourse n c x) s

/-- Adds cause bits to an open episode. -/
def episodeAdd (s : State) (n : Fin 4) (x : Nat) : State :=
  s.modPort n fun p => { p with episode := p.episode.map fun e => { e with causes := e.causes ||| x } }

def causePllS : Nat := 1
def causePllC : Nat := 2
def causeCsy : Nat := 4
def causeCheck : Nat := 8
def causeInterlock : Nat := 16
def causeRoute : Nat := 32
def causeFibre : Nat := 64

/-- A course cause CHECK for the course of stamp `t` (R153, R155). -/
def courseCause (s : State) (n : Fin 4) (t : Nat) : State :=
  let l := s.ports[n].courses.dropWhile fun c => c.stamp != t
  if l.isEmpty then s.episodeAdd n causeCheck else s.loseAll n l causeCheck

/-- The causes that wait reach the reference monitor of port `n` (R151, R153): a port-wide cause loses every course
that is pending, a failed check tone its course and those after it. A port that stands IDLE or HALTED gives its GAP
record at once. -/
def monitorCause (s : State) (n : Fin 4) : State :=
  let p := s.ports[n]
  let s := s.modPort n fun p => { p with causes := 0, checkFail := [] }
  let s := if p.causes = 0 then s else (s.loseAll n p.courses p.causes).episodeAdd n p.causes
  let s := p.checkFail.foldl (fun (s : State) t => s.courseCause n t) s
  let st := s.pstate n
  if st = stIdle || st = stHalted then s.queueGap n else s.showCpl n

/-- The port-wide causes that are active now (R151, R153). -/
def activeCauses (s : State) (n : Nat) : Nat :=
  (if s.bit R.SYN_STAT_LOCK 0 then 0 else causePllS) + (if s.bit R.SYN_STAT_LOCK 1 then 0 else causePllC)
    + (if s.bit R.SYN_STAT_LOCK (3 + csyOf n) then 0 else causeCsy)

/-- A course is fetched: pending, or lost from the start while a port-wide cause is active (R153). The course that is
not lost at its fetch takes over freshness (R517). -/
def fetchCourse (s : State) (n : Fin 4) (c : Course) : State :=
  let a := s.activeCauses n
  if a != 0 then s.loseCourse n c a
  else
    let c := { c with fresh := s.ports[n].freshNext }
    s.modPort n fun p => { p with freshNext := false, courses := p.courses ++ [c] }

/-- The first pending course without a sequence number, whose first sample comes to stage 6. -/
def nextVisit (s : State) (n : Fin 4) : Option Course := s.ports[n].courses.find? fun c => c.seq.isNone

/-- Replaces a pending course. -/
def setCourse (s : State) (n : Fin 4) (c d : Course) : State :=
  s.modPort n fun p => { p with courses := p.courses.map fun x => if x = c then d else x }

/-- Visits every record of course `c` (R150), and counts its PREDICTED and SAT entries. -/
def visitRecords (s : State) (n : Fin 4) (c : Course) (q : Nat) (xs : List Sample) (ecc : Ecc) : State × Nat × Nat :=
  (List.range (recCount c)).foldl (fun (acc : State × Nat × Nat) i =>
    let (s, f, t) := acc
    let bad := ecc.ue.contains i
    let r := s.recState n c.root i q bad
    let x := xs.getD i { theta := 0, power := 0, pol := false, clip := false, sat := false }
    let e := s.visitEntry n c r i x
    (s.ringPut n i (q % 8) e, f + ofBool (e.kind == kPredicted), t + ofBool e.sat)) (s, 0, 0)

/-- The first sample of the oldest course without a sequence number comes to stage 6, and its visit runs (R148 to R150,
R153). -/
def visitStart (s : State) (n : Fin 4) (xs : List Sample) (ecc : Ecc) : State :=
  match s.nextVisit n with
  | none => s
  | some c =>
    let q := s.rd (R.CPL_STAT_NEXT_SEQ n)
    let reseed := match s.ports[n].episode with
      | some e => decide (e.first < c.stamp)
      | none => false
    let d := { c with seq := some q, reseed := reseed, root := if c.fresh then c.stamp else s.ports[n].freshStamp }
    let s := (s.setCourse n c d).bump (R.CPL_STAT_NEXT_SEQ n)
    let s := if c.fresh then s.modPort n fun p => { p with baseSeq := q, freshStamp := c.stamp } else s
    let s := s.eccSeen 0 reqCPL ecc (recAddr n)
    let (s, f, t) := s.visitRecords n d q xs ecc
    (s.setCourse n d { d with faded := f, satn := t }).showCpl n

/-- A commit after the last course of an open episode queues its GAP record (R153, R157). -/
def closeEpisode (s : State) (n : Fin 4) (t : Nat) : State :=
  match s.ports[n].episode with
  | some e => if e.last < t then s.queueGap n else s
  | none => s

/-- The tick after the last sample of the oldest pending course is written: it is committed (R153, R154). -/
def courseCommit (s : State) (n : Fin 4) : State :=
  match s.ports[n].courses with
  | [] => s
  | c :: r =>
    match c.seq with
    | none => s
    | some q =>
      let s := s.modPort n fun p => { p with courses := r }
      let s : State := (s.wr (R.CPL_STAT_COMMIT_SEQ n) q).wr (R.CPL_LAST_COMMIT_STAMP n) c.stamp
      let s := s.closeEpisode n c.stamp
      let c : Course := { c with number := s.rd (R.CPL_COURSES_COUNT n), gaps := s.ports[n].gapNo }
      let s := s.bump (R.CPL_COURSES_COUNT n)
      let s := (s.count (R.CPL_FADED_COUNT n) c.faded).count (R.CPL_SATCNT_COUNT n) c.satn
      let s := if c.satn = 0 then s else s.ev (R.CPL_EVENT_SAT n)
      let s := s.modPort n fun p => { p with outq := p.outq ++ [.course c] }
      s.showCpl n

/-! ### Release (R160, R161) -/

/-- What the release keeps of a record: the increment Δ of R161 and the entry. -/
abbrev Delta := Int × Entry

/-- Folds entry `q` of course `c` into record `i`, and gives Δ. -/
def foldRecord (s : State) (n : Fin 4) (c : Course) (q i : Nat) (bad : Bool) : State × Delta :=
  let e0 := s.ringGet n i (q % 8)
  let base := if bad || !(s.recFolded n c.root i) then rec9Empty else (rec9Of (s.sramGet (recAddr n i) 32)).1
  let e := if bad then { e0 with kind := kReseed } else e0
  let d := if e.kind = kNormal || e.kind = kPredicted then toSigned 16 e.delta
    else if e.kind = kAcquire then base.vel else 0
  let r := applyEntry base e (branchOf c.slot e.pol)
  (s.sramPut (recAddr n i) (rec9Bytes r q), (d, e))

/-- Folds every record of the course. -/
def foldAll (s : State) (n : Fin 4) (c : Course) (q : Nat) (ecc : Ecc) : State × List Delta :=
  (List.range (recCount c)).foldl (fun (acc : State × List Delta) i =>
    let (s, l) := acc
    let (s, d) := s.foldRecord n c q i (ecc.ue.contains i)
    (s, l ++ [d])) (s, [])

/-- The flag bits [6:2] that an end of a gauge contributes (R161). -/
def endFlags (d : Option Delta) : Nat :=
  match d with
  | none => 0
  | some (_, e) =>
    ofBool (e.kind == kReseed) * 64 + ofBool (e.kind == kPredicted) * 32 + ofBool (e.kind == kAcquire) * 16
      + ofBool e.clip * 8 + ofBool e.sat * 4

/-- The course link value of native sample or bin `i` with gauge `g` (R161). -/
def linkValue (l : List Delta) (i g : Nat) : Nat :=
  let h1 := g / 2
  let h2 := g - h1
  let a := if h1 ≤ i then l[i - h1]? else none
  let b := l[i + h2]?
  let fl := endFlags a ||| endFlags b
  match a, b with
  | some (x, _), some (y, _) => ofSigned 24 (64 * (y - x)) * 256 + fl
  | _, _ => 128 ||| fl

/-- The gauge in bins of a watch course (R163). -/
def binGauge (g : Nat) : Nat := max 1 (roundDiv g 10).toNat

/-- The gauge of record `i` of a course on a port with zones `z` (R161, R163, R177). -/
def recGauge (s : State) (n : Nat) (c : Course) (z : List ZEntry) (i : Nat) : Nat :=
  let d := s.rd (R.CPL_CTRL_GAUGE_DEF n)
  if c.watch then binGauge (zgauge (s.ngOf n) d z (10 * i)) else zgauge (s.ngOf n) d z i

/-- The words of a course header, with the field VALUES (R162). -/
def courseHeader (s : State) (n : Nat) (c : Course) (values : Nat) : List Nat :=
  [c.stamp % 2 ^ 32, c.stamp / 2 ^ 32, c.number,
   c.tq * 2 ^ 29 + ofBool c.slewing * 2 ^ 28 + ofBool c.watch * 2 ^ 27 + ofBool c.reseed * 2 ^ 26
     + ofBool c.fresh * 2 ^ 25 + ofBool c.dark * 2 ^ 24 + ofBool c.test * 2 ^ 23 + ofBool c.clip * 2 ^ 22
     + ofBool c.sat * 2 ^ 21 + c.slot * 2 ^ 18 + c.chirp * 2 ^ 15 + c.step,
   c.route * 2 ^ 26 + values, c.faded, if s.on (R.LDR_NE_CFG_EN n) then c.ne else 0, c.gaps]

/-- The release of the oldest committed course begins: entries are folded and the course is emitted (R160 to R163). The
zone generation and the group index are those of now (R19, R182). -/
def releaseStart (s : State) (n : Fin 4) (ecc : Ecc) : State :=
  let s := s.passGaps n s.ports[n].outq.length
  match s.ports[n].outq with
  | .course c :: r =>
    let q := c.seq.getD 0
    let gen := s.rd R.ZON_STAT_GEN
    let ng := s.ngOf n
    let z := zapply (zenabled s.zon.active) n c.route
    let s := s.eccSeen 0 reqCPL ecc (recAddr n)
    let (s, l) := s.foldAll n c q ecc
    let vals := (List.range l.length).map fun i => linkValue l i (s.recGauge n c z i)
    let c := { c with clip := vals.any fun v => v.testBit 3, sat := vals.any fun v => v.testBit 2 }
    let s := s.modPort n fun p =>
      { p with
        outq := r, link := p.link ++ [.course c gen ng z vals], releasing := true
        folded := if c.fresh then some (c.stamp, recCount c) else p.folded }
    let s := s.acqHand 1 n (fun _ => true) fun k =>
      courseUnit s.acq.ch[k].usize c.stamp (s.courseHeader n c vals.length) vals c.clip
    (s.passGaps n r.length).showCpl n
  | _ => s

/-- The words of a GAP record (R157). -/
def gapWords (g : Gap) : List Nat :=
  [g.first % 2 ^ 32, g.first / 2 ^ 32, g.last % 2 ^ 32, g.last / 2 ^ 32, 2 ^ 30 + g.lost, g.causes, g.next, g.no]

/-- The last value of the release has left. -/
def releaseEnd (s : State) (n : Fin 4) : State := (s.modPort n fun p => { p with releasing := false }).showCpl n

end Sys2Proof.Machine.State
end

