-- ==== Sys2Proof/Machine/Zon.lean ====
section
/-! DEFINITION. ZON: group index, commit and discard (R169, R181, R183, R518), and the points of a course (R172 to
R176). -/

namespace Sys2Proof.Machine.State
open Sys2Proof Arith

def setBusy (s : State) (k : Nat) : State :=
  ({ s with zon := { s.zon with busy := k } } : State).put R.ZON_STAT_BUSY (k != 0)

/-- A write of ZON_PORTn_NG (R169). -/
def zonNgWrite (s : State) (n : Fin 4) (v : Nat) : State :=
  if s.pstate n = stIdle && s.zon.busy = 0 then
    ({ s with zon := { s.zon with ng := some (n.val, v % 2 ^ 24) } } : State).setBusy 3
  else s.ev R.ZON_EVENT_WRITE_REJECT

/-- A write of ZON_CTRL (R181, R183, R518). -/
def zonCtrl (s : State) (commit discard : Bool) : State :=
  if !commit && !discard then s
  else if (commit && discard) || s.zon.busy != 0 then s.ev R.ZON_EVENT_WRITE_REJECT
  else if commit then s.setBusy 1 else s.setBusy 2

/-- The recomputation of a group index ends (R169): accepted, or discarded because a position fails check 2. -/
def ngDone (s : State) : State × Option CheckFail :=
  match s.zon.ng with
  | none => (s, none)
  | some (n, v) =>
    let s := ({ s with zon := { s.zon with ng := none } } : State).setBusy 0
    let mine (b : List (Nat × Nat)) : List ZEntry := (zenabled b).filter fun z => z.port == n
    match (mine s.zon.active ++ mine s.zonShadow).find? (zbad2 v) with
    | some z =>
      let c : CheckFail := (2, z.e, E_ZONE_ENTRY)
      ((s.zonShowCheck (some c)).ev R.ZON_EVENT_COMMIT_FAIL, some c)
    | none => ((((s.wr (R.ZON_PORT_NG_NG n) v).bump R.ZON_STAT_GEN).zonShowCheck none).zonShow, none)

/-- A commit ends: the shadow table becomes active, or the first failure is shown (R179, R181). -/
def commitDone (s : State) : State × Option CheckFail :=
  let s := s.setBusy 0
  let b := s.zonShadow
  let l := zenabled b
  match s.zcheck l with
  | some c => ((s.zonShowCheck (some c)).ev R.ZON_EVENT_COMMIT_FAIL, some c)
  | none =>
    let s := ({ s with zon := { s.zon with active := b } } : State).zonShowCheck none
    let s := (s.bump R.ZON_STAT_GEN).ev R.ZON_EVENT_COMMIT_DONE
    ((if s.zshared l then s.ev R.ZON_EVENT_GAUGE_SHARED else s).zonShow, none)

/-- A discard ends: the active table is copied into the shadow table (R518). -/
def discardDone (s : State) : State := (s.zonSetShadow s.zon.active).setBusy 0

/-! ### Points -/

/-- The signed DPHI of a course link value. -/
def dphiOf (v : Nat) : Int := toSigned 24 (v / 256)

/-- The native samples or bins that a point uses (R172, R173). -/
def pointUses (ng : Nat) (watch : Bool) (p : ZPlace) : List Int :=
  let i0 : Int := (p.q / 2 ^ 24 : Nat)
  if watch then [i0 / 10]
  else if p.z.box then (List.range (zN ng p.z)).map fun (k : Nat) => i0 - ((zN ng p.z - 1) / 2 : Nat) + (k : Int)
  else if p.q / 2 ^ 16 % 256 = 0 then [i0] else [i0, i0 + 1]

/-- DPHI_p and the flags of a point (R172, R173). -/
def pointDphi (ng : Nat) (watch : Bool) (vals : List Nat) (p : ZPlace) : Int × Nat :=
  let uses := pointUses ng watch p
  let got := uses.filterMap fun i => if 0 ≤ i then vals[i.toNat]? else none
  let fl := got.foldl (fun a v => a ||| v % 256) 0
  if got.length < uses.length then (0, fl ||| 128)
  else
    let f : Int := (p.q / 2 ^ 16 % 256 : Nat)
    let d : Int :=
      if watch || (!p.z.box && f == 0) then dphiOf (got.getD 0 0)
      else if p.z.box then (got.map dphiOf).foldl (· + ·) 0 / zN ng p.z
      else ((256 - f) * dphiOf (got.getD 0 0) + f * dphiOf (got.getD 1 0)) / 256
    (d, fl)

/-- RATE of R174 before saturation. -/
def pointRate (z : ZEntry) (d : Int) (dt : Nat) : Int :=
  d * z.scale * 1250000000 / (2 ^ 36 * dt * 2 ^ z.unit : Nat)

/-- The points of a course, and how many saturated. -/
def makePoints (ng : Nat) (watch : Bool) (vals : List Nat) (dt : Option Nat) (l : List ZPlace) :
    List Point × Nat :=
  let out := l.map fun p =>
    let (d, fl) := pointDphi ng watch vals p
    let r := match dt with
      | some t => if t = 0 then 0 else pointRate p.z d t
      | none => 0
    let sat := satSigned 24 r != r
    (({ entry := p.z.e, point := p.z.base + p.k
        value := ofSigned 24 (satSigned 24 r) * 256 + (if sat then fl ||| 4 else fl) } : Point), sat)
  (out.map Prod.fst, (out.filter fun x => x.2).length)

/-- GAP records at the head of the course link pass through ZON. -/
def passLinkGaps (s : State) (n : Fin 4) : Nat → State
  | 0 => s
  | k + 1 =>
    match s.ports[n].link with
    | .gap g :: r => passLinkGaps (s.modPort n fun p => { p with link := r, points := p.points ++ [.gap g] }) n k
    | _ => s

/-- ZON maps the course at the head of the course link to its points (R172 to R176). -/
def zonCourse (s : State) (n : Fin 4) : State :=
  let s := s.passLinkGaps n s.ports[n].link.length
  match s.ports[n].link with
  | .course c gen ng z vals :: r =>
    let l := zplaces ng z
    let dt := match s.ports[n].zonPrev with
      | some (t, w) => if c.fresh || w != c.watch then none else some ((c.stamp + 2 ^ 64 - t) % 2 ^ 64)
      | none => none
    let (pts, sat) := makePoints ng c.watch vals dt l
    let s := s.modPort n fun p =>
      { p with link := r, points := p.points ++ [.course c gen z pts], zonPrev := some (c.stamp, c.watch) }
    let s := if sat = 0 then s else (s.count R.ZON_SATCNT_COUNT sat).ev R.ZON_EVENT_RATE_SAT
    let s := s.wr (R.ZON_PORT_GEN_GEN n) gen
    let level := min 16384 (zqueue ng 16384 l).1
    let s := s.wr (R.ZON_PORT_QMAX_LEVEL n) (max level (s.rd (R.ZON_PORT_QMAX_LEVEL n)))
    s.passLinkGaps n r.length
  | _ => s

/-- The words that ZON sends for a course: the header with the two fields rewritten, and the points with a marker before
each run of one entry (R175). -/
def pointStream (s : State) (n : Nat) (c : Course) (gen : Nat) (pts : List Point) : List Nat :=
  let h := s.courseHeader n c pts.length
  let h := h.set 6 (gen * 65536 + h.getD 6 0)
  h ++ (pts.foldl (fun (acc : List Nat × Option (Nat × Nat)) p =>
    let (out, last) := acc
    if last = some (p.entry, p.point) then (out ++ [p.value], some (p.entry, p.point + 1))
    else (out ++ [2 ^ 31 + p.entry, p.point, p.value], some (p.entry, p.point + 1))) ([], none)).1

end Sys2Proof.Machine.State
end

