-- ==== Sys2Proof/Machine/Fdc.lean ====
section
/-! DEFINITION. The filter and decimation chain: profiles and their figures (R188 to R193, R195), start checks (R196),
stages (R189 to R192), watch bypass (R198), gaps and resets (R199, R200), frames and the frame queue (R201 to R203). -/

namespace Sys2Proof.Machine.State
open Sys2Proof Arith

/-! ### Profiles -/

/-- The settings of a filter profile. -/
structure Prof where
  en : Bool
  rs : Bool
  (d1 d2 t2 g1 sh1 out : Nat)
  deriving DecidableEq, Repr

def prof (s : State) (n p : Nat) : Prof :=
  { en := s.on (R.FDC_PROF_CFG0_EN n p), rs := s.on (R.FDC_PROF_CFG0_RS_EN n p), d1 := s.rd (R.FDC_PROF_CFG0_D1 n p)
    d2 := s.rd (R.FDC_PROF_CFG0_D2 n p), t2 := s.rd (R.FDC_PROF_CFG0_T2 n p), g1 := s.rd (R.FDC_PROF_CFG1_G1 n p)
    sh1 := s.rd (R.FDC_PROF_CFG0_SH1 n p), out := s.rd (R.FDC_PROF_OUT_OUT_PERIOD n p) }

/-- A profile that uses no history and no DRAM (R195). -/
def Prof.stage1Only (f : Prof) : Bool := f.t2 == 1 && f.d2 == 1 && !f.rs

/-- GD12 for a nominal input period of `c` ÷ `k` ticks (R190). -/
def gd12 (c k : Nat) (f : Prof) : Nat := (roundDiv (c * ((f.d1 - 1) + f.d1 * (f.t2 - 1)) : Nat) (2 * k)).toNat

/-- GD (R193). -/
def gdOf (c k : Nat) (f : Prof) : Nat :=
  gd12 c k f + if f.rs then (roundDiv (4 * f.d1 * f.d2 * c : Nat) k).toNat else 0

/-- A sum of fractions of natural numbers; a zero denominator adds nothing. -/
def fracSum (l : List (Nat × Nat)) : Nat × Nat :=
  l.foldl (fun a b => if b.2 = 0 then a else (a.1 * b.2 + b.1 * a.2, a.2 * b.2)) (0, 1)

/-- The profiles that zones use, in rising order. -/
def profsUsed (z : List ZEntry) : List Nat := (List.range 16).filter fun p => z.any fun e => e.filt == p

/-- The points that use profile `p`. -/
def profPoints (z : List ZEntry) (p : Nat) : Nat := ((z.filter fun e => e.filt == p).map ZEntry.count).sum

/-- Operations per tick with Pin at `c` ÷ `k` ticks (R195). -/
def fdcOps (s : State) (n c k : Nat) (z : List ZEntry) : Nat × Nat :=
  fracSum (((z.map ZEntry.count).sum * k, c) :: (profsUsed z).flatMap fun p =>
    let f := s.prof n p
    let w := profPoints z p
    [(w * f.t2 * k, f.d1 * f.d2 * c), if f.rs then (w * 8, f.out) else (0, 1)])

/-- Bytes of DRAM traffic per tick (R195). -/
def fdcTraffic (s : State) (n c k : Nat) (z : List ZEntry) : Nat × Nat :=
  fracSum ((profsUsed z).flatMap fun p =>
    let f := s.prof n p
    let w := 4 * profPoints z p
    if f.stage1Only then []
    else [(w * k, f.d1 * c), (w * f.t2 * k, f.d1 * f.d2 * c),
      if f.rs then (w * k, f.d1 * f.d2 * c) else (0, 1), if f.rs then (w * 8, f.out) else (0, 1)])

/-- Bytes of history (R195). -/
def fdcHist (s : State) (n : Nat) (z : List ZEntry) : Nat :=
  ((profsUsed z).map fun p =>
    let f := s.prof n p
    if f.stage1Only then 0 else profPoints z p * 4 * (f.t2 + if f.rs then 8 else 0)).sum

/-- The start checks over zones `z` with Pin at `c` ÷ `k` ticks: check, profile and status (R196). -/
def fdcCheck (s : State) (n c k : Nat) (z : List ZEntry) : Option CheckFail :=
  let used := profsUsed z
  let low := used.headD 0
  let ops := s.fdcOps n c k z
  let bw := s.fdcTraffic n c k z
  (firstBad used 1 E_PARAM fun p => !(s.prof n p).en)
  <|> (firstBad used 2 E_PARAM fun p =>
      let f := s.prof n p
      f.rs && (decide (f.out < 1250) || decide (2 * k * f.out < f.d1 * f.d2 * c)))
  <|> (if 4000 * ops.2 < 1250 * ops.1 then some (3, low, E_PARAM) else none)
  <|> (if s.rd (R.FDC_CTRL_BUDGET n) * 100 * bw.2 < 1250 * bw.1 || 67108864 < s.fdcHist n z
       then some (4, low, E_PARAM) else none)
  <|> (if s.degraded then firstBad used 5 E_DRAM fun p => !(s.prof n p).stage1Only else none)

/-- Shows a failed check in FDC_CHECK. -/
def fdcSetCheck (s : State) (n : Nat) (c : CheckFail) : State :=
  ((s.wr (R.FDC_CHECK_STATUS n) c.2.2).wr (R.FDC_CHECK_CHECK n) c.1).wr (R.FDC_CHECK_PROFILE n) c.2.1

/-- Shows the outcome of the checks in FDC_CHECK; a failure sets the event flag `f`. -/
def fdcShowCheck (s : State) (n : Nat) (c : Option CheckFail) (f : Field) : State :=
  match c with
  | none => s.wr (R.FDC_CHECK_CHECK n) 0
  | some c => (s.fdcSetCheck n c).ev f

/-- Shows the load and the history of zones `z` at the Pin of the port (R188, R195). -/
def fdcShowLoad (s : State) (n : Fin 4) (z : List ZEntry) : State :=
  let ops := s.fdcOps n s.ports[n].pinC s.ports[n].pinS z
  let bw := s.fdcTraffic n s.ports[n].pinC s.ports[n].pinS z
  ((s.wr (R.FDC_LOAD_OPS n) (ceilDiv (1250 * ops.1) ops.2)).wr (R.FDC_LOAD_BW n) (ceilDiv (125 * bw.1) bw.2)).wr
    (R.FDC_HIST_SIZE_BYTES n) (s.fdcHist n z)

/-! ### The frame queue (R202, R339) -/

def frameBytes (f : Frame) : Nat := 32 + (f.runs.map fun r => 8 + 4 * r.vals.length).sum

def fqBytes (i : FqItem) : Nat := match i.frame with
  | some f => frameBytes f
  | none => 32

def modFdc (s : State) (n : Fin 4) (f : Fdc → Fdc) : State := s.modPort n fun p => { p with fdc := f p.fdc }

/-- Changes the phases of profile `p`. -/
def modProf (s : State) (n : Fin 4) (p : Nat) (f : FProf → FProf) : State :=
  s.modFdc n fun q =>
    { q with profs := Vector.ofFn fun (i : Fin 16) => if i.val = p then f q.profs[i] else q.profs[i] }

/-- Shows the frame queue (MEM_FQn). -/
def showFq (s : State) (n : Fin 4) : State :=
  (s.put (R.MEM_FQ_DRAM n) s.ports[n].fdc.inDram).wr (R.MEM_FQ_LEVEL n) ((s.ports[n].fdc.queue.map fqBytes).sum)

def fqIndex (p kind : Nat) : Fin 64 := Fin.ofNat 64 (4 * p + kind)

/-- The words of a frame (R201). -/
def frameWords (f : Frame) : List Nat :=
  let vals := f.runs.flatMap FRun.vals |>.map Prod.fst
  let n := vals.length
  [f.stamp % 2 ^ 32, f.stamp / 2 ^ 32,
   f.tq * 2 ^ 29 + ofBool f.slewing * 2 ^ 28 + ofBool f.watch * 2 ^ 27 + ofBool (vals.any fun v => v.testBit 1) * 2 ^ 26
     + ofBool (vals.any fun v => v.testBit 0) * 2 ^ 25 + ofBool (vals.any fun v => v / 4 % 64 != 0) * 2 ^ 24
     + f.prof * 2 ^ 20 + f.port * 2 ^ 18 + f.kind * 2 ^ 16 + f.gen % 65536,
   f.frame, 3 * 2 ^ 30 + f.det * 2 ^ 26 + n, f.dropped * 65536 + f.runs.length % 8192, f.course, f.gaps]
  ++ f.runs.flatMap fun r => [2 ^ 31 + r.vals.length * 4096 + r.entry, r.point] ++ r.vals.map Prod.fst

/-- The values that stay in runs when only `k` of them fit. -/
def cutRuns : List FRun → Nat → List FRun
  | [], _ => []
  | r :: l, k => { r with vals := r.vals.take k } :: cutRuns l (k - r.vals.length)

/-- A FRAME unit for a slot with units of `u` bytes: a longer frame is cut (R291). -/
def frameUnit (u : Nat) (f : Frame) : CapUnit :=
  let vals := f.runs.flatMap fun r => r.vals.map Prod.fst
  let clip := vals.any fun v => v.testBit 3
  if frameBytes f ≤ u then
    { stamp := f.stamp, bytes := bytesOfWords (frameWords f), clip := clip, trunc := false }
  else
    let runs := cutRuns f.runs ((u - 32 - 8 * f.runs.length) / 4)
    let marks := f.runs.zip runs
    let words := (frameWords f).take 8 ++ marks.flatMap fun e =>
      [2 ^ 31 + e.1.vals.length * 4096 + e.1.entry, e.1.point] ++ e.2.vals.map Prod.fst
    { stamp := f.stamp, bytes := ((bytesOfWords words).take u) ++ List.replicate (u - 4 * words.length) 0, clip := clip
      trunc := true }

/-- VDC, ACQ and CMP read a frame as soon as it is written (R275, R291, R313). -/
def fqHand (s : State) (n : Fin 4) (f : Frame) (wait : Nat) : State :=
  let s := if wait.testBit 1 then
      { s with vdcIn := s.vdcIn ++ [{ src := 0, port := n, prof := f.prof, kind := f.kind, entry := 0, stamp := f.stamp
                                      frame := some f, words := [] }] }
    else s
  let s := if wait.testBit 2 then
      s.acqHand 2 n (fun k => s.rd (R.ACQ_CH_CFG0_PROFILE k) == f.prof && s.rd (R.ACQ_CH_CFG0_KIND k) == f.kind) fun k =>
        frameUnit s.acq.ch[k].usize f
    else s
  if wait.testBit 3 then { s with cmpIn := s.cmpIn ++ [.frame f] } else s

/-- The consumer that reads at its own pace: EVE. -/
def slowConsumers (wait : Nat) : Nat := wait &&& 1

/-- Whether a frame goes ahead of the item: a frame of a later stamp. -/
def fqLater (f : Frame) (x : FqItem) : Bool :=
  match x.frame with
  | some g => stampLt f.stamp g.stamp
  | none => false

/-- Puts a frame into the queue in stamp order, behind the last GAP record (R24, R202; DESIGN CHOICE, log entry 81). -/
def fqInsert (f : Frame) (wait : Nat) : List FqItem → List FqItem
  | [] => [{ frame := some f, gap := none, wait := wait }]
  | x :: l =>
    if fqLater f x && (x :: l).all fun y => y.gap.isNone then { frame := some f, gap := none, wait := wait } :: x :: l
    else x :: fqInsert f wait l

/-- Writes a frame whole, or drops it (R202, R343). The header takes its FRAME and DROPPED numbers here. -/
def fqFrame (s : State) (n : Fin 4) (f : Frame) (wait : Nat) : State :=
  let q := s.ports[n].fdc
  let i := fqIndex f.prof f.kind
  let f := { f with frame := q.made[i] % 2 ^ 32, dropped := satNat 16 q.dropped[i] }
  let size := if q.inDram then 16777216 else 262144
  let full := decide (size < (q.queue.map fqBytes).sum + frameBytes f) || (q.inDram && s.memc.outage)
  let s := s.modFdc n fun q => { q with
    made := q.made.set i (q.made[i] + 1)
    dropped := q.dropped.set i (if full then q.dropped[i] + 1 else 0)
    hit := q.hit || (full && q.inDram && s.memc.outage)
    queue := if full || slowConsumers wait = 0 then q.queue else fqInsert f (slowConsumers wait) q.queue }
  if full then (s.count (R.FDC_DROPS_COUNT n)).ev (R.FDC_EVENT_DROP n) else (s.fqHand n f wait).showFq n

/-- Puts a GAP record into the queue. -/
def fqGap (s : State) (n : Fin 4) (g : Gap) : State :=
  let wait := s.rd (R.FDC_CTRL_CONSUMERS n)
  let s := if wait.testBit 3 then { s with cmpIn := s.cmpIn ++ [.gap n g] } else s
  if slowConsumers wait = 0 then s
  else (s.modFdc n fun q =>
    { q with queue := q.queue ++ [{ frame := none, gap := some g, wait := slowConsumers wait }] }).showFq n

/-- The consumer of bit `b` reads the oldest item it has not read; an item read by all is freed (R202). -/
def fqRead (s : State) (n : Fin 4) (b : Nat) : State × Option FqItem :=
  let q := s.ports[n].fdc.queue
  match q.findIdx? fun i => i.wait.testBit b with
  | none => (s, none)
  | some k =>
    let i := q.getD k { frame := none, gap := none, wait := 0 }
    let j := { i with wait := Arith.putBit i.wait b false }
    let q' := if j.wait = 0 then q.eraseIdx k else q.set k j
    ((s.modFdc n fun f => { f with queue := q' }).showFq n, some i)

/-- A frame with an uncorrectable error is dropped whole (R351, R202). -/
def fqDropBad (s : State) (n : Fin 4) (f : Frame) : State :=
  let i := fqIndex f.prof f.kind
  let s := s.modFdc n fun q => { q with
    dropped := q.dropped.set i (q.dropped[i] + 1)
    queue := q.queue.filter fun x => x.frame != some f }
  ((s.count (R.FDC_DROPS_COUNT n)).ev (R.FDC_EVENT_DROP n)).showFq n

/-! ### Frames -/

/-- Appends a value to the runs of a frame: a run goes on while entry and point follow on, and the runs of one entry stay
together (R201). -/
def addRun : List FRun → Nat → Nat → Nat × Nat → List FRun
  | [], entry, point, v => [{ entry := entry, point := point, vals := [v] }]
  | r :: l, entry, point, v =>
    if r.entry = entry && !(l.any fun x => x.entry == entry) then
      if r.point + r.vals.length = point then { r with vals := r.vals ++ [v] } :: l
      else r :: { entry := entry, point := point, vals := [v] } :: l
    else r :: addRun l entry point v

/-- Flag bits of an output value. -/
def flSat : Nat := 4
def flSettling : Nat := 2
def flGapfill : Nat := 1

/-- A frame of profile `p` with stamp `t`: `val` gives the value of each point that is not muted. -/
def makeFrame (s : State) (n : Fin 4) (p t : Nat) (slewing : Bool) (val : FPoint → FVal) : State :=
  let q := s.ports[n].fdc
  let runs := (q.points.filter fun x => x.prof == p && !x.muted).foldl (fun l x =>
    let v := val x
    let fl := if stampLt t x.settle then v.fl ||| flSettling else v.fl
    addRun l x.entry x.point (ofSigned 24 v.v * 256 + fl % 256, x.epoch)) []
  let idx := (q.profs.getD p { grp := 0, dec := 0, taus := [], slewG := false, slew1 := [], slew2 := [], next := none, first := 0, idx := 0 }).idx
  let s := s.modProf n p fun f => { f with idx := f.idx + 1 }
  if runs.isEmpty then s
  else
    s.fqFrame n
      { stamp := t % 2 ^ 64, tq := q.lastTq, slewing := slewing, watch := q.lastWatch, prof := p, port := n, kind := 0
        gen := q.lastGen, frame := 0, det := 0, dropped := 0, course := q.lastCourse, gaps := q.lastGaps, runs := runs
        idx := idx, zones := q.zones.filter fun z => z.filt == p } (s.rd (R.FDC_CTRL_CONSUMERS n))

/-! ### Stages (R189 to R192) -/

/-- sat24 with the flag SAT when it saturates. -/
def sat24 (x : Int) (fl : Nat) : FVal × Nat :=
  let y := satSigned 24 x
  if y = x then ({ v := y, fl := fl }, 0) else ({ v := y, fl := fl ||| flSat }, 1)

/-- The stage-2 coefficient c_t of a profile. -/
def c2 (s : State) (n p t : Nat) : Int :=
  if t % 2 = 0 then s.rdS (R.FDC_C2_C_EVEN n p (t / 2)) else s.rdS (R.FDC_C2_C_ODD n p (t / 2))

/-- The resampler coefficient h_(φ, j). -/
def hRs (s : State) (n p phi j : Nat) : Int :=
  if j % 2 = 0 then s.rdS (R.FDC_RS_H_EVEN n p (4 * phi + j / 2)) else s.rdS (R.FDC_RS_H_ODD n p (4 * phi + j / 2))

/-- Changes the points of profile `p`, and counts the saturations. -/
def mapPoints (s : State) (n : Fin 4) (p : Nat) (f : FPoint → FPoint × Nat) : State :=
  let l := s.ports[n].fdc.points.map fun x => if x.prof = p then f x else (x, 0)
  let k := (l.map Prod.snd).sum
  let s := s.modFdc n fun q => { q with points := l.map Prod.fst }
  if k = 0 then s else (s.count (R.FDC_SATCNT_COUNT n) k).ev (R.FDC_EVENT_SAT n)

/-- A stage-1 output of every point of profile `p` (R189). -/
def stage1 (s : State) (n : Fin 4) (p : Nat) (f : Prof) : State :=
  let s := s.mapPoints n p fun x =>
    let (v, k) := sat24 (x.sum * f.g1 / (2 ^ (15 + f.sh1) : Nat)) x.sfl
    ({ x with sum := 0, sfl := 0, hist := (v :: x.hist).take 64 }, k)
  s.modProf n p fun g =>
    { g with grp := 0, dec := g.dec + 1, slew1 := (g.slewG :: g.slew1).take 64, slewG := false }

/-- A stage-2 output, completed by a course of stamp `l` (R189, R190). -/
def stage2 (s : State) (n : Fin 4) (p l : Nat) (f : Prof) : State :=
  let cs := (List.range f.t2).map fun t => s.c2 n p t
  let s := s.mapPoints n p fun x =>
    let h := x.hist.take f.t2
    let a := ((cs.zip h).map fun e => e.1 * e.2.v).foldl (· + ·) 0
    let (v, k) := sat24 (a / 32768) (h.foldl (fun fl e => fl ||| e.fl) 0)
    ({ x with rs := (v :: x.rs).take 9 }, k)
  let tau : Int := (l : Int) - gd12 s.ports[n].pinC s.ports[n].pinS f
  s.modProf n p fun g =>
    { g with dec := 0, taus := (tau :: g.taus).take 9, slew2 := ((g.slew1.take f.t2).any id :: g.slew2).take 9 }

/-- The resampler output of a point at phase `phi` (R191): s_(k−3) to s_(k+4) are its eight newest stage-2 outputs. -/
def resample (s : State) (n p phi : Nat) (x : FPoint) : FVal × Nat :=
  let w := x.rs.take 8
  let hs := (List.range 8).map fun i => s.hRs n p phi (7 - i)
  sat24 (((hs.zip w).map fun e => e.1 * e.2.v).foldl (· + ·) 0 / 32768) (w.foldl (fun fl e => fl ||| e.fl) 0)

/-- The output instants between τ_k and τ_(k+1), where the newest stage-2 output is k + 4 (R191). -/
def instants (s : State) (n : Fin 4) (p : Nat) (f : Prof) : Nat → State
  | 0 => s
  | k + 1 =>
    match (s.ports[n].fdc.profs.toList)[p]? with
    | none => s
    | some g =>
      match g.taus[4]?, g.taus[3]?, g.next with
      | some a, some b, some t =>
        if f.out = 0 || b ≤ (t : Int) then s
        else
          let s := if (t : Int) < a then s
            else
              let phi := (64 * ((t : Int) - a) / (b - a)).toNat
              let sats := (s.ports[n].fdc.points.filter fun x => x.prof == p).map fun x => (s.resample n p phi x).2
              let s := if sats.sum = 0 then s else (s.count (R.FDC_SATCNT_COUNT n) sats.sum).ev (R.FDC_EVENT_SAT n)
              s.makeFrame n p t ((g.slew2.take 8).any id) fun x => (s.resample n p phi x).1
          let s := s.modProf n p fun g => { g with next := some (t + f.out) }
          instants s n p f k
      | _, _, _ => s

/-- Whether the points of a profile are discarded in a DRAM outage (R343). -/
def outageHits (s : State) (f : Prof) : Bool := s.memc.outage && !f.stage1Only

/-- SLEWING of the newest stage-2 output of profile `p`. -/
def slewNewest (s : State) (n : Fin 4) (p : Nat) : Bool :=
  match (s.ports[n].fdc.profs.toList)[p]? with
  | some g => g.slew2.headD false
  | none => false

/-- One input of stamp `l` to every point of profile `p` (R189): `val` gives its value. -/
def feedProf (s : State) (n : Fin 4) (p l : Nat) (slewing : Bool) (val : Nat → FVal) : State :=
  let f := s.prof n p
  if s.outageHits f then s.modFdc n fun q => { q with hit := true }
  else
    let s := s.mapPoints n p fun x =>
      let v := val x.point
      ({ x with sum := x.sum + v.v, sfl := x.sfl ||| v.fl }, 0)
    let s := s.modProf n p fun g => { g with grp := g.grp + 1, slewG := g.slewG || slewing }
    match (s.ports[n].fdc.profs.toList)[p]? with
    | none => s
    | some g =>
      if g.grp < f.d1 then s
      else
        let s := s.stage1 n p f
        if g.dec + 1 < f.d2 then s
        else
          let s := s.stage2 n p l f
          if f.rs then
            s.instants n p f ((l - g.next.getD 0) / (max 1 f.out) + 2)
          else
            s.makeFrame n p (stampAdd l (-(gd12 s.ports[n].pinC s.ports[n].pinS f : Nat))) (s.slewNewest n p) fun x =>
              x.rs.headD { v := 0, fl := 0 }

/-- One input to every profile in use of port `n`. -/
def feedAll (s : State) (n : Fin 4) (l : Nat) (slewing : Bool) (val : Nat → FVal) : State :=
  (profsUsed s.ports[n].fdc.zones).foldl (fun (s : State) p => s.feedProf n p l slewing val) s

/-! ### Resets (R199) -/

def profEmpty (stamp out : Nat) : FProf :=
  { grp := 0, dec := 0, taus := [], slewG := false, slew1 := [], slew2 := []
    next := some (ceilDiv stamp (max 1 out) * max 1 out), first := stamp, idx := 0 }

/-- A fresh point state with S the stamp `l`. -/
def pointNew (s : State) (n : Fin 4) (l : Nat) (watch : Bool) (entry point prof epoch : Nat) (muted : Bool) : FPoint :=
  let gd := if watch then 0 else gdOf s.ports[n].pinC s.ports[n].pinS (s.prof n prof)
  { point := point, entry := entry, prof := prof, sum := 0, sfl := 0, hist := [], rs := [], settle := stampAdd l gd
    epoch := epoch, muted := muted, again := false }

/-- The fields whose change resets a point (R199). -/
def zSame (a b : ZEntry) : Bool :=
  { a with label := 0, det := 0, priv := false, pidx := 0 } == { b with label := 0, det := 0, priv := false, pidx := 0 }

/-- Takes the zones of a course of stamp `l`: points that are new or whose entry changed start afresh, all do after a
synchronising reset. The points of an entry that a failing generation changed are muted (R197). -/
def takePoints (s : State) (n : Fin 4) (l : Nat) (watch all : Bool) (zones : List ZEntry) (pts : List Point)
    (bad : Bool) : State :=
  let q := s.ports[n].fdc
  let newPts := pts.map fun x =>
    let z := zones.find? fun e => e.e == x.entry
    let old := q.zones.find? fun e => e.e == x.entry
    let same := match z, old with
      | some a, some b => zSame a b
      | _, _ => false
    let prof := (z.map ZEntry.filt).getD 0
    let mute := bad && z != old
    match q.points.find? fun y => y.point == x.point with
    | some y =>
      if same && !all && !y.again then { y with muted := y.muted || mute }
      else s.pointNew n l watch x.entry x.point prof q.resets (y.muted || mute)
    | none => s.pointNew n l watch x.entry x.point prof q.resets mute
  s.modFdc n fun q => { q with
    points := newPts, zones := zones, sync := false, resets := q.resets + 1
    profs := if all then Vector.ofFn fun (p : Fin 16) => profEmpty l (s.prof n p).out else q.profs }

/-- The FDC takes the course at the head of the second course link (R186, R197 to R199, R201). It answers the zones of
the previous course. -/
def fdcTake (s : State) (n : Fin 4) (ecc : Ecc) : State × List ZEntry × Bool :=
  match s.ports[n].points with
  | .course c gen zones pts :: r =>
    let s := s.modPort n fun p => { p with points := r }
    let q := s.ports[n].fdc
    let old := q.zones
    let newGen := q.gen != some gen && q.gen.isSome
    let fail := if newGen then s.fdcCheck n s.ports[n].pinC s.ports[n].pinS zones else none
    let s := if newGen then (s.fdcShowCheck n fail (R.FDC_EVENT_GEN_FAIL n)).fdcShowLoad n zones else s
    let all := q.sync || c.fresh
    let s := s.takePoints n c.stamp c.watch all zones pts fail.isSome
    let s := s.modFdc n fun q =>
      { q with gen := some gen, lastTq := c.tq, lastCourse := c.number, lastGaps := c.gaps, lastGen := gen
               lastWatch := c.watch }
    let s := (s.put (R.FDC_STAT_BYPASS n) c.watch).wr (R.FDC_STAT_USED n)
      ((profsUsed zones).map fun p => 2 ^ p).sum
    let val (pt : Nat) : FVal :=
      match pts.find? fun x => x.point == pt with
      | some x => { v := toSigned 24 (x.value / 256), fl := x.value % 256 }
      | none => { v := 0, fl := 0 }
    let s := if c.watch then
        (profsUsed zones).foldl (fun (s : State) p => s.makeFrame n p c.stamp c.slewing fun x => val x.point) s
      else s.feedAll n c.stamp c.slewing val
    let s := s.eccSeen 2 reqFDC ecc (fun i => 8 * i)
    let s := s.modFdc n fun q =>
      { q with points := q.points.map fun x => if ecc.ue.contains x.point then { x with again := true } else x }
    (s, old, newGen)
  | _ => (s, [], false)

/-- The stamps of the inputs that fill a gap (R200). -/
def fillStamps (g : Gap) : List Nat :=
  if g.lost ≤ 1 then [g.first]
  else (List.range g.lost).map fun j => stampAdd g.first (j * stampSub g.last g.first / (g.lost - 1) : Nat)

/-- A course of port `n` has yet to come to its FDC. -/
def courseComes (s : State) (n : Fin 4) : Bool :=
  let p := s.ports[n]
  !p.courses.isEmpty
    || (p.outq.any fun x => match x with
      | .course _ => true
      | .gap _ => false)
    || (p.link.any fun x => match x with
      | .course .. => true
      | .gap _ => false)
    || p.points.any fun x => match x with
      | .course .. => true
      | .gap _ => false

/-- The FDC takes the GAP record at the head of the second course link (R200, R202). The final one of a stopped port
feeds nothing: no output spans a course after the last committed one (R203). -/
def fdcGap (s : State) (n : Fin 4) : State :=
  match s.ports[n].points with
  | .gap g :: r =>
    let s := (s.modPort n fun p => { p with points := r }).fqGap n g
    let st := s.pstate n
    let down := (st == stIdle || st == stHalted) && !s.courseComes n
    if s.rd (R.FDC_CTRL_GAP_FILL n) < g.lost then
      (s.modFdc n fun q => { q with sync := true }).ev (R.FDC_EVENT_GAP_RESET n)
    else if down || s.on (R.FDC_STAT_BYPASS n) then s
    else (fillStamps g).foldl (fun (s : State) t => s.feedAll n t false fun _ => { v := 0, fl := flGapfill }) s
  | _ => s

/-- A write of FDC_CTRL.SYNC, and its equivalent at the end of an outage (R199, R343). -/
def fdcSync (s : State) (n : Fin 4) : State := s.modFdc n fun q => { q with sync := true }

/-- The FDC at a port start: group delays, load, the queue in use and empty stages (R188, R193, R195, R199, R339). A
generation that comes between the start and the first course is a new one (R197). -/
def fdcStart (s : State) (n : Fin 4) : State :=
  let z := zapply (zenabled s.zon.active) n (s.route n)
  let s := (List.range 16).foldl (fun (s : State) p =>
    s.wr (R.FDC_PROF_GD_GD n p) (gdOf s.ports[n].pinC s.ports[n].pinS (s.prof n p))) s
  let s := s.fdcShowLoad n z
  let s := ((s.put (R.FDC_STAT_RUNNING n) true).put (R.FDC_STAT_BYPASS n) false).wr (R.FDC_STAT_USED n)
    ((profsUsed z).map fun p => 2 ^ p).sum
  let st := s.rd R.MEM_STAT_STATE
  let dram := st == 2 || st == 3 || st == 4
  (s.modFdc n fun q => { q with
    points := [], zones := z, gen := some (s.rd R.ZON_STAT_GEN), sync := true, hit := false
    made := Vector.replicate 64 0, dropped := Vector.replicate 64 0, inDram := dram
    profs := Vector.ofFn fun (p : Fin 16) => profEmpty 0 (s.prof n p).out }).showFq n

/-- A route change on a port that has started: the zones of the new route are those in use (R188, R195). -/
def fdcRoute (s : State) (n : Fin 4) : State :=
  let z := zapply (zenabled s.zon.active) n (s.route n)
  (s.fdcShowLoad n z).wr (R.FDC_STAT_USED n) ((profsUsed z).map fun p => 2 ^ p).sum

/-- After the last course and GAP record of a stopped port its stage states are cleared (R203). -/
def fdcSettle (s : State) (n : Fin 4) : State :=
  let p := s.ports[n]
  let st := s.pstate n
  if (st = stIdle || st = stHalted) && p.points.isEmpty && p.link.isEmpty && p.outq.isEmpty && p.courses.isEmpty then
    if s.on (R.FDC_STAT_RUNNING n) then
      let s := ((s.modFdc n fun q => { q with points := [] }).put (R.FDC_STAT_RUNNING n) false).put
        (R.FDC_STAT_BYPASS n) false
      { s with cmpIn := s.cmpIn ++ [.stop n] }
    else s
  else s

/-- DRAM became DEGRADED: frames of a DRAM queue are lost, the next frames count them, and points of profiles that
use DRAM stop until the next start (R339, R344). -/
def fdcDegraded (s : State) (n : Fin 4) : State :=
  let q := s.ports[n].fdc
  let lost := if q.inDram then q.queue.filterMap FqItem.frame else []
  let s := lost.foldl (fun (s : State) f =>
    let i := fqIndex f.prof f.kind
    s.modFdc n fun q => { q with dropped := q.dropped.set i (q.dropped[i] + 1) }) s
  let st := s.pstate n
  let used := (profsUsed s.ports[n].fdc.zones).filter fun p => !(s.prof n p).stage1Only
  let run := !(st == stIdle || st == stHalted) && !used.isEmpty
  let s := s.modFdc n fun q => { q with
    queue := if q.inDram then [] else q.queue, inDram := false
    points := q.points.map fun x => if (s.prof n x.prof).stage1Only then x else { x with muted := true } }
  let s := if run then s.fdcSetCheck n (5, used.headD 0, E_DRAM) else s
  s.showFq n

end Sys2Proof.Machine.State
end

