-- ==== Sys2Proof/Machine/Operands.lean ====
section
/-! DEFINITION. The operand forms of a DSP instruction: the fields of its word (R265), its move slots, and the pointer
updates of R264. -/

namespace Sys2Proof.Machine
open Sys2Proof Arith

namespace Dsp

/-! ### The word (R265) -/

def cls (w : Nat) : Nat := slice w 61 3

/-- The op field of the word's class. -/
def op (w : Nat) : Nat :=
  if cls w = 1 then slice w 57 4 else if cls w = 3 then slice w 58 3 else slice w 56 5

/-- How many ops a class lists, from 0. -/
def opCount : Nat → Nat
  | 0 => 7
  | 1 => 10
  | 2 => 16
  | 3 => 6
  | 4 => 11
  | 5 => 3
  | 6 => 5
  | _ => 0

/-- A move slot. -/
structure Move where
  (op ptr reg upd rsv : Nat)
  deriving DecidableEq, Repr

def moveOf (b : Nat) : Move :=
  { op := slice b 17 3, ptr := slice b 15 2, reg := slice b 11 4, upd := slice b 9 2, rsv := slice b 0 9 }

def moveX (w : Nat) : Move := moveOf (slice w 20 20)
def moveY (w : Nat) : Move := moveOf (slice w 0 20)

def moveLegal (m : Move) : Bool := decide (m.op ≤ 4) && m.rsv == 0

/-- The word is not an ILLEGAL fault under R265. -/
def legal (w : Nat) : Bool :=
  decide (op w < opCount (cls w)) && (cls w == 5 || (moveLegal (moveX w) && moveLegal (moveY w)))

/-- The word is op `o` of class `k`. -/
def isOp (w k o : Nat) : Bool := legal w && cls w == k && op w == o

/-! ### Pointers (R264) -/

/-- The low `n` bits of `x` in reverse order. -/
def rev (n x : Nat) : Nat := (List.range n).foldl (fun acc i => acc + ofBool (x.testBit i) * 2 ^ (n - 1 - i)) 0

/-- The new value of a pointer `p` under mode `am`, length `l` and base `b`, for the delta `d` and access size `sz`. -/
def pointerNext (am l b p : Nat) (d : Int) (sz : Nat) : Nat :=
  let linear := (((p : Int) + d) % 65536).toNat
  if am = 1 && l != 0 then ((b : Int) + ((p : Int) + d - b) % l).toNat % 65536
  else if am = 2 then
    let e := if sz = 32 then 5 else 2
    let n := min l (16 - e)
    if n = 0 then linear
    else
      let f := slice p e n
      let g := slice (ofSigned 16 d) e n
      p - f * 2 ^ e + rev n ((rev n f + rev n g) % 2 ^ n) * 2 ^ e
  else linear

/-- Bytes of an access of a move op: 32 for a vector, 4 for a scalar. -/
def moveSize (m : Move) : Nat := if m.op = 1 || m.op = 2 then 32 else 4

/-- The delta of an update: none, +M, +s, −s. -/
def updDelta (upd : Nat) (m : Int) (sz : Nat) : Int :=
  if upd = 1 then m else if upd = 2 then sz else if upd = 3 then -(sz : Int) else 0

/-- Pointer `k` of a core after an update. -/
def stepPointer (c : DCore) (k upd sz : Nat) : DCore :=
  if upd = 0 then c
  else
    let i : Fin 8 := Fin.ofNat 8 k
    let d := updDelta upd (c.m[i]).toInt sz
    { c with p := c.p.set i (BitVec.ofNat 16
        (pointerNext (slice c.am.toNat (2 * k) 2) (c.l[i]).toNat (c.b[i]).toNat (c.p[i]).toNat d sz)) }

/-! ### Core memories (R43) -/

def xBase (c : Nat) : Nat := 0x04000000 + 0x40000 * c
def yBase (c : Nat) : Nat := xBase c + 0x10000
def pBase (c : Nat) : Nat := xBase c + 0x20000

/-- The eight lanes that 32 bytes spell. -/
def lanesOf (l : List Nat) : Vector (BitVec 32) 8 :=
  Vector.ofFn fun (i : Fin 8) => BitVec.ofNat 32 (ofLeBytes ((l.drop (4 * i)).take 4))

/-- The 32 bytes of eight lanes. -/
def bytesOf (v : Vector (BitVec 32) 8) : List Nat := v.toList.flatMap fun x => leBytes 4 x.toNat

/-- A lane-by-lane operation. -/
def map1 (f : BitVec 32 → BitVec 32) (a : Vector (BitVec 32) 8) : Vector (BitVec 32) 8 := a.map f
def map2 (f : BitVec 32 → BitVec 32 → BitVec 32) (a b : Vector (BitVec 32) 8) : Vector (BitVec 32) 8 :=
  Vector.zipWith f a b

/-- A value held to s32. -/
def sat32 (x : Int) : BitVec 32 := BitVec.ofInt 32 (satSigned 32 x)

/-- Register reads by number. -/
def sreg (c : DCore) (k : Nat) : BitVec 32 := c.s[(Fin.ofNat 16 k)]
def vreg (c : DCore) (k : Nat) : Vector (BitVec 32) 8 := c.v[(Fin.ofNat 16 k)]
def areg (c : DCore) (k : Nat) : Vector (BitVec 40) 8 := c.a[(Fin.ofNat 4 k)]

/-- Register writes by number. -/
def setS (c : DCore) (k : Nat) (x : BitVec 32) : DCore := { c with s := c.s.set (Fin.ofNat 16 k) x }
def setV (c : DCore) (k : Nat) (x : Vector (BitVec 32) 8) : DCore := { c with v := c.v.set (Fin.ofNat 16 k) x }
def setA (c : DCore) (k : Nat) (x : Vector (BitVec 40) 8) : DCore := { c with a := c.a.set (Fin.ofNat 4 k) x }

/-- The half of each lane that a MAC operand names, as s16 (R268). -/
def half (v : Vector (BitVec 32) 8) (hi : Bool) (i : Fin 8) : Int :=
  toSigned 16 (if hi then slice (v[i]).toNat 16 16 else slice (v[i]).toNat 0 16)

end Dsp
end Sys2Proof.Machine
end

