-- ==== Sys2Proof/Machine/Flags.lean ====
section
/-! DEFINITION. The flags of a DSP core: FL (R262, R267, R274), and AOV, OVS and OVH of the accumulators (R269 to
R271). -/

namespace Sys2Proof.Machine
open Sys2Proof Arith

namespace Dsp

def flZ : Nat := 0
def flN : Nat := 1
def flC : Nat := 2
def flV : Nat := 3
def flNF : Nat := 4
def flOVH : Nat := 7

/-- Bit `i` of FL. -/
def flag (c : DCore) (i : Nat) : Bool := c.fl.getLsbD i

/-- FL with bit `i` at `b`. -/
def setFlag (c : DCore) (i : Nat) (b : Bool) : DCore := { c with fl := BitVec.ofNat 8 (Arith.putBit c.fl.toNat i b) }

/-- Z and N of a result, and C and V as given (R267). -/
def setZNCV (c : DCore) (r : BitVec 32) (cy ov : Bool) : DCore :=
  setFlag (setFlag (setFlag (setFlag c flZ (r == 0#32)) flN r.msb) flC cy) flV ov

/-- C after `a + b`: the carry out. -/
def addCarry (a b : BitVec 32) : Bool := decide (2 ^ 32 ≤ a.toNat + b.toNat)

/-- C after `a − b`: the borrow or its inverse, which the manual leaves open (log entry 18). -/
def subCarry (a b : BitVec 32) : Bool := Config.subCarryInverted != decide (a.toNat < b.toNat)

/-- Signed overflow of a result whose exact value is `x`. -/
def overflows (w : Nat) (x : Int) : Bool := satSigned w x != x

/-- Writes lane `i` of accumulator `k` with the exact result `x` (R269): wrap, AOV and OVS at the first overflow, and
OVH. -/
def accLane (c : DCore) (k : Nat) (i : Fin 8) (x : Int) : DCore :=
  let bit := 8 * k + i.val
  let c := { c with a := c.a.set (Fin.ofNat 4 k) ((areg c k).set i (BitVec.ofInt 40 x)) }
  if overflows 40 x then
    let c := if c.aov.getLsbD bit then c
      else { c with aov := BitVec.ofNat 32 (Arith.putBit c.aov.toNat bit true)
                    ovs := BitVec.ofNat 32 (Arith.putBit c.ovs.toNat bit (decide (0 < x))) }
    setFlag c flOVH true
  else c

/-- Writes every lane of accumulator `k` with exact results. -/
def accAll (c : DCore) (k : Nat) (f : Fin 8 → Int) : DCore :=
  (List.finRange 8).foldl (fun c i => accLane c k i (f i)) c

/-- AOV of every lane of accumulator `k` at 0. -/
def aovClear (c : DCore) (k : Nat) : DCore :=
  { c with aov := (List.range 8).foldl (fun (x : BitVec 32) i => BitVec.ofNat 32 (Arith.putBit x.toNat (8 * k + i) false)) c.aov }

/-- The value of a saturating transfer of lane `i` with shift `sh` (R270). -/
def transferLane (c : DCore) (k sh : Nat) (i : Fin 8) : BitVec 32 :=
  if c.aov.getLsbD (8 * k + i.val) then
    (if c.ovs.getLsbD (8 * k + i.val) then 0x7FFFFFFF#32 else 0x80000000#32)
  else sat32 (((areg c k)[i]).toInt / (2 ^ sh : Nat))

/-- The condition of a BR (R267): 0 to 9; none for a number that is not listed. -/
def condition (c : DCore) (k : Nat) : Option Bool :=
  if k = 0 then some true
  else if k = 1 then some (flag c flZ)
  else if k = 2 then some (!flag c flZ)
  else if k = 3 then some (flag c flN)
  else if k = 4 then some (!flag c flN)
  else if k = 5 then some (flag c flC)
  else if k = 6 then some (flag c flV)
  else if k = 7 then some (flag c flNF)
  else if k = 8 then some (!flag c flNF)
  else if k = 9 then some c.xfer.isSome
  else none

end Dsp
end Sys2Proof.Machine
end

