-- ==== Sys2Proof/Machine/Real.lean ====
section
/-! DEFINITION. The binary64 arithmetic of R225 and R246: finite numbers, each operation rounded to nearest, ties to even.
Every number that those rules compute lies far inside the exponent range, so no number here overflows or is subnormal. -/

namespace Sys2Proof.Machine.Real
open Sys2Proof Arith

/-- The number m × 2^e. A number other than 0 has 2^52 ≤ |m| < 2^53; 0 is 0 × 2^0. -/
structure F64 where
  (m e : Int)
  deriving DecidableEq, Repr

def zero : F64 := ⟨0, 0⟩

/-- `n / d` to nearest, ties to even; `d` is positive. -/
def halfEven (n d : Nat) : Nat :=
  let q := n / d
  let r := 2 * (n % d)
  if r < d then q else if d < r then q + 1 else q + q % 2

/-- `n / d` as an integer times 2^e. -/
def scaled (n d : Nat) (e : Int) : Nat := if 0 ≤ e then halfEven n (d * 2 ^ e.toNat) else halfEven (n * 2 ^ (-e).toNat) d

/-- The number nearest to `n / d`; 0 for a zero divisor. -/
def ofRat (n : Int) (d : Nat) : F64 :=
  let a := n.natAbs
  if a = 0 || d = 0 then zero
  else
    let e : Int := (Nat.log2 a : Int) - Nat.log2 d - 53
    let e := if scaled a d e < 2 ^ 53 then e else e + 1
    let e := if scaled a d e < 2 ^ 53 then e else e + 1
    let q := scaled a d e
    ⟨if n < 0 then -(q : Int) else q, e⟩

/-- The number nearest to m × 2^e. -/
def ofDyadic (m e : Int) : F64 := if 0 ≤ e then ofRat (m * 2 ^ e.toNat) 1 else ofRat m (2 ^ (-e).toNat)

def ofInt (n : Int) : F64 := ofRat n 1

/-- A number as a fraction. -/
def toRat (x : F64) : Int × Nat := if 0 ≤ x.e then (x.m * 2 ^ x.e.toNat, 1) else (x.m, 2 ^ (-x.e).toNat)

def neg (x : F64) : F64 := ⟨-x.m, x.e⟩

def add (x y : F64) : F64 :=
  let e := min x.e y.e
  ofDyadic (x.m * 2 ^ (x.e - e).toNat + y.m * 2 ^ (y.e - e).toNat) e

def sub (x y : F64) : F64 := add x (neg y)

def mul (x y : F64) : F64 := ofDyadic (x.m * y.m) (x.e + y.e)

/-- x ÷ y; 0 for a zero divisor, which no caller gives. -/
def div (x y : F64) : F64 :=
  let (a, b) := toRat x
  let (c, d) := toRat y
  if c < 0 then ofRat (-(a * d)) (b * c.natAbs) else ofRat (a * d) (b * c.natAbs)

/-- The square root of a number that is not negative. The root of m × 4^(30 + k) has 56 bits or more, and its last bit is
made 1 where it is not exact, so that it rounds as the exact root does. -/
def sqrt (x : F64) : F64 :=
  let odd := x.e % 2
  let v := (x.m * 2 ^ odd.toNat).toNat * 4 ^ 30
  let r := isqrt v
  ofDyadic (2 * r + ofBool (r * r != v)) ((x.e - odd) / 2 - 31)

def isPos (x : F64) : Bool := decide (0 < x.m)

/-- x < y. -/
def lt (x y : F64) : Bool := isPos (sub y x)

/-- `x` rounded to a multiple of 1 ÷ `k`, ties away from zero, as that multiple (R512). -/
def grid (x : F64) (k : Nat) : Int :=
  let (n, d) := toRat x
  roundDiv (n * k) d

/-- A left-to-right sum. -/
def sum (l : List F64) : F64 := l.foldl add zero

/-! ### The logarithm -/

/-- Logarithms are first taken in units of 2^−192. -/
def unit : Int := 2 ^ 192

/-- The terms of 2 atanh(y) = 2 (y + y³ ÷ 3 + …), from power `2 i + 1` on, where `p` is y^(2 i + 1). -/
def atanhSum (y2 : Int) : Nat → Nat → Int → Int
  | 0, _, _ => 0
  | k + 1, i, p => p / (2 * i + 1 : Nat) + atanhSum y2 k (i + 1) (p * y2 / unit)

/-- ln of m ÷ 2^52 for m from 2^52 to 2^53. -/
def lnUnit (m : Int) : Int :=
  let y := (m - 2 ^ 52) * unit / (m + 2 ^ 52)
  2 * atanhSum (y * y / unit) 64 0 y

/-- The natural logarithm of a positive number, in units of 2^−192; ln 2 is that of 2^53 ÷ 2^52. -/
def lnExact (x : F64) : Int := (x.e + 52) * lnUnit (2 ^ 53) + lnUnit x.m

/-- ln as the part computes it: its relative error is open below 2^−40 (R225, log entry 15). -/
def ln (x : F64) : F64 :=
  let l := lnExact x
  let y := ofRat (l * 2 ^ 103 + l * (Config.lnError x.m x.e).toInt) (2 ^ 295)
  let (n, d) := toRat y
  if (n * 2 ^ 192 - l * d).natAbs * 2 ^ 40 < l.natAbs * d then y else ofRat l (2 ^ 192)

/-! ### Temperatures -/

/-- 273.15. -/
def kelvin : F64 := ofRat 27315 100

/-- T + 273.15 for a temperature s24.8. -/
def toKelvin (t : Int) : F64 := add (ofRat t 256) kelvin

/-- The temperature in °C whose inverse in K is `inv`, which is not 0. -/
def celsius (inv : F64) : F64 := sub (div (ofInt 1) inv) kelvin

end Sys2Proof.Machine.Real
end

