-- ==== Sys2Proof/Machine/Tbu.lean ====
section
/-! DEFINITION. The time base (R75 to R85) and the TDC units (R86 to R92). -/

namespace Sys2Proof.Machine.State
open Sys2Proof Arith

/-! ### Time quality (R75) -/

/-- The first row of the table of R75 whose condition holds. -/
def tq (s : State) : Nat :=
  if !s.bit R.SYN_STAT_LOCK 0 then 6
  else if s.tbu.hold != 0 then 5
  else if !s.tbu.epoch then 4
  else if s.on R.SYN_STAT_HOLDOVER then 2
  else if s.on R.TBU_CTRL_USE_RDY && !s.on R.SYN_STAT_OCXO_RDY then 3
  else if s.on R.SYN_STAT_SLEWING then 1
  else 0

/-- Re-evaluates TBU_STAT.TQ; a change sets TQ_CHANGE. -/
def evalTq (s : State) : State :=
  let q := s.tq
  if s.rd R.TBU_STAT_TQ = q then s else (s.wr R.TBU_STAT_TQ q).ev R.TBU_EVENT_TQ_CHANGE

/-! ### TDC results and statistics (R90 to R92) -/

def modTdc (s : State) (u : Fin 8) (f : Tdc → Tdc) : State := { s with tdc := s.tdc.set u (f s.tdc[u]) }

/-- Shows the head entry, the level and PENDING in the unit's registers (R91). -/
def showTdc (s : State) (u : Fin 8) : State :=
  let t := s.tdc[u]
  let e := t.fifo.headD (0, 0, 0, 0)
  let s := ((s.wr (R.TDC_FIFO0_WORD u) e.1).wr (R.TDC_FIFO1_WORD u) e.2.1).wr (R.TDC_FIFO2_WORD u) e.2.2.1
  let s := (s.wr (R.TDC_FIFO3_WORD u) e.2.2.2).wr (R.TDC_LEVEL_LEVEL u) t.fifo.length
  s.put (R.TDC_STATUS_PENDING u) (t.sync && t.start.isSome)

def isum (l : List Int) : Int := l.foldl (· + ·) 0

/-- Latches the statistics of a complete block, or discards it while STAT_READY is 1 (R92). -/
def tdcLatch (s : State) (u : Fin 8) (l : List Int) (nflag : Nat) : State :=
  if s.on (R.TDC_STATUS_STAT_READY u) then s.put (R.TDC_STATUS_STAT_OVR u) true
  else
    let n := l.length
    let sum := isum l
    let sq := isum (l.map fun x => x * x)
    let var := (n * sq - sum * sum).toNat
    let s := s.wr (R.TDC_MEAN_VALUE u) (ofSigned 64 (sum * 256 / n))
    let s := s.wr (R.TDC_SDEV_SDEV u) (isqrt (65536 * var / (n * n)))
    let s := s.wr (R.TDC_MIN_VALUE u) (ofSigned 64 (l.foldl min (l.headD 0)))
    let s := s.wr (R.TDC_MAX_VALUE u) (ofSigned 64 (l.foldl max (l.headD 0)))
    let s := (s.wr (R.TDC_NFLAG_COUNT u) nflag).put (R.TDC_STATUS_STAT_READY u) true
    s.ev R.TBU_EVENT_TDC_STAT u

/-- Flag bits of word 2 of a FIFO entry. -/
def fUnresolved : Nat := 1
def fOrder : Nat := 2
def fTimeout : Nat := 4
def fRestart : Nat := 8
def fTimeBad : Nat := 16

/-- A result of unit `u`: value, fraction, flags, low word of the reference stamp, and its interval for the statistics
(R88 to R92). -/
def tdcResult (s : State) (u : Fin 8) (value frac flags ref : Nat) (interval : Option Int) : State :=
  let t := s.tdc[u]
  let full := decide (64 ≤ t.fifo.length)
  let w2 := frac * 2 ^ 24 + ofBool t.lost * 2 ^ 21 + flags * 2 ^ 16 + t.seq % 2 ^ 16
  let e := (value % 2 ^ 32, value / 2 ^ 32 % 2 ^ 32, w2, ref % 2 ^ 32)
  let s := if full then s.count (R.TDC_CNT0_LOST u) else s
  let s := s.modTdc u fun t =>
    { t with seq := t.seq + 1, lost := full, fifo := if full then t.fifo else t.fifo ++ [e]
             nflag := if flags = 0 then t.nflag else t.nflag + 1 }
  let s := match interval with
    | none => s
    | some x =>
      if flags != 0 then s
      else
        let l := t.block ++ [x]
        if s.rd (R.TDC_STATCFG_N u) ≤ l.length then
          let s := s.tdcLatch u l t.nflag
          s.modTdc u fun t => { t with block := [], nflag := 0 }
        else s.modTdc u fun t => { t with block := l }
  s.showTdc u

/-- The count at elapsed tick `x` (R14, R76), along the changes of the counter's course. -/
def countAt (s : State) (x : Nat) : Nat :=
  if x = s.tbu.raw then s.tbu.count
  else
    match s.tbu.past.find? fun b => b.raw ≤ x with
    | some b => (b.count + (x - b.raw - b.hold)) % 2 ^ 64
    | none =>
      match s.tbu.past.getLast? with
      | some b => b.count
      | none => if s.tbu.running then (s.tbu.count + 2 ^ 64 - (s.tbu.raw - x) % 2 ^ 64) % 2 ^ 64 else s.tbu.count

/-- The counter was held at elapsed tick `x`. -/
def heldAt (s : State) (x : Nat) : Bool :=
  if x = s.tbu.raw then s.tbu.hold != 0
  else
    match s.tbu.past.find? fun b => b.raw ≤ x with
    | some b => decide (x < b.raw + b.hold)
    | none => false

/-- TIME_BAD for a measurement that ends at elapsed tick `x` while the counter is held (R77). One that begins in a hold
and ends after it carries no TIME_BAD (DESIGN CHOICE, log entry 66). -/
def holdFlag (s : State) (x : Nat) : Nat := if s.heldAt x then fTimeBad else 0

/-- Units of 3.125 ps from the time `a` to the time `b`, each a raw tick and a fraction. -/
def tdcSpan (a b : Nat × Nat × Nat) : Int := ((b.1 : Int) - a.1) * 256 + ((b.2.1 : Int) - a.2.1)

/-- A stop at `a` of a SYNC measurement that began at `b`, by the first row of R89 that applies; a stop after the
timeout is one with no start. A stop that its fraction puts before the start of the same tick is out of order. -/
def tdcStop (s : State) (u : Fin 8) (b a : Nat × Nat × Nat) : State :=
  let t := s.tdc[u]
  let d := tdcSpan b a
  let s := s.modTdc u fun t => { t with start := none }
  if 512 ≤ d && (t.timeout : Int) * 256 < d then
    (s.tdcResult u 0 0 (fTimeout ||| s.holdFlag a.1) b.2.2 none).modTdc u fun t => { t with early := some a }
  else
    let fl := if d < 0 then fOrder else if d < 512 then fUnresolved else 0
    s.tdcResult u (ofSigned 64 d) 0 (fl ||| s.holdFlag a.1) b.2.2 (some d)

/-- A reference or start of unit `u` at the time `a` (R88, R89). A start that is told late (REF 12) may find its stop
already there. -/
def tdcStart (s : State) (u : Fin 8) (a : Nat × Nat × Nat) : State :=
  let t := s.tdc[u]
  if !t.run then s
  else if !t.sync then s.modTdc u fun t => { t with start := some a }
  else
    match t.early with
    | some e =>
      let s := s.modTdc u fun t => { t with early := none }
      if decide (a.1 ≤ e.1 + 16) then s.tdcStop u a e
      else ((s.count (R.TDC_CNT0_REJECT u)).modTdc u fun t => { t with start := some a }).showTdc u
    | none =>
      let s := match t.start with
        | some b => s.tdcResult u 0 0 (fRestart ||| s.holdFlag a.1) b.2.2 none
        | none => s
      (s.modTdc u fun t => { t with start := some a }).showTdc u

/-- An accepted edge in the measurement of unit `u` (R88, R89). -/
def tdcAccept (s : State) (u : Fin 8) (a : Nat × Nat × Nat) : State :=
  let t := s.tdc[u]
  if t.sync then
    match t.start with
    | some b => s.tdcStop u b a
    | none =>
      let s := if t.early.isSome then s.count (R.TDC_CNT0_REJECT u) else s
      s.modTdc u fun t => { t with early := some a }
  else if t.ref = 15 then
    s.tdcResult u a.2.2 a.2.1 (s.holdFlag a.1) ((t.last.map fun l => l.2.2).getD 0) (t.last.map fun l => tdcSpan l a)
  else
    match t.start with
    | none => s.count (R.TDC_CNT0_REJECT u)
    | some b =>
      let d := tdcSpan b a
      if (t.wopen : Int) * 256 ≤ d && d ≤ (t.wclose : Int) * 256 then
        s.tdcResult u a.2.2 a.2.1 (s.holdFlag a.1) b.2.2 (some d)
      else s.count (R.TDC_CNT0_REJECT u)

/-- Judges the accepted edges of a unit with REF 12 for which `p` holds, oldest first. -/
def tdcJudge (s : State) (u : Fin 8) (p : Nat × Nat × Nat → Bool) : State :=
  let l := s.tdc[u].edges
  let s := s.modTdc u fun t => { t with edges := l.dropWhile p }
  (l.takeWhile p).foldl (fun (s : State) a => s.tdcAccept u a) s

/-- An accepted edge: with REF 12 it waits until no PPS_IN edge before it can still qualify. -/
def tdcTake (s : State) (u : Fin 8) (a : Nat × Nat × Nat) : State :=
  if s.tdc[u].ref = 12 then s.modTdc u fun t => { t with edges := t.edges ++ [a] } else s.tdcAccept u a

/-- Ticks of 100 ns, after which a PPS_IN edge has qualified (R81). -/
def ppsTicks : Nat := 125

/-- With REF 12, edges that no PPS_IN edge can concern any more are judged, and a stop without a start is rejected. -/
def tdcSettle (s : State) (u : Fin 8) : State :=
  if s.tdc[u].ref = 12 && s.tdc[u].run then
    let s := s.tdcJudge u fun a => decide (a.1 + ppsTicks < s.tbu.raw)
    match s.tdc[u].early with
    | some e =>
      if e.1 + 16 + ppsTicks < s.tbu.raw then
        (s.count (R.TDC_CNT0_REJECT u)).modTdc u fun t => { t with early := none }
      else s
    | none => s
  else s

/-- A reference or start with REF 12: the edges before it are judged by what came before, and those after it by it. -/
def tdcLate (s : State) (u : Fin 8) (a : Nat × Nat × Nat) : State :=
  let s := (s.tdcJudge u fun e => decide (tdcSpan a e < 0)).tdcStart u a
  s.tdcJudge u fun _ => true

/-- An event of reference source `r` at the time `a` (Reference sources). -/
def tdcRef (s : State) (r : Nat) (a : Nat × Nat × Nat) : State :=
  (List.finRange 8).foldl (fun (s : State) u =>
    if s.tdc[u].run && s.tdc[u].ref == r then (if r = 12 then s.tdcLate u a else s.tdcStart u a) else s) s

/-- The present tick as a time with a fraction. -/
def tick (s : State) (frac : Nat) : Nat × Nat × Nat := (s.tbu.raw, frac, s.now)

/-- An edge on EVT_IN[u] (R86): comparator, hold-off and dead time, then the stamp; the edge is a reference for other
units and an event of the ACQ inputs of SRC 3. -/
def tdcEdge (s : State) (u : Fin 8) (e : Edge) : State :=
  let t := s.tdc[u]
  if !t.run || !e.long then s
  else
    let a := s.tick e.frac.toNat
    let held := match t.last with
      | none => false
      | some l => decide (tdcSpan l a < (t.holdoff : Int) * 256)
    let dead := match t.last with
      | none => false
      | some l => decide (tdcSpan l a < 16 * 256)
    if held then s.count (R.TDC_CNT1_HELD u)
    else if e.rising == t.falling then s
    else if dead then s.count (R.TDC_CNT1_BUSY u)
    else
      let s := (s.tdcTake u a).modTdc u fun t => { t with last := some a }
      let s := (s.tdcRef u a).showTdc u
      s.presentSrc 3 (some u) (fun _ => true) s.now

/-- No stop within TDC_TIMEOUT ticks (R89). -/
def tdcTimeout (s : State) (u : Fin 8) : State :=
  let t := s.tdc[u]
  match t.start with
  | some b =>
    if t.sync && t.run then
      (s.modTdc u fun t => { t with start := none }).tdcResult u 0 0 (fTimeout ||| s.holdFlag s.tbu.raw) b.2.2 none
    else s
  | none => s

/-- No start within 16 ticks of a stop that had none (R89). -/
def tdcOrderEnd (s : State) (u : Fin 8) : State :=
  if s.tdc[u].early.isSome then
    (s.count (R.TDC_CNT0_REJECT u)).modTdc u fun t => { t with early := none }
  else s

/-- A write of TDC_SWn.FIRE (R89). -/
def tdcFire (s : State) (u : Fin 8) : State :=
  if s.tdc[u].run && s.tdc[u].ref == 14 then s.tdcStart u (s.tick 0) else s

/-- EN from 0 to 1: the configuration takes effect, or CFG_ERR (R87). -/
def tdcEnable (s : State) (u : Fin 8) : State :=
  let s := s.put (R.TDC_CFG_EN u) true
  let ref := s.rd (R.TDC_CFG_REF u)
  let sync := s.on (R.TDC_CFG_CLASS u)
  if ref = u.val || (ref = 15 && sync) then s.put (R.TDC_STATUS_CFG_ERR u) true
  else
    (s.modTdc u fun t =>
      { t with run := true, sync := sync, falling := s.on (R.TDC_CFG_EDGE u), ref := ref
               holdoff := s.rd (R.TDC_CFG_HOLDOFF u), wopen := s.rd (R.TDC_WOPEN_TICKS u)
               wclose := s.rd (R.TDC_WCLOSE_TICKS u), timeout := s.rd (R.TDC_TIMEOUT_TICKS u)
               start := none, last := none, early := none, edges := [], seq := 0, block := [], nflag := 0 }).showTdc u

/-- Clearing EN ends a pending measurement without a result (R87). -/
def tdcDisable (s : State) (u : Fin 8) : State :=
  let s := (s.put (R.TDC_CFG_EN u) false).put (R.TDC_STATUS_CFG_ERR u) false
  (s.modTdc u fun t => { t with run := false, start := none, early := none, edges := [] }).showTdc u

/-- A read of word 3 pops the head entry (R91). -/
def tdcPop (s : State) (u : Fin 8) : State := (s.modTdc u fun t => { t with fifo := t.fifo.tail }).showTdc u

/-- A write of TDC_STATCFGn.CLR (R92). -/
def tdcClear (s : State) (u : Fin 8) : State := s.modTdc u fun t => { t with block := [], nflag := 0 }

/-- Every pending measurement ends with TIME_BAD; its VALUE is not stated and is a free value (R77, log entry 3). -/
def tdcTimeBad (s : State) : State :=
  (List.finRange 8).foldl (fun (s : State) u =>
    let t := s.tdc[u]
    match t.start with
    | some b =>
      if t.run && t.sync then
        let (v, s) := s.free
        (s.modTdc u fun t => { t with start := none }).tdcResult u v 0 fTimeBad b.2.2 none
      else s
    | none => s) s

/-! ### Load, step and adjustment (R76 to R80) -/

def causeTimeStep : Nat := 128

/-- The delta `d` goes back too far for the present state (R76). -/
def tooFarBack (s : State) (d : Int) : Bool :=
  decide (d < -(2 ^ 23 : Int)) && (s.anyPortShows || s.rd R.ACQ_STAT_ARMED != 0)

/-- The delta of the present tick that `d` is added to: that of a relock step for an action, and that of an action for
a relock step (R79). -/
def tickOther (s : State) (relock : Bool) : Option TickAct := s.tbu.tickDelta.filter fun a => a.relock != relock

/-- An action of delta `d` is rejected, with a relock step of the same tick (R76, R79). -/
def stepRejected (s : State) (d : Int) (relock : Bool := false) : Bool :=
  s.tooFarBack (((s.tickOther relock).map TickAct.d).getD 0 + d)

/-- REFOUT10 at the present tick (R83): it rises at a multiple of 125, falls within the tick 62 later, and stays low
while TQ is HOLDING. -/
def refoutNow (s : State) : State :=
  let go := s.on R.TBU_CTRL_REFOUT_EN && s.tbu.running && s.rd R.TBU_STAT_TQ != 5
  let high := go && if s.tbu.refHigh then decide (s.now % 125 < 62) else s.now % 125 == 0
  if high = s.tbu.refHigh then s
  else ({ s with tbu := { s.tbu with refHigh := high } } : State).emit (.ball "REFOUT10" 0 (ofBool high))

/-- Applies a delta D to the counter (R76, R77), as a load when `load`, or rejects it. A step adds to a hold in
progress, and a load replaces it. -/
def deltaOnce (s : State) (d : Int) (load : Bool) : State :=
  if s.tooFarBack d then s.ev R.TBU_EVENT_STEP_REJECT
  else
    let c0 := s.tbu.count
    let back := -(2 ^ 23 : Int) ≤ d && d < 0
    let c1 := if back then c0 else (((c0 : Int) + d) % (2 ^ 64 : Nat)).toNat
    let hold := (if back then (-d).toNat else 0) + if load then 0 else s.tbu.hold
    let t := { s.tbu with
      count := c1, hold := hold, past := { raw := s.tbu.raw, count := c1, hold := hold } :: s.tbu.past.take 63
      epoch := load || s.tbu.epoch, ppsOut := if c1 = c0 then s.tbu.ppsOut else none }
    let s := { s with tbu := t }
    let s := (s.wr R.TBU_LAST_STEP_DELTA (ofSigned 64 d)).wr R.TBU_LAST_AT_STAMP c1
    let s := s.ev R.TBU_EVENT_STEP_DONE
    let s := if load then s.wr R.TBU_STAT_EPOCH_SRC (s.rd R.TBU_EPOCH_CTRL_SRC) else s
    let s := if d = 0 then s else ((s.causeAll causeTimeStep).tdcTimeBad).acqTimeStep
    s.evalTq.refoutNow

/-- What stands before a delta of the present tick. -/
def tickAct (s : State) (d : Int) (load relock : Bool) : TickAct :=
  { d := d, relock := relock, load := load, count := s.tbu.count, hold := s.tbu.hold, past := s.tbu.past
    epoch := s.tbu.epoch, src := s.rd R.TBU_STAT_EPOCH_SRC, step := s.rd R.TBU_LAST_STEP_DELTA
    stamp := s.rd R.TBU_LAST_AT_STAMP, done := s.on R.TBU_EVENT_STEP_DONE, reject := s.on R.TBU_EVENT_STEP_REJECT
    causes := s.ports.map Port.causes }

/-- The delta of the present tick is taken back: R76 is to apply once, to the sum (R79). Measurements and captures that
it marked stay marked (DESIGN CHOICE, log entry 67). -/
def tickUndo (s : State) (a : TickAct) : State :=
  let s : State := { s with tbu := { s.tbu with count := a.count, hold := a.hold, past := a.past, epoch := a.epoch } }
  let s := ((s.wr R.TBU_STAT_EPOCH_SRC a.src).wr R.TBU_LAST_STEP_DELTA a.step).wr R.TBU_LAST_AT_STAMP a.stamp
  let s := (s.put R.TBU_EVENT_STEP_DONE a.done).put R.TBU_EVENT_STEP_REJECT a.reject
  (List.finRange 4).foldl (fun (s : State) n =>
    s.modPort n fun p =>
      { p with causes := if a.causes[n].testBit 7 then p.causes else Arith.putBit p.causes 7 false }) s

/-- Applies a delta (R76): of an action, or with `relock` of a relock step. On the tick of the other kind the two are
added, and R76 applies once to the sum (R79). -/
def applyDelta (s : State) (d : Int) (load : Bool) (relock : Bool := false) : State :=
  let (s, d, load) := match s.tickOther relock with
    | some a => (s.tickUndo a, a.d + d, a.load || load)
    | none => (s, d, load)
  let a := s.tickAct d load relock
  let s := s.deltaOnce d load
  { s with tbu := { s.tbu with tickDelta := some a } }

/-- The count that the present tick would have without a relock step of the same tick (R79). -/
def tickCount (s : State) : Nat := ((s.tickOther false).map TickAct.count).getD s.now

/-- The delta of an action against the count `c` that the tick would otherwise have had. -/
def actionDelta (load : Bool) (value c : Nat) : Int :=
  if load then toSigned 64 (value + 2 ^ 64 - c % 2 ^ 64) else toSigned 64 value

/-- A write of TBU_EPOCH_CTRL (R79, R513): action code, ON_PPS, DISARM and SRC. -/
def epochWrite (s : State) (action : Nat) (onPps disarm : Bool) (src : Nat) : State :=
  let armed := s.on R.TBU_STAT_ACT_ARMED
  if action = 3 || (action != 0 && armed) then s.ev R.TBU_EVENT_CFG_REJECT
  else
    let s := (s.put R.TBU_EPOCH_CTRL_ON_PPS onPps).wr R.TBU_EPOCH_CTRL_SRC src
    if action = 0 then
      if disarm then ({ s with tbu := { s.tbu with armed := none } } : State).put R.TBU_STAT_ACT_ARMED false else s
    else
      let load := action == 1
      let value := if load then s.rd R.TBU_EPOCH_SET_VALUE else s.rd R.TBU_STEP_DELTA
      if onPps then
        ({ s with tbu := { s.tbu with armed := some (load, value) } } : State).put R.TBU_STAT_ACT_ARMED true
      else s.applyDelta (actionDelta load value s.tickCount) load

/-- SLEWING holds: every course is flagged that has been fetched and has not ended, at its stamp + 10 × LEN (R151). -/
def slewMark (s : State) : State :=
  (List.finRange 4).foldl (fun (s : State) n =>
    s.modPort n fun p =>
      { p with
        courses := p.courses.map fun c => if s.tbu.raw < c.raw + 10 * c.len then { c with slewing := true } else c
        fetched := p.fetched.map fun f => { f with course := { f.course with slewing := true } } }) s

/-- While a slew runs, what is left of its offset is open within what was last known to be left (R70, log entry 7). -/
def slewNow (s : State) : State :=
  let r := s.rdS R.SYN_SLEW_REM_REM
  if s.on R.SYN_STAT_SLEWING && r != 0 then
    let (v, s) := s.free
    let k : Int := 1 + v % r.natAbs
    s.wrS R.SYN_SLEW_REM_REM (if r < 0 then -k else k)
  else s

/-- A write of TBU_ADJ (R80), with OFFSET as its signed value. -/
def timeAdjust (s : State) (x : Int) : State :=
  let v := s.rdS R.SYN_SLEW_REM_REM + x
  if s.on R.SYN_STAT_HOLDOVER || (s.rd R.SYN_CTRL_SLEW_LIMIT * 3200000 : Int) < v.natAbs
  then s.ev R.TBU_EVENT_ADJ_REJECT
  else
    let was := s.on R.SYN_STAT_SLEWING
    let s := (s.wrS R.SYN_SLEW_REM_REM v).put R.SYN_STAT_SLEWING (v != 0)
    let s := if was && v == 0 then s.ev R.SYN_EVENT_SLEW_DONE else if v == 0 then s else s.slewMark
    s.evalTq

/-- The held ticks that are left pass, and the counter counts on (R76). -/
def holdEnd (s : State) : State :=
  let k := s.tbu.hold
  let s := { s with tbu := { s.tbu with hold := 0, raw := s.tbu.raw + k, tickDelta := none }
                    sys := { s.sys with uptime := s.sys.uptime + k } }
  s.evalTq.refoutNow

/-! ### PPS (R81, R82) -/

def second : Nat := 1250000000

/-- Units of 3.125 ps from the nearest multiple of a second to the time stamp + frac ÷ 256 (R81). -/
def ppsErr (stamp frac : Nat) : Int :=
  let m := second * 256
  let k := (stamp * 256 + frac) % m
  if 2 * k ≤ m then k else (k : Int) - m

/-- The delta of an action that is armed for the edge `q` ticks ago (R513): a load leaves VALUE + q. -/
def ppsDelta (s : State) (load : Bool) (value q : Nat) : Int :=
  actionDelta load (if load then value + q else value) s.tickCount

/-- A PPS_IN edge qualifies `q` ticks after it arrived (R81, R513). -/
def ppsQualified (s : State) (q frac : Nat) : State :=
  let at0 := s.tbu.raw - q
  let edge := s.countAt at0
  let (s, stamp) := match s.tbu.armed with
    | none => (s, edge)
    | some (load, value) =>
      let d := s.ppsDelta load value q
      let new := (((s.tickCount : Int) + d - q) % (2 ^ 64 : Nat)).toNat
      let stamp := if s.stepRejected d then edge else new
      let s := ({ s with tbu := { s.tbu with armed := none } } : State).put R.TBU_STAT_ACT_ARMED false
      (s.applyDelta d load, stamp)
  let s := (s.wr R.TBU_PPS_IN_STAMP stamp).wr R.TBU_PPS_IN_FRAC_FRAC frac
  let s := (s.wrS R.TBU_PPS_ERR_ERR (ppsErr stamp frac)).put R.TBU_STAT_PPS_OK true
  let s := if s.tbu.ppsMissed then
      ({ s with tbu := { s.tbu with ppsMissed := false } } : State).ev R.TBU_EVENT_PPS_RETURN
    else s
  (s.tdcRef 12 (at0, frac, stamp)).presentSrc 5 none (fun _ => true) stamp

/-- No qualified edge within 1.001 s of the last one (R81). -/
def ppsMiss (s : State) : State :=
  if s.on R.TBU_STAT_PPS_OK then
    (({ s with tbu := { s.tbu with ppsMissed := true } } : State).put R.TBU_STAT_PPS_OK false).ev R.TBU_EVENT_PPS_MISS
  else s

/-- The tick is an edge tick of PPS_OUT, and no rule suppresses the pulse (R82). -/
def ppsOutDue (s : State) : Bool :=
  s.on R.TBU_CTRL_PPS_OUT_EN && s.tbu.running
    && (s.now + s.rd R.TBU_PPS_OUT_ADV) % 2 ^ 64 % second == 0
    && !(s.on R.TBU_CTRL_PPS_OUT_QUAL && (s.rd R.TBU_STAT_TQ == 4 || s.rd R.TBU_STAT_TQ == 5 || s.rd R.TBU_STAT_TQ == 6))
    && s.tbu.ppsOut != some s.now

/-- PPS_OUT rises for WIDTH ms (R82). -/
def ppsOutPulse (s : State) : State :=
  if s.ppsOutDue then
    let s := ({ s with tbu := { s.tbu with ppsOut := some s.now } } : State).emit
      (.ball "PPS_OUT" 0 (s.rd R.TBU_PPS_OUT_WIDTH))
    s.tdcRef 13 (s.tick 0)
  else s

/-! ### IEEE 1588 (R84, R85) -/

/-- Seconds, nanoseconds and the addition to correctionField of a stamp (R85). -/
def ptpTime (t : Nat) : Nat × Nat × Nat :=
  let k := t % second
  (t / second, 4 * k / 5, (roundDiv (4 * k % 5 * 65536) 5).toNat)

/-- The delay fields of R84 in ticks: units of 0.1 ns, rounded to the nearest tick. -/
def latTicks (v : Nat) : Nat := (roundDiv v 8).toNat

/-- One tick of PLL_S (R15, R76): the counter counts unless it is held or has not started. -/
def countTick (s : State) : State :=
  let t := s.tbu
  let go := t.running && t.hold == 0
  let c := if go then (t.count + 1) % 2 ^ 64 else t.count
  let s := { s with tbu := { t with count := c, raw := t.raw + 1, hold := t.hold - 1, tickDelta := none
                                    ppsOut := if go then none else t.ppsOut }
                    sys := { s.sys with uptime := s.sys.uptime + 1 } }
  s.evalTq

end Sys2Proof.Machine.State

namespace Sys2Proof.Machine
open Sys2Proof

/-! ### The commands -/

def execEpochLoad (onPps : Bool) (src : BitVec 2) (s : State) : Host.Outcome State Fault Refusal :=
  .next (s.gate 0x50028 fun s => s.epochWrite 1 onPps false src.toNat)

def execEpochStep (onPps : Bool) (src : BitVec 2) (s : State) : Host.Outcome State Fault Refusal :=
  .next (s.gate 0x50028 fun s => s.epochWrite 2 onPps false src.toNat)

def execActionDisarm (onPps : Bool) (src : BitVec 2) (s : State) : Host.Outcome State Fault Refusal :=
  .next (s.gate 0x50028 fun s => s.epochWrite 0 onPps true src.toNat)

def execHoldEnd (s : State) : Host.Outcome State Fault Refusal := .next s.holdEnd

def execTimeAdjust (x : Word) (s : State) : Host.Outcome State Fault Refusal :=
  .next (s.gate 0x50040 fun s => s.slewNow.timeAdjust x.toInt)

def execPpsInQualified (q : Nat) (frac : Byte) (s : State) : Host.Outcome State Fault Refusal :=
  .next (if s.domOn dTIME then s.ppsQualified q frac.toNat else s)

def execPpsRunt (s : State) : Host.Outcome State Fault Refusal := .next (if s.domOn dTIME then s.ev R.TBU_EVENT_PPS_RUNT else s)

def execPpsMiss (s : State) : Host.Outcome State Fault Refusal := .next s.ppsMiss

def execPpsOutPulse (s : State) : Host.Outcome State Fault Refusal := .next s.ppsOutPulse

def execTdcEdge (u : Fin 8) (e : Edge) (s : State) : Host.Outcome State Fault Refusal := .next (s.tdcEdge u e)

def execTdcTimeout (u : Fin 8) (s : State) : Host.Outcome State Fault Refusal := .next (s.tdcTimeout u)

def execTdcOrderWindowEnd (u : Fin 8) (s : State) : Host.Outcome State Fault Refusal := .next (s.tdcOrderEnd u)

def execTdcFire (u : Fin 8) (s : State) : Host.Outcome State Fault Refusal :=
  .next (s.gate 0x51014 fun s => s.tdcFire u)

def execTdcEnable (u : Fin 8) (s : State) : Host.Outcome State Fault Refusal :=
  .next (s.gate 0x51000 fun s => if s.on (R.TDC_CFG_EN u) then s else s.tdcEnable u)

def execTdcDisable (u : Fin 8) (s : State) : Host.Outcome State Fault Refusal :=
  .next (s.gate 0x51000 fun s => s.tdcDisable u)

def execTdcFifoPop (u : Fin 8) (s : State) : Host.Outcome State Fault Refusal :=
  .next (s.gate 0x5102C fun s => s.tdcPop u)

def execTdcStatClear (u : Fin 8) (s : State) : Host.Outcome State Fault Refusal :=
  .next (s.gate 0x51010 fun s => s.tdcClear u)

end Sys2Proof.Machine
end

