-- ==== Sys2Proof/Machine/Rsf.lean ====
section
/-! DEFINITION. The reference sensor front end: the set and its check (R253), sequences and slots (R243, R244), results
(R245 to R248), clamps (R249), confirmed readings (R250), self-calibration (R252) and stopping (R254). -/

namespace Sys2Proof.Machine.State
open Sys2Proof Arith

def modRsf (s : State) (f : Rsf → Rsf) : State := { s with rsf := f s.rsf }

/-- The keys of the channel configuration registers. -/
def rsfKey (k : Nat) : Bool :=
  decide (8 * 0x1E0100 ≤ k) && decide (k < 8 * 0x1E0500) && decide (k / 8 % 0x40 < 0x14)

/-- The configuration of one channel (R240 to R247). -/
structure RsfCh where
  en : Bool
  burn : Bool
  ref : Bool
  (typ gain ainp ainn refp refn exc order settle osr beta iexc rref r0 : Nat)
  deriving DecidableEq, Repr

/-- Channel `c` of a set. -/
def rsfCh (b : List (Nat × Nat)) (c : Nat) : RsfCh :=
  let g (f : Field) : Nat := Bank.get b f.key f.reset
  { en := g (R.RSF_CH_CFG0_EN c) != 0, burn := g (R.RSF_CH_CFG0_BURN_EN c) != 0, ref := g (R.RSF_CH_CFG0_REF c) != 0
    typ := g (R.RSF_CH_CFG0_TYPE c), gain := g (R.RSF_CH_CFG0_GAIN c), ainp := g (R.RSF_CH_CFG0_AINP c)
    ainn := g (R.RSF_CH_CFG0_AINN c), refp := g (R.RSF_CH_CFG0_REFP c), refn := g (R.RSF_CH_CFG0_REFN c)
    exc := g (R.RSF_CH_CFG0_EXC c), order := g (R.RSF_CH_CFG1_ORDER c), settle := g (R.RSF_CH_CFG1_SETTLE c)
    osr := g (R.RSF_CH_CFG1_OSR c), beta := g (R.RSF_CH_CFG2_BETA c), iexc := g (R.RSF_CH_CFG2_IEXC c)
    rref := g (R.RSF_CH_COEF0_R_REF c), r0 := g (R.RSF_CH_COEF1_R0 c) }

/-- The shadow set. -/
def rsfShadow (s : State) : List (Nat × Nat) := s.regs.filter fun e => rsfKey e.1

/-- A channel that fails the check of R253. -/
def rsfBad (c : RsfCh) : Bool :=
  c.en && (decide (4 ≤ c.typ) || (c.typ == 0 && c.ref) || (c.typ != 0 && (!c.ref || c.iexc == 0)) || c.ainp == c.ainn
    || (c.ref && c.refp == c.refn))

/-- The check of a set: the channel that fails, 0 where none is enabled (R253). -/
def rsfCheck (b : List (Nat × Nat)) : Option Nat :=
  if (List.range 16).all fun c => !(rsfCh b c).en then some 0 else (List.range 16).find? fun c => rsfBad (rsfCh b c)

/-- Checks the shadow set: it becomes active, or CFG_ERR is shown and the old one stays (R253). -/
def rsfApply (s : State) : State × Bool :=
  let b := s.rsfShadow
  match rsfCheck b with
  | none => ((s.put R.RSF_STAT_CFG_ERR false).modRsf fun r => { r with active := b, dirty := false }, true)
  | some c =>
    ((((s.put R.RSF_STAT_CFG_ERR true).wr R.RSF_STAT_CHECK_CH c).ev R.RSF_EVENT_CFG_ERR).modRsf fun r =>
      { r with dirty := false }, false)

/-- The balls that a burn-out source or sink of 1 µA drives while the RSF runs: AINP, or AINN, of every enabled channel with
BURN_EN (R247). -/
def rsfBurn (b : List (Nat × Nat)) (ball : RsfCh → Nat) : Nat :=
  ((List.range 16).map (rsfCh b)).foldl (fun m c => if c.en && c.burn then Arith.putBit m (ball c) true else m) 0

/-- The burn-out currents of the active set flow. -/
def rsfBurnOn (s : State) : State :=
  s.modRsf fun r => { r with source := rsfBurn r.active RsfCh.ainp, sink := rsfBurn r.active RsfCh.ainn }

/-- The RSF starts at a write of EN from 0 to 1, if its set passes. -/
def rsfStart (s : State) : State :=
  match s.rsfApply with
  | (s, false) => s
  | (s, true) =>
    let s := (List.range 16).foldl (fun (s : State) c => s.wr (R.RSF_CH_COUNT_COUNT c) 0) s
    let s := (s.put R.RSF_STAT_RUNNING true).wr R.RSF_STAT_SEQ 0
    let s := s.modRsf fun r => { r with inSeq := false, next := 0, phase := 0, prev := Vector.replicate 16 none }
    s.rsfBurnOn.calNext

/-- Turns off every current and clears RUNNING; a write of EN 1 that came meanwhile takes effect (R254). -/
def rsfStop (s : State) : State :=
  let again := s.rsf.restart
  let s := s.put R.RSF_STAT_RUNNING false
  let s := s.modRsf fun r =>
    { r with stopping := false, restart := false, inSeq := false, phase := 0, prev := Vector.replicate 16 none
             exc := Vector.replicate 4 0, source := 0, sink := 0 }
  let s := s.calLeave 8
  if again then s.rsfStart else s

/-- A write of RSF_CTRL.EN 1 (R253, R254). -/
def rsfEnable (s : State) : State :=
  if s.on R.RSF_CTRL_EN then s
  else
    let s := s.put R.RSF_CTRL_EN true
    if s.on R.RSF_STAT_RUNNING then s.modRsf fun r => { r with restart := true } else s.rsfStart

/-- A write of RSF_CTRL.EN 0: the conversion in hand completes and its result is posted before the RSF stops (R254). -/
def rsfDisable (s : State) : State :=
  let s := (s.put R.RSF_CTRL_EN false).modRsf fun r => { r with restart := false }
  if !s.on R.RSF_STAT_RUNNING then s
  else if s.rsf.phase = 0 && s.rsf.post.isEmpty then s.rsfStop
  else s.modRsf fun r => { r with stopping := true }

/-- ORDER_N × OSR, the modulation of a channel in µs (R243). -/
def rsfMod (c : RsfCh) : Nat := (3 + c.order) * c.osr

/-- The slot of a channel in µs. -/
def rsfSlot (c : RsfCh) : Nat := 20 + 10 * c.settle + rsfMod c

/-- The enabled channels of the active set. -/
def rsfList (s : State) : List Nat := (List.range 16).filter fun c => (rsfCh s.rsf.active c).en

/-- The self-calibration slot in µs (R252). -/
def rsfCalLength (s : State) : Nat :=
  20 + 8000 * ((s.rsfList.map fun c => (rsfCh s.rsf.active c).gain).eraseDups).length

/-- A sequence begins (R243, R253): the changed set is checked, and a self-calibration slot that waits comes first. -/
def rsfSequence (s : State) : State :=
  let r := s.rsf
  if !s.on R.RSF_STAT_RUNNING || r.stopping || r.inSeq || r.phase != 0 then s
  else
    let s := if r.dirty then s.rsfApply.1.rsfBurnOn else s
    let s := s.bump R.RSF_STAT_SEQ
    let chans := (s.rsfList.map fun c => rsfSlot (rsfCh s.rsf.active c)).sum
    let s := s.wr R.RSF_SEQ_PERIOD_US (chans + if r.selfcal then s.rsfCalLength else 0)
    s.modRsf fun r => { r with inSeq := true, next := 0, selfcal := false, phase := if r.selfcal then 3 else 0 }

/-- The currents of the excitation sources when channel `k` comes on (R242, R244). -/
def rsfExc (s : State) (k : RsfCh) : Vector Nat 4 :=
  Vector.ofFn fun (i : Fin 4) => if i.val = k.exc then k.iexc
    else if s.bit R.RSF_CTRL_EXC_HOLD i then s.rsf.exc[i] else 0

/-- A write of RSF_CTRL.EXC_HOLD: a source that it no longer holds and that no channel drives is off (R242). -/
def rsfHold (s : State) : State :=
  let driven := if s.rsf.phase = 1 || s.rsf.phase = 2 then some (rsfCh s.rsf.active (s.rd R.RSF_STAT_CUR)).exc else none
  s.modRsf fun r =>
    { r with exc := Vector.ofFn fun (i : Fin 4) =>
        if s.bit R.RSF_CTRL_EXC_HOLD i || driven == some i.val then r.exc[i] else 0 }

/-- The next slot begins with its break-before-make discharge (R243, R244). -/
def rsfSlotStart (s : State) : State :=
  if !s.on R.RSF_STAT_RUNNING || s.rsf.stopping || !s.rsf.inSeq || s.rsf.phase != 0 then s
  else
    match s.rsfList.find? fun c => decide (s.rsf.next ≤ c) with
    | none => s
    | some c =>
      let x := s.rsfExc (rsfCh s.rsf.active c)
      (s.wr R.RSF_STAT_CUR c).modRsf fun r => { r with phase := 1, next := c + 1, clampSeen := r.clamp, exc := x }

/-- Modulation begins after settling (R243). -/
def rsfModStart (s : State) : State :=
  if s.rsf.phase = 1 then s.modRsf fun r => { r with phase := 2, modStart := s.tbu.raw } else s

/-! ### Results (R246, R247), in binary64 -/

open Sys2Proof.Machine.Real (F64)

/-- The coefficients A, B and C of IEC 60751. -/
def rtdA : F64 := Real.ofRat 39083 10000000
def rtdB : F64 := Real.ofRat (-5775) 10000000000
def rtdC : F64 := Real.ofRat (-4183) 1000000000000000

/-- The quadratic of IEC 60751 inverted for the ratio `q` of R and R0; none where no temperature has that ratio. -/
def rtdQuad (q : F64) : Option F64 :=
  let d := Real.sub (Real.mul rtdA rtdA) (Real.mul (Real.mul (Real.ofInt 4) rtdB) (Real.sub (Real.ofInt 1) q))
  if d.m < 0 then none
  else some (Real.div (Real.add (Real.neg rtdA) (Real.sqrt d)) (Real.mul (Real.ofInt 2) rtdB))

/-- 1 + A t + B t² + C (t − 100) t³, and its derivative. -/
def rtdLow (t : F64) : F64 × F64 :=
  let t2 := Real.mul t t
  let t3 := Real.mul t2 t
  (Real.sum [Real.ofInt 1, Real.mul rtdA t, Real.mul rtdB t2, Real.mul rtdC (Real.mul (Real.sub t (Real.ofInt 100)) t3)],
   Real.sum [rtdA, Real.mul (Real.mul (Real.ofInt 2) rtdB) t,
     Real.mul rtdC (Real.sub (Real.mul (Real.ofInt 4) t3) (Real.mul (Real.ofInt 300) t2))])

/-- Iterates from `t` until the step is under 0.001 K (R246), by Newton's method (DESIGN CHOICE, log entry 39). -/
def rtdIterate (q : F64) : Nat → F64 → F64
  | 0, t => t
  | k + 1, t =>
    let (f, d) := rtdLow t
    let x := Real.div (Real.sub f q) d
    let t := Real.sub t x
    if Real.lt ⟨x.m.natAbs, x.e⟩ (Real.ofRat 1 1000) then t else rtdIterate q k t

/-- What the iteration gives: the manual does not name its method, so its last value is open by the bound of its step (log
entry 39). -/
def rtdBelow (q t : F64) : F64 :=
  let t := rtdIterate q 32 t
  Real.add t (Real.ofRat (Config.rtdError q.m q.e).toInt (1000 * 2 ^ 63))

/-- VALUE and SAT of the temperature `t`, saturated to `lo` and `hi` °C. -/
def tempSat (t : F64) (lo hi : Int) : Int × Bool :=
  if Real.lt t (Real.ofInt lo) then (lo * 256, true)
  else if Real.lt (Real.ofInt hi) t then (hi * 256, true)
  else (Real.grid t 256, false)

/-- RTD: s24.8 °C and SAT for the ratio `q` of R and R0. A ratio that no temperature has lies beyond the range. -/
def rtdTemp (q : F64) : Int × Bool :=
  match rtdQuad q with
  | none => (850 * 256, true)
  | some t => tempSat (if Real.lt q (Real.ofInt 1) then rtdBelow q t else t) (-200) 850

/-- THERM: s24.8 °C and SAT for the positive ratio `q` of R and R26. An inverse of 0 is an infinite temperature, and a
negative one a temperature below the range (DEDUCED, log entry 39). -/
def thermTemp (q : F64) (beta : Nat) : Int × Bool :=
  let inv := Real.add (Real.ofRat 100 29815) (Real.div (Real.ln q) (Real.ofInt beta))
  if inv = Real.zero then (250 * 256, true) else tempSat (Real.celsius inv) (-80) 250

/-- r × R_REF in mΩ, corrected for the burn-out current (R246, R247). -/
def rsfOhms (k : RsfCh) (code : Int) : F64 :=
  let r := Real.mul (Real.ofRat code (2 ^ 23 * 2 ^ k.gain)) (Real.ofInt k.rref)
  if k.burn then Real.div r (Real.add (Real.ofInt 1) (Real.ofRat 1 k.iexc)) else r

/-- VALUE and SAT of a conversion (R246); none where the manual states no result: a reference value or BETA of 0, a
thermistor without a positive resistance, a negative resistance. -/
def rsfValue (k : RsfCh) (code : Int) : Option (Nat × Bool) :=
  let r := rsfOhms k code
  let q := Real.div r (Real.ofInt k.r0)
  let show_ (x : Int × Bool) : Option (Nat × Bool) := some (ofSigned 32 x.1, x.2)
  if k.typ = 0 then
    show_ (Real.grid (Real.mul (Real.ofRat code (2 ^ 23 * 2 ^ k.gain)) (Real.ofRat 5 4)) 1000000000, false)
  else if k.typ = 1 then (if k.r0 = 0 then none else show_ (rtdTemp q))
  else if k.typ = 2 then
    (if !Real.isPos r || k.r0 = 0 || k.beta = 0 then none else show_ (thermTemp q k.beta))
  else if r.m < 0 then none else show_ (Real.grid r 1, false)

/-- The balls that a conversion uses (R249). -/
def rsfBalls (k : RsfCh) : List Nat := [k.ainp, k.ainn] ++ if k.ref then [k.refp, k.refn] else []

/-- What the check at the end of modulation finds (R248): an input ball at a rail, the reference below 0.25 V, the
excitation source at compliance. -/
def rsfBurnout (k : RsfCh) (rail refLow compliance : Bool) : Bool := (rail && k.burn) || (refLow && k.ref) || compliance

/-- A confirmed reading (R250). -/
def rsfConfirm (s : State) (c : Nat) (p : Nat × Nat) : State :=
  ((s.wr (R.RSF_CH_GOOD_VALUE_VALUE c) p.1).wr (R.RSF_CH_GOOD_STAMP_STAMP c) p.2).modRsf fun r =>
    { r with good := Arith.putBit r.good c true }

/-- Modulation ends: the channel is checked, the result computed, and the reading before it confirmed (R245 to R250).
`code` is the filter's output before saturation. -/
def rsfModEnd (s : State) (code : Int) (rail refLow compliance : Bool) : State :=
  if s.rsf.phase != 2 then s
  else
    let c := s.rd R.RSF_STAT_CUR
    let k := rsfCh s.rsf.active c
    let code' := satSigned 24 code
    let burnout := rsfBurnout k rail refLow compliance
    let ov := (rsfBalls k).any fun b => s.rsf.clampSeen.testBit b
    let (v, s) : (Nat × Bool) × State := match rsfValue k code' with
      | some v => (v, s)
      | none => let (x, s) := s.free; ((x % 2 ^ 32, false), s)
    let stamp := s.countAt (s.rsf.modStart + rsfMod k * 625)
    let res : RsfResult := { ch := c, code := ofSigned 24 code', burnout := burnout, ov := ov, sat := v.2 || code' != code
                             uncal := s.on R.RSF_STAT_CAL_STALE, value := v.1, stamp := stamp }
    let s := match (s.rsf.prev.toList)[c]? with
      | some (some p) => if burnout then s else s.rsfConfirm c p
      | _ => s
    let s := if burnout then s.ev R.RSF_EVENT_BURNOUT c else s
    let last := s.rsfList.all fun e => decide (e ≤ c)
    s.modRsf fun r =>
      { r with phase := 0, inSeq := !last, post := r.post ++ [res]
               prev := r.prev.setIfInBounds c (if burnout || ov then none else some (v.1, stamp))
               exc := Vector.ofFn fun (i : Fin 4) => if s.bit R.RSF_CTRL_EXC_HOLD i then r.exc[i] else 0 }

/-- A result is posted (R245); behind the last one the RSF stops if EN was written 0 (R254). -/
def rsfPost (s : State) : State :=
  match s.rsf.post with
  | [] => s
  | x :: r =>
    let c := x.ch
    let s := s.modRsf fun q => { q with post := r }
    let s := ((s.wr (R.RSF_CH_RAW_CODE c) x.code).put (R.RSF_CH_RAW_BURNOUT c) x.burnout).put (R.RSF_CH_RAW_OV c) x.ov
    let s := (s.put (R.RSF_CH_RAW_SAT c) x.sat).put (R.RSF_CH_RAW_UNCAL c) x.uncal
    let s := ((s.wr (R.RSF_CH_VALUE_VALUE c) x.value).wr (R.RSF_CH_STAMP_STAMP c) x.stamp).bump (R.RSF_CH_COUNT_COUNT c)
    if s.rsf.stopping && s.rsf.phase = 0 && r.isEmpty then s.rsfStop else s

/-- The clamp of SEN[b] engages, or releases (R249). -/
def senClamp (s : State) (b : Nat) : State :=
  ((s.putBit R.RSF_OV_BALL b true).ev R.RSF_EVENT_OV).modRsf fun r =>
    { r with clamp := Arith.putBit r.clamp b true, clampSeen := Arith.putBit r.clampSeen b true }

def senRelease (s : State) (b : Nat) : State := s.modRsf fun r => { r with clamp := Arith.putBit r.clamp b false }

/-- A write of RSF_CTRL.SELFCAL: ignored while a slot is pending or running (R252). -/
def selfcalWrite (s : State) : State := if s.rsf.phase = 3 then s else s.modRsf fun r => { r with selfcal := true }

/-- The self-calibration slot ends, with the selections of a pass (R252). -/
def selfcalEnd (s : State) (sel : Option (List Nat)) : State :=
  if s.rsf.phase != 3 then s
  else
    let s := s.modRsf fun r => { r with phase := 0, sel := sel.getD r.sel }
    let s : State := match sel with
      | some _ =>
        let s : State := { s with mgt := { s.mgt with calTj := s.mgt.calTj.set 8 (some (s.rdS R.MGT_TJ_TJ)) } }
        (s.wr R.RSF_STAT_CAL_RESULT 1).put R.RSF_STAT_CAL_STALE false
      | none => (s.wr R.RSF_STAT_CAL_RESULT 2).ev R.RSF_EVENT_CAL_FAIL
    let s := if s.mgt.calRun = some 8 then s.calEnd 8 (if sel.isSome then 0 else 2) else s
    if s.rsf.stopping && s.rsf.post.isEmpty then s.rsfStop else s

/-- Shadow copies of a 64-bit register, under the offsets of its words (R11, R251). -/
def latch (s : State) (off v : Nat) : State := { s with shadow := Bank.put s.shadow off v 0 }

/-- A read of RSF_CHc_RAW latches VALUE, STAMP and COUNT (R251). -/
def rsfRawRead (s : State) (c : Nat) : State :=
  let o := 0x1E0100 + 0x40 * c
  let t := s.rd (R.RSF_CH_STAMP_STAMP c)
  (((s.latch (o + 0x24) (s.rd (R.RSF_CH_VALUE_VALUE c))).latch (o + 0x28) (t % 2 ^ 32)).latch (o + 0x2C) (t / 2 ^ 32)).latch
    (o + 0x30) (s.rd (R.RSF_CH_COUNT_COUNT c))

/-- A read of RSF_CHc_GOOD_VALUE latches GOOD_STAMP (R251). -/
def rsfGoodRead (s : State) (c : Nat) : State :=
  let o := 0x1E0100 + 0x40 * c
  let t := s.rd (R.RSF_CH_GOOD_STAMP_STAMP c)
  (s.latch (o + 0x38) (t % 2 ^ 32)).latch (o + 0x3C) (t / 2 ^ 32)

/-- The confirmed reading of channel `c`, if its TYPE offers a temperature and it is enabled (R250). -/
def rsfReading (s : State) (c : Nat) : Option (Int × Nat) :=
  let k := rsfCh s.rsf.active c
  if k.en && (k.typ == 1 || k.typ == 2) && s.rsf.good.testBit c then
    some (s.rdS (R.RSF_CH_GOOD_VALUE_VALUE c), s.rd (R.RSF_CH_GOOD_STAMP_STAMP c))
  else none

/-- A confirmed reading of channel `c` more than DELTA K from its value at the last pass of an RRX target that watches
it makes the target pending (R447). -/
def rsfWatch (s : State) (c : Nat) : State :=
  match s.rsfReading c with
  | none => s
  | some (t, _) =>
    let far (n : Fin 4) : Bool := s.calWatch n == (true, c) && match s.mgt.calRef[n] with
      | some r => decide (256 * (s.rd R.MGT_CAL_CFG_DELTA : Int) < (t - r).natAbs)
      | none => false
    let l : List (Fin 4) := (List.finRange 4).filter fun (n : Fin 4) => s.on R.MGT_CAL_CFG_AUTO && far n
    (l.foldl (fun (s : State) (n : Fin 4) => s.calPend (4 + n)) s).calNext

end Sys2Proof.Machine.State

namespace Sys2Proof.Machine
open Sys2Proof

def execRsfEnable (s : State) : Out :=
  .next (s.gate 0x1E0000 fun s => s.rsfEnable)
def execRsfDisable (s : State) : Out :=
  .next (s.gate 0x1E0000 fun s => s.rsfDisable)
def execRsfSequenceStart (s : State) : Out := .next s.rsfSequence
def execRsfSlotStart (s : State) : Out := .next s.rsfSlotStart
def execRsfModulationStart (s : State) : Out := .next s.rsfModStart
def execRsfModulationEnd (code : Int) (rail refLow compliance : Bool) (s : State) : Out :=
  .next ((s.rsfModEnd code rail refLow compliance).rsfWatch (s.rd R.RSF_STAT_CUR))
def execRsfResultPost (s : State) : Out := .next s.rsfPost
def execSenClamp (b : Fin 16) (s : State) : Out := .next (s.senClamp b)
def execSenClampRelease (b : Fin 16) (s : State) : Out := .next (s.senRelease b)
def execRsfSelfcalWrite (s : State) : Out :=
  .next (s.gate 0x1E0000 fun s => s.selfcalWrite)
def execSelfcalSlotEnd (sel : Option (List Nat)) (s : State) : Out := .next (s.selfcalEnd sel)
def execRsfRawRead (c : Fin 16) (s : State) : Out :=
  .next (s.gate 0x1E0120 fun s => s.rsfRawRead c)
def execRsfGoodRead (c : Fin 16) (s : State) : Out :=
  .next (s.gate 0x1E0134 fun s => s.rsfGoodRead c)

end Sys2Proof.Machine
end

