-- ==== Sys2Proof/Machine/Rrx.lean ====
section
/-! DEFINITION. The Raman receiver: traces and their acceptance (R217 to R222), accumulation buffers (R223), corrections
(R221, R224, R236 to R238), the compute (R225 to R228), profile records (R229) and DTS jobs (R230 to R233). -/

namespace Sys2Proof.Machine.State
open Sys2Proof Arith

/-! ### State and showing -/

def rjNone : Nat := 0
def rjQueued : Nat := 1
def rjRunning : Nat := 2
def rjSuspended : Nat := 3
def rjDone : Nat := 4
def rjCancelled : Nat := 5
def rjFailed : Nat := 6

/-- The job is QUEUED, RUNNING or SUSPENDED. -/
def rrxBusy (r : Rrx) : Bool := r.state == rjQueued || r.state == rjRunning || r.state == rjSuspended

/-- Buffers that are not free: the open one, those whose compute is not written, and those whose record waits for the
temperature stream (R330). -/
def rrxTaken (s : State) (n : Fin 4) : Nat :=
  (if s.rrx[n].open_.isSome then 1 else 0) + s.rrx[n].closed.length
    + (s.streams[(3 : Fin 7)].waitq.filter fun x => x.port == n.val).length

/-- An empty buffer under the corrections in force. -/
def bufNew (s : State) (n : Fin 4) : RBuf :=
  { sums := [], n := 0, first := 0, last := 0, tq := 0, rejected := 0, len := 0, route := 0, slewing := false
    watch := false, uncal := !s.rrx[n].passed, stale := s.on (R.RRX_PORT_STAT_CAL_STALE n)
    routeEnd := false, suspended := false, corr := s.rrx[n].corr, gamma := 0, da := 0, low := 0, coil0 := none
    coil1 := none, coilStale := false }

/-- Shows QUIET of RRX (R236): a window has ended with both channels at most QUIET_TH, and no trace is in progress. -/
def showRamanQuiet (s : State) (n : Fin 4) : State :=
  if !s.portOn n then s
  else
    s.put (R.RRX_PORT_STAT_QUIET n)
      (s.rrx[n].quietSeen && s.rrx[n].hand.isNone
        && (List.range 2).all fun c => decide (s.rd (R.RRX_PORT_CH_RMS_RMS n c) ≤ s.rd R.RRX_CTRL_QUIET_TH))

/-- Corrections that wait take effect while no buffer is open (R224). -/
def corrApply (s : State) (n : Fin 4) : State :=
  match s.rrx[n].deferred with
  | some c => if s.rrx[n].open_.isNone then s.modRrx n fun r => { r with corr := c, deferred := none } else s
  | none => s

/-- Opens a free buffer for a running job (R223). -/
def rrxOpen (s : State) (n : Fin 4) : State :=
  let s := s.corrApply n
  let r := s.rrx[n]
  (if r.state = rjRunning && r.open_.isNone && s.rrxTaken n < 2 then s.modRrx n fun r => { r with open_ := some (s.bufNew n) }
   else s).showRrx n

/-! ### Samples (R218 to R220) -/

def rrxCharge (s : State) (n : Nat) : Bool := s.on (R.RRX_PORT_CFG_MODE n)

/-- The enabled switch points: sample and range. -/
def rrxSwitches (s : State) (n : Nat) : List (Nat × Nat) :=
  ((List.range 4).filter fun i => s.on (R.RRX_PORT_SW_EN n i)).map fun i =>
    (s.rd (R.RRX_PORT_SW_SAMPLE n i), s.rd (R.RRX_PORT_SW_RANGE n i))

/-- The range of native sample `i` (R219). -/
def rrxRange (s : State) (n i : Nat) : Nat :=
  ((s.rrxSwitches n).filter fun w => decide (w.1 ≤ i)).foldl (fun (_ : Nat) w => w.2) (s.rd (R.RRX_PORT_CFG_RANGE0 n))

/-- Samples below GATE in CHARGE mode are not converted (R218). -/
def rrxGated (s : State) (n i : Nat) : Bool := s.rrxCharge n && decide (i < s.rd (R.RRX_PORT_GATE_VALUE n))

/-- A reset sample of CHARGE mode (R218). -/
def rrxReset (s : State) (n i : Nat) : Bool :=
  s.rrxCharge n && !s.rrxGated n i && (i + 1) % s.rd (R.RRX_PORT_CFG_RST n) == 0

/-- Native sample `i` is blanked (R220). -/
def rrxBlank (s : State) (n i : Nat) : Bool :=
  (s.rrxSwitches n).any (fun w => decide (w.1 ≤ i) && decide (i < w.1 + 12))
    || s.rrxReset n i

/-- The native samples of a trace of `len` from the codes of its converter samples, from its origin on (R217): the sum of
two codes as s2.13. In CHARGE mode CLIP stays from full scale to the next reset sample (R218). With them comes how many
converter samples of each channel carry CLIP. -/
def rrxNative (s : State) (n len : Nat) (xs : List RCode) : List RSum × Nat × Nat :=
  let none_ : RCode := { s0 := 0#14, s1 := 0#14, c0 := false, c1 := false }
  let charge := s.rrxCharge n
  ((List.range len).foldl (fun (acc : (List RSum × Nat × Nat) × Bool × Bool) i =>
    let ((l, k0, k1), h0, h1) := acc
    if s.rrxGated n i || s.rrxReset n i then
      ((l ++ [{ s0 := 0, s1 := 0, c0 := false, c1 := false }], k0, k1), false, false)
    else
      let a := xs.getD (2 * i) none_
      let b := xs.getD (2 * i + 1) none_
      let a0 := a.c0 || h0
      let b0 := b.c0 || (charge && a0)
      let a1 := a.c1 || h1
      let b1 := b.c1 || (charge && a1)
      ((l ++ [{ s0 := a.s0.toInt + b.s0.toInt, s1 := a.s1.toInt + b.s1.toInt, c0 := a0 || b0, c1 := a1 || b1 }],
        k0 + ofBool a0 + ofBool b0, k1 + ofBool a1 + ofBool b1), charge && b0, charge && b1)) (([], 0, 0), false, false)).1

/-- Adds an accepted trace to a buffer: blanked and gated samples are not added (R220, R223). -/
def rrxAdd (s : State) (n : Nat) (b : RBuf) (xs : List RSum) : List RSum :=
  (List.range (max b.sums.length xs.length)).map fun i =>
    let a := b.sums.getD i { s0 := 0, s1 := 0, c0 := false, c1 := false }
    let x := xs.getD i { s0 := 0, s1 := 0, c0 := false, c1 := false }
    if s.rrxBlank n i || s.rrxGated n i then a
    else { s0 := a.s0 + x.s0, s1 := a.s1 + x.s1, c0 := a.c0 || x.c0, c1 := a.c1 || x.c1 }

/-! ### Closing (R223, R227) -/

/-- The temperature of a coil at a compute: the newest good reading no older than 60 s, and whether it is older than
10 s (R227). -/
def coilTemp (s : State) (n c : Nat) : Option (Int × Bool) :=
  match s.rsfReading (s.rd (R.RRX_PORT_COIL_A_SEN n c)) with
  | none => none
  | some (t, st) =>
    let age := (s.now + 2 ^ 64 - st) % 2 ^ 64
    if age ≤ 12500000000 then some (t, false) else if age ≤ 75000000000 then some (t, true) else none

/-- The open buffer closes, its compute starts, and the other buffer opens (R223, R224). -/
def rrxClose (s : State) (n : Fin 4) (routeEnd : Bool) : State :=
  match s.rrx[n].open_ with
  | none => s
  | some b =>
    let c0 := s.coilTemp n 0
    let c1 := s.coilTemp n 1
    let old (c : Option (Int × Bool)) : Bool := (c.map Prod.snd).getD false
    let b := { b with
      routeEnd := routeEnd, gamma := s.rd (R.RRX_PORT_GAMMA_GAMMA n), da := s.rd (R.RRX_PORT_DA_DA n)
      low := s.rd (R.RRX_PORT_LOW_TH_TH n), coil0 := c0.map Prod.fst, coil1 := c1.map Prod.fst
      coilStale := old c0 || (s.on (R.RRX_PORT_COIL_A_EN n 1) && old c1) }
    (s.modRrx n fun r => { r with open_ := none, closed := r.closed ++ [b], leaving := false }).rrxOpen n

/-- A launch of the port has a trace that has not ended. -/
def traceComes (s : State) (n : Fin 4) : Bool :=
  s.rrx[n].hand.isSome || !s.rrx[n].waiting.isEmpty || !s.ports[n].ramans.isEmpty

/-- The last trace on the old route of a route change has ended: an open buffer that holds a trace closes (R232). -/
def rrxLeave (s : State) (n : Fin 4) : State :=
  let s := s.modRrx n fun r => { r with leaving := false }
  if 0 < (s.rrx[n].open_.map RBuf.n).getD 0 then s.rrxClose n true else s

/-- The port's old courses have returned at a route change: so have its traces, or the last of them still has to end
(R109, R232). -/
def rrxRouteEnd (s : State) (n : Fin 4) : State :=
  if s.traceComes n then s.modRrx n fun r => { r with leaving := true } else s.rrxLeave n

/-! ### Traces (R217, R222) -/

/-- The trace of the oldest launch whose trigger has fired begins (R217). While the job does not run it makes no trace
(R232). -/
def traceStart (s : State) (n : Fin 4) : State :=
  match s.rrx[n].waiting with
  | [] => s
  | t :: r =>
    let s := s.modRrx n fun q => { q with waiting := r }
    if s.rrx[n].state = rjRunning && !s.rrx[n].suspending then
      let s := s.rrxOpen n
      (s.modRrx n fun q => { q with hand := some { t with room := q.open_.isSome } }).showRamanQuiet n
    else s

/-- A trace is rejected (R222). -/
def traceReject (s : State) (n : Fin 4) : State :=
  let s := s.modRrx n fun r => { r with open_ := r.open_.map fun b => { b with rejected := b.rejected + 1 } }
  (s.count (R.RRX_PORT_REJECT_COUNT n)).ev R.RRX_EVENT_REJECT n

/-- SUSPEND takes effect (R231, R232). -/
def rrxSuspend (s : State) (n : Fin 4) : State :=
  let s := s.modRrx n fun r =>
    { r with state := rjSuspended, suspending := false, open_ := r.open_.map fun b => { b with suspended := true } }
  ((s.releaseHods (.dts n)).jobSuspended s.rrx[n].job).showRrx n

/-- After a trace: the buffer of an old route closes, SUSPEND takes effect, and the inputs may be quiet. -/
def traceAfter (s : State) (n : Fin 4) : State :=
  let s := if s.rrx[n].leaving && !s.traceComes n then s.rrxLeave n else s
  (if s.rrx[n].suspending then s.rrxSuspend n else s.showRrx n).showRamanQuiet n

/-- Counts the clipped converter samples of a channel (R239). -/
def ramanClip (s : State) (n : Fin 4) (c k : Nat) : State :=
  if k = 0 then s else (s.count (R.RRX_PORT_CH_CLIP_COUNT n c) k).ev R.RRX_EVENT_CLIP (2 * n + c)

/-- The trace in hand ends with its codes, and is accepted or rejected as a whole (R222, R223). -/
def traceEnd (s : State) (n : Fin 4) (xs : List RCode) : State :=
  match s.rrx[n].hand with
  | none => s
  | some t =>
    let s := s.modRrx n fun r => { r with hand := none }
    let (l, k0, k1) := s.rrxNative n t.len xs
    let s := (s.ramanClip n 0 k0).ramanClip n 1 k1
    let s := match s.rrx[n].open_ with
      | some b =>
        if t.bad || !t.room || s.memc.outage then s.traceReject n
        else
          let b := { b with
            sums := s.rrxAdd n b l, n := b.n + 1, first := if b.n = 0 then t.stamp else b.first
            last := t.stamp, tq := max b.tq t.tq, len := t.len, route := t.route, slewing := b.slewing || t.slewing
            watch := b.watch || t.watch }
          let s := s.modRrx n fun r => { r with open_ := some b }
          if s.rrx[n].depth ≤ b.n then s.rrxClose n false else s
      | none => s.traceReject n
    s.traceAfter n

/-! ### The compute (R221, R225 to R228), in binary64 from left to right -/

open Sys2Proof.Machine.Real (F64)

/-- x_ci of a sample that is not interpolated (R221); K of range 0 is 1. -/
def rrxSample (b : RBuf) (c range : Nat) (v : Int) : F64 :=
  let k := b.corr.getD c { ofs := [], gain := [] }
  let o := Real.ofRat (2 * k.ofs.getD range 0) 65536
  let g := if range = 0 then 65536 else k.gain.getD range 65536
  Real.div (Real.sub (Real.div (Real.ofInt v) (Real.ofInt b.n)) o) (Real.ofRat g 65536)

/-- The nearest sample from `i` on, going down or up, that is not interpolated, within `k`. -/
def nearest (blank : Nat → Bool) (len : Nat) (up : Bool) : Nat → Nat → Option Nat
  | 0, _ => none
  | k + 1, i =>
    if len ≤ i then none
    else if !blank i then some i
    else if up then nearest blank len up k (i + 1)
    else if i = 0 then none else nearest blank len up k (i - 1)

/-- x_ci of every sample, interpolated where it is blanked (R221). -/
def rrxValues (s : State) (n : Nat) (b : RBuf) (c : Nat) : List F64 :=
  let len := b.sums.length
  let raw := (List.range len).map fun i =>
    let x := b.sums.getD i { s0 := 0, s1 := 0, c0 := false, c1 := false }
    rrxSample b c (s.rrxRange n i) (if c = 0 then x.s0 else x.s1)
  let at_ (i : Nat) : F64 := raw.getD i Real.zero
  (List.range len).map fun i =>
    if s.rrxBlank n i then
      match nearest (s.rrxBlank n) len false len i, nearest (s.rrxBlank n) len true len i with
      | some a, some d =>
        Real.add (at_ a) (Real.div (Real.mul (Real.sub (at_ d) (at_ a)) (Real.ofInt (i - a : Nat))) (Real.ofInt (d - a : Nat)))
      | some a, none => at_ a
      | none, some d => at_ d
      | none, none => Real.zero
    else at_ i

def sumRange (l : List F64) (lo k : Nat) (keep : Nat → Bool) : F64 :=
  Real.sum (((List.range k).filter fun j => keep (lo + j)).map fun j => l.getD (lo + j) Real.zero)

/-- START, END of coil `c`. -/
def coilSpan (s : State) (n c : Nat) : Nat × Nat := (s.rd (R.RRX_PORT_COIL_A_START n c), s.rd (R.RRX_PORT_COIL_B_END n c))

/-- R_c of a coil over its samples that are not interpolated; none where its Stokes sum is 0 (log entry 16). -/
def coilRatio (s : State) (n c : Nat) (v0 v1 : List F64) : Option F64 :=
  let (a, z) := s.coilSpan n c
  let keep := fun i => !s.rrxBlank n i
  let st := sumRange v0 a (z + 1 - a) keep
  if st = Real.zero then none else some (Real.div (sumRange v1 a (z + 1 - a) keep) st)

/-- ln of R_c, where R_c is positive. -/
def coilLn (r : Option F64) : Option F64 := r.bind fun x => if Real.isPos x then some (Real.ln x) else none

/-- GAMMA. -/
def gammaOf (b : RBuf) : F64 := Real.ofRat b.gamma 65536

/-- DA of R226, in units of 2^−32; `d2` is twice z_c1 − z_c0. -/
def twoCoil (b : RBuf) (l0 l1 : F64) (t0 t1 d2 : Int) : Int :=
  let g (t : Int) : F64 := Real.div (gammaOf b) (Real.toKelvin t)
  Real.grid (Real.div (Real.sub (Real.add (Real.sub l0 l1) (g t0)) (g t1)) (Real.ofRat d2 2)) (2 ^ 32)

/-- TEMP and SAT from 1 ÷ T_k (R225, R228). -/
def tempOf (inv : F64) : Int × Bool :=
  if !Real.isPos inv then (2 ^ 23 - 1, true)
  else
    let t := Real.grid (Real.celsius inv) 256
    (satSigned 24 t, satSigned 24 t != t)

/-- What a compute gives: header figures, values, and whether some point carries CLIP. -/
structure RProfile where
  (tc da : Int)
  rc : Nat
  noCoil : Bool
  clip : Bool
  vals : List Nat
  deriving DecidableEq, Repr

/-- The flags of point `k`: EDGE, LOW, INTERP, CLIP as in R228, without those that the ratio decides. -/
def pointFlags (s : State) (n : Nat) (b : RBuf) (lo w : Nat) : Nat :=
  let is := (List.range w).map fun j => lo + j
  ofBool (is.any fun i => decide (b.sums.length ≤ i) || decide (b.len ≤ i) || s.rrxGated n i) * 128
    + ofBool (is.any (s.rrxBlank n)) * 32
    + ofBool (is.any fun i => (b.sums[i]?.map fun x => x.c0 || x.c1).getD false) * 16

/-- TEMP and SAT of a point from the dividend of GAMMA. A GAMMA of 0 gives an infinite quotient; with a dividend of 0 the
manual states no result, and the value is open (log entry 3). -/
def tempRaw (b : RBuf) (tc : Int) (num : F64) (open_ : Nat) : Int × Bool :=
  if b.gamma = 0 then
    if num = Real.zero then (toSigned 24 open_, false)
    else if Real.isPos num then (Real.grid (Real.neg Real.kelvin) 256, false)
    else (2 ^ 23 - 1, true)
  else tempOf (Real.add (Real.div (Real.ofInt 1) (Real.toKelvin tc)) (Real.div num (gammaOf b)))

/-- One point of a TEMP profile (R225, R228). `d2` is twice z_k − z_c. A Stokes sum of 0, which a LOW_TH of 0 lets pass,
makes R_k infinite and 1 ÷ T_k negative. -/
def tempPoint (b : RBuf) (da : Int) (lc : Option F64) (a st : F64) (w : Nat) (d2 : Int) (fl open_ : Nat) : Nat :=
  let low := !Real.isPos a || Real.lt st (Real.ofRat (w * b.low : Nat) 65536)
  match b.coil0, lc with
  | some tc, some l =>
    if fl.testBit 7 then fl ||| ofBool low * 64
    else if low then fl ||| 64
    else
      let (t, sat) := if st = Real.zero then (2 ^ 23 - 1, true)
        else
          tempRaw b tc (Real.sub (Real.sub l (Real.ln (Real.div a st))) (Real.mul (Real.ofRat da (2 ^ 32)) (Real.ofRat d2 2)))
            open_
      ofSigned 24 t * 256 + (fl ||| ofBool sat * 8)
  | _, _ => fl ||| 64

/-- A value of a SUMS profile: s16.16, saturating. -/
def sumsValue (x : F64) (w : Nat) : Nat := ofSigned 32 (satSigned 32 (Real.grid (Real.div x (Real.ofInt w)) 65536))

/-- The compute of a closed buffer (R225 to R228). -/
def rrxCompute (s : State) (n : Nat) (b : RBuf) (sums : Bool) (open_ : Nat) : RProfile :=
  let v0 := s.rrxValues n b 0
  let v1 := s.rrxValues n b 1
  let r0 := s.coilRatio n 0 v0 v1
  let l0 := coilLn r0
  let c0 := s.coilSpan n 0
  let c1 := s.coilSpan n 1
  let d2 : Int := (c1.1 + c1.2 : Nat) - (c0.1 + c0.2 : Nat)
  let reg := toSigned 32 b.da
  let da := match b.coil0, b.coil1 with
    | some t0, some t1 =>
      if !s.on (R.RRX_PORT_COIL_A_EN n 1) then reg
      else
        match l0, coilLn (s.coilRatio n 1 v0 v1) with
        | some a, some b1 => if d2 = 0 then toSigned 32 (open_ / 2 ^ 24) else satSigned 32 (twoCoil b a b1 t0 t1 d2)
        | _, _ => toSigned 32 (open_ / 2 ^ 24)
    | _, _ => reg
  let w := s.rd (R.RRX_PORT_CFG_B n)
  let z0 := s.rd (R.RRX_PORT_Z0_VALUE n)
  let pts := (List.range (s.rd (R.RRX_PORT_COUNT_VALUE n))).map fun k =>
    let lo := z0 + w * k
    let a := sumRange v1 lo w fun _ => true
    let st := sumRange v0 lo w fun _ => true
    let fl := s.pointFlags n b lo w
    let d : Int := (2 * lo + w - 1 : Nat) - (c0.1 + c0.2 : Nat)
    (a, st, fl, tempPoint b da l0 a st w d fl open_)
  { tc := b.coil0.getD 0, da := da
    rc := match r0 with
      | some r => satNat 32 (Real.grid r (2 ^ 24)).toNat
      | none => 0
    noCoil := b.coil0.isNone, clip := pts.any fun p => p.2.2.1.testBit 4
    vals := if sums then pts.flatMap fun p => [sumsValue p.1 w, sumsValue p.2.1 w] else pts.map fun p => p.2.2.2 }

/-- The sixteen header words (R229). -/
def profileHeader (s : State) (n : Nat) (r : Rrx) (b : RBuf) (p : RProfile) (number : Nat) : List Nat :=
  [b.first % 2 ^ 32, b.first / 2 ^ 32, b.last % 2 ^ 32, b.last / 2 ^ 32,
   (if r.sums then 2 else 1) * 2 ^ 28 + n * 2 ^ 26 + b.route * 2 ^ 22 + ofBool (s.rrxCharge n) * 2 ^ 21
     + s.rd (R.RRX_PORT_COUNT_VALUE n),
   number, b.tq * 2 ^ 29 + b.n,
   satNat 16 b.rejected * 2 ^ 16 + ofBool b.slewing * 256 + ofBool b.watch * 128 + ofBool b.uncal * 64
     + ofBool b.stale * 32 + ofBool p.noCoil * 16 + ofBool b.coilStale * 8 + ofBool b.routeEnd * 4
     + ofBool b.suspended * 2 + ofBool p.clip,
   s.rd (R.RRX_PORT_CFG_B n) * 2 ^ 24 + s.rd (R.RRX_PORT_Z0_VALUE n), ofSigned 32 p.tc, p.rc, ofSigned 32 p.da, b.gamma,
   r.job, b.len, 0]

/-- Sends a profile to each destination of RRX_CTRL.DEST (R229). -/
def profileSend (s : State) (n : Fin 4) (last : Nat) (head vals : List Nat) : State :=
  let dst := s.rd R.RRX_CTRL_DEST
  let s := if dst.testBit 0 then
      s.offer 3 { port := n, rtype := 1, stamp := last, body := bytesOfWords (head ++ vals), lane := 0, slot := 0 }
    else s
  let s := if dst.testBit 1 then
      { s with vdcIn := s.vdcIn ++ [{ src := 2, port := n, prof := 0, kind := 0, entry := 0, stamp := last, frame := none
                                      words := head ++ vals }] }
    else s
  if dst.testBit 2 then { s with cmpIn := s.cmpIn ++ [.profile { port := n, words := head, vals := vals }] } else s

/-- The job ends in a final state; its buffers and its trace in hand are gone. -/
def rrxEnd (s : State) (n : Fin 4) (st : Nat) : State :=
  (((s.modRrx n fun r =>
    { r with state := st, suspending := false, resuming := false, resumer := none, waiting := [], hand := none
             open_ := none, closed := [], leaving := false }).corrApply n |>.releaseHods (.dts n)).showRrx n).showRamanQuiet n

/-- The compute of the oldest closed buffer ends: its record is written and the buffer is free (R223, R229, R231). -/
def profileRecord (s : State) (n : Fin 4) : State :=
  match s.rrx[n].closed with
  | [] => s
  | b :: rest =>
    let (x, s) := s.free
    let r := s.rrx[n]
    let number := (r.profile + 1) % 2 ^ 32
    let p := s.rrxCompute n b r.sums x
    let head := s.profileHeader n r b p number
    let s := s.modRrx n fun r => { r with closed := rest, profile := number }
    let s := (s.profileSend n b.last head p.vals).jobStep r.job
    let s := s.ev R.RRX_EVENT_PROFILE n
    let s := if s.portOn n then
        (s.wr (R.RRX_PORT_LAST_PROFILE_STAMP n) b.last).wr (R.RRX_PORT_TC_LAST_TC n) (ofSigned 32 p.tc)
      else s
    if r.cont then s.rrxOpen n else (s.rrxEnd n rjDone).jobDone r.job 0 [number]

/-! ### Jobs (R230 to R233) -/

/-- Steps of the RUN pattern with RAMAN. -/
def ramanSteps (s : State) (n : Nat) : Nat := ((s.patSteps n false).filter fun x => s.on (R.PPE_STEP_RAMAN n x)).length

/-- The job is a long DTS accumulation (R230). -/
def dtsLong (s : State) (n depth : Nat) (cont : Bool) : Bool :=
  cont || s.ramanSteps n == 0 || decide (s.ramanSteps n * 1250000000 < depth * s.patPinC n)

/-- Check 5 of R233. -/
def dtsGeometry (s : State) (n : Nat) : Bool :=
  let used := (List.range 2).filter fun c => s.on (R.RRX_PORT_COIL_A_EN n c)
  let bad (c : Nat) : Bool :=
    let (a, z) := s.coilSpan n c
    decide (z < a) || s.rrxGated n a || (s.rrxSwitches n).any fun w => decide (w.1 ≤ z) && decide (a ≤ w.1 + 11)
  let (a0, z0) := s.coilSpan n 0
  let (a1, z1) := s.coilSpan n 1
  s.rd (R.RRX_PORT_COUNT_VALUE n) == 0
    || decide (149796 < s.rd (R.RRX_PORT_Z0_VALUE n) + s.rd (R.RRX_PORT_CFG_B n) * s.rd (R.RRX_PORT_COUNT_VALUE n))
    || !s.on (R.RRX_PORT_COIL_A_EN n 0) || used.any bad
    || (used.length == 2 && decide (a0 ≤ z1) && decide (a1 ≤ z0))

/-- Check 4 of R233: enabled switches rise by at least 24 and none is gated. -/
def switchesBad (s : State) (n : Nat) : Bool :=
  let l := (s.rrxSwitches n).map Prod.fst
  (l.any (s.rrxGated n)) || (List.zip l l.tail).any fun p => decide (p.2 < p.1 + 24)

/-- The checks of R233 that need no wait: check and status. -/
def dtsCheck (s : State) (n : Fin 4) (depth : Nat) : Option (Nat × Nat) :=
  let k := s.ramanSteps n
  if rrxBusy s.rrx[n] then some (1, E_BUSY)
  else if s.degraded then some (2, E_DRAM)
  else if depth = 0 || 65536 < depth
      || depth * s.patPinC n < k * (1250000 + 25 * s.lenOf n (s.route n)) then some (3, E_RAMAN_DEPTH)
  else if s.switchesBad n then some (4, E_RAMAN_SWITCH)
  else if s.dtsGeometry n then some (5, E_RAMAN_GEOMETRY)
  else none

/-- The job begins to run: buffer 0 opens (R231). -/
def dtsRun (s : State) (n : Fin 4) : State :=
  let s := s.modRrx n fun r => { r with state := rjRunning, resuming := false, resumer := none }
  ((s.jobRuns s.rrx[n].job).rrxOpen n).showRrx n

/-- A job is made (R231): it runs, or waits for the 2 hods of a long accumulation. -/
def dtsMake (s : State) (n : Fin 4) (job depth : Nat) (sums cont : Bool) (tmo : Nat) : State × HodAnswer :=
  let long := s.dtsLong n depth cont
  let s := s.modRrx n fun r =>
    { r with state := rjQueued, job := job, depth := depth, sums := sums, cont := cont, long := long, suspending := false
             resuming := false, resumer := none, profile := 0, waiting := [], hand := none, open_ := none, closed := []
             leaving := false }
  if !long then ((s.jobRuns job).dtsRun n, .granted)
  else
    match s.requestHods { user := .dts n, hods := 2, cls := 1, tmo := tmo, job := job } with
    | (s, .granted) => (s.dtsRun n, .granted)
    | (s, a) => (s.showRrx n, a)

/-- The hods of a long job are not granted in time (R231): the job fails check 6 of R233, or a RESUME returns to SUSPENDED. -/
def dtsTimeout (s : State) (n : Fin 4) : State :=
  let r := s.rrx[n]
  if r.resuming then
    let s := s.modRrx n fun r => { r with state := rjSuspended, resuming := false, resumer := none }
    let s := s.modJob r.job fun j => { j with state := .suspended }
    let s := match r.resumer with
      | some p => s.reply p E_POWER 0
      | none => s
    s.showRrx n
  else (s.rrxEnd n rjFailed).jobFailed r.job E_POWER (6 * 4096)

/-- SUSPEND of a running job (R232). -/
def dtsSuspend (s : State) (n : Fin 4) : State :=
  if s.rrx[n].hand.isSome then s.modRrx n fun r => { r with suspending := true } else s.rrxSuspend n

/-- CANCEL (R232). -/
def dtsCancel (s : State) (n : Fin 4) : State :=
  let job := s.rrx[n].job
  ((s.withdrawHods (.dts n)).rrxEnd n rjCancelled).jobCancelled job

/-- DRAM became DEGRADED: a running job fails (R231). -/
def dtsDegraded (s : State) (n : Fin 4) : State :=
  if s.rrx[n].state = rjRunning then (s.rrxEnd n rjFailed).jobFailed s.rrx[n].job E_DRAM else s

/-! ### Calibration (R236 to R238) -/

/-- The raw tick of the next launch of a RAMAN step from step `x` on, whose stamp lies at raw tick `t`. -/
def ramanFrom (s : State) (n : Nat) (watch : Bool) : Nat → Nat → Nat → Option Nat
  | 0, _, _ => none
  | k + 1, x, t =>
    if s.on (R.PPE_STEP_RAMAN n x) then some t
    else
      ramanFrom s n watch k (if s.on (R.PPE_STEP_LAST n x) then s.patFirst n watch else (x + 1) % 512) (t + s.sDelay n x)

/-- The stamp of the next launch of a RAMAN step, as a raw tick, which the PPE supplies from the running pattern (R237). -/
def ramanNext (s : State) (n : Fin 4) : Option Nat :=
  let p := s.ports[n]
  match p.fetched.find? Fetch.raman with
  | some f => some f.course.raw
  | none =>
    if s.pstate n = stRun || s.pstate n = stWatch then p.nextRaw.bind fun t => s.ramanFrom n p.watchPat 512 p.step t
    else none

/-- The traces of the port have ended, and a step of 4,096 ticks fits before the next fetch of a RAMAN step (R237). -/
def ramanFits (s : State) (n : Fin 4) : Bool :=
  let idle := s.rrx[n].hand.isNone
    && (s.rrx[n].state != rjRunning || (s.rrx[n].waiting.isEmpty && s.ports[n].ramans.isEmpty))
  idle && match s.ramanNext n with
    | some t => decide (s.tbu.raw + 4096 + 256 ≤ t)
    | none => true

/-- Plumb starts a step of the pass of port `n` (R237). -/
def ramanCalStart (s : State) (n : Fin 4) : State :=
  if s.mgt.calRun = some (4 + n.val) && !s.mgt.calIn && s.portOn n && s.ramanFits n then
    let s := if s.mgt.calStep = 0 then s.modRrx n fun r => { r with trial := [] } else s
    { s with mgt := { s.mgt with calIn := true } }
  else s

/-- The corrections that four steps measured: O and K of each range and channel, with K 1 in range 0 (R221). -/
def corrOf (l : List (List (Int × Nat))) : List RCorr :=
  (List.range 2).map fun c =>
    { ofs := l.map fun x => (x.getD c (0, 0)).1
      gain := 65536 :: (l.drop 1).map fun x => (x.getD c (0, 0)).2 }

/-- A write of MODE within a step abandons it (R238). -/
def rrxModeWrite (s : State) (n : Fin 4) : State := s.calAbandon (4 + n)

/-- A step ends (R238): 0 within limits, with O and K of both channels, 1 not quiet, 2 no plausible range. -/
def ramanCalEnd (s : State) (n : Fin 4) (kind : Fin 3) (meas : List (Int × Nat)) : State :=
  if s.mgt.calRun != some (4 + n.val) || !s.mgt.calIn then s
  else if kind.val = 0 then
    let s := s.modRrx n fun r => { r with trial := r.trial ++ [meas] }
    let s := { s with mgt := { s.mgt with calIn := false, calStep := s.mgt.calStep + 1 } }
    if s.mgt.calStep < 4 then s
    else
      let s := { s with mgt := { s.mgt with rrxCorr := s.mgt.rrxCorr.set n (corrOf s.rrx[n].trial) } }
      let s := s.modRrx n fun r => { r with trial := [], deferred := some (corrOf r.trial), passed := true }
      let busy := s.rrx[n].state == rjRunning || s.rrx[n].state == rjSuspended
      let s := if busy && s.rrx[n].open_.isSome then s else s.corrApply n
      let s := (s.wr (R.RRX_PORT_STAT_CAL_RESULT n) 1).put (R.RRX_PORT_STAT_CAL_STALE n) false
      let s := { s with mgt := { s.mgt with
        calRef := s.mgt.calRef.set n (match s.rsfReading (s.calWatch n).2 with
          | some p => some p.1
          | none => none) } }
      (s.showRrx n).calEnd (4 + n.val) 0
  else
    let s := (s.wr (R.RRX_PORT_STAT_CAL_RESULT n) 2).ev R.RRX_EVENT_CAL_FAIL n
    s.calEnd (4 + n.val) kind.val

end Sys2Proof.Machine.State

namespace Sys2Proof.Machine
open Sys2Proof

def execTraceStart (n : Fin 4) (s : State) : Out := .next (s.traceStart n)
/-- `xs`: the converter samples of the trace, from its origin on. -/
def execTraceEnd (n : Fin 4) (xs : List RCode) (s : State) : Out := .next (s.traceEnd n xs)
def execProfileRecord (n : Fin 4) (s : State) : Out := .next (s.profileRecord n)
def execRamanCalStepStart (n : Fin 4) (s : State) : Out := .next (s.ramanCalStart n)
def execRamanCalStepEnd (n : Fin 4) (kind : Fin 3) (meas : List (Int × Nat)) (s : State) : Out :=
  .next (s.ramanCalEnd n kind meas)

end Sys2Proof.Machine
end

