-- ==== Sys2Proof/Machine/Synth.lean ====
section
/-! DEFINITION. Clock synthesis: enables, acquisition and band tables (R47 to R55), slot and chirp tables (R56, R57),
carrier phase (R62 to R65), reference loss and return (R66 to R72). -/

namespace Sys2Proof.Machine.State
open Sys2Proof Arith

def modSyn (s : State) (f : Syn → Syn) : State := { s with syn := f s.syn }

/-- Bit `p` of a mask of the SYN record, set or cleared. -/
def synMask (m p : Nat) (b : Bool) : Nat := Arith.putBit m p b

/-- The band entry that synthesiser `p` uses (R51). -/
def bandEntry (s : State) (p : Nat) : Nat := if p = 2 then s.rd (R.SYN_PLL_CFG_OP 2) else 0

/-- No synthesiser has an operating point 3 or uses entry 3 (R47): PLL_M with OP at 3 has no valid entry
(DESIGN CHOICE, log entry 61). -/
def bandReady (s : State) (p : Nat) : Bool := s.bandEntry p != 3 && s.on (R.SYN_BAND_VALID p (s.bandEntry p))

/-- Synthesiser `p` may not start before OCXO_RDY (R55). -/
def synMustWait (s : State) (p : Nat) : Bool := decide (p < 3) && s.on R.SYN_CTRL_WAIT_RDY && !s.on R.SYN_STAT_OCXO_RDY

/-- Starts the band search of synthesiser `p` for its current operating point (R52). -/
def searchStart (s : State) (p : Nat) : State :=
  let s := if p = 2 then s.modSyn fun y => { y with searchOp := s.bandEntry 2 } else s
  s.put (R.SYN_PLL_STAT_SEARCH_BUSY p) true

/-- The band entry that the search in progress of synthesiser `p` stores into. -/
def searchEntry (s : State) (p : Nat) : Nat := if p = 2 then s.syn.searchOp else 0

/-- Both flags of a band failure (R51). The party that started it on a loaded entry, where it has not locked since,
clears EN and searches (R53). -/
def bandFail (s : State) (p : Nat) : State :=
  let s := s.modSyn fun y => { y with acquiring := synMask y.acquiring p false }
  let s := (s.ev R.SYN_EVENT_BAND_FAIL p).putBit R.SYN_STAT_BAND_FAIL p true
  if s.syn.firmware.testBit p && s.syn.fused.testBit p then
    ((s.putBit R.SYN_CTRL_EN p false).putBit R.SYN_STAT_BAND_FAIL p false).searchStart p
  else s

/-- Synthesiser `p` starts on its band entry (R51). -/
def synStart (s : State) (p : Nat) : State :=
  if s.bandReady p then
    (s.wr (R.SYN_PLL_STAT_BAND_USED p) (s.rd (R.SYN_BAND_BAND p (s.bandEntry p)))).modSyn fun y =>
      { y with acquiring := synMask y.acquiring p true }
  else s.bandFail p

/-- Sets EN[p] (R51, R52, R55); `firmware` when the boot ROM or Chadihus does so (R53). -/
def synEnable (s : State) (p : Nat) (firmware : Bool) : State :=
  if s.bit R.SYN_CTRL_EN p then s
  else
    let s := (s.putBit R.SYN_CTRL_EN p true).putBit R.SYN_STAT_BAND_FAIL p false
    let s := s.modSyn fun y => { y with firmware := synMask y.firmware p firmware }
    if s.on (R.SYN_PLL_STAT_SEARCH_BUSY p) then s
    else if s.synMustWait p then s.modSyn fun y => { y with waiting := synMask y.waiting p true }
    else s.synStart p

/-- The causes of R151 that a loss of lock of synthesiser `p` lays (R73). -/
def lockCause (s : State) (p : Nat) : State :=
  if p = 0 then s.causeAll causePllS
  else if p = 1 then s.causeAll causePllC
  else if p = 3 then (s.cause 0 causeCsy).cause 1 causeCsy
  else if p = 4 then (s.cause 2 causeCsy).cause 3 causeCsy
  else s

/-- The lock state of one synthesiser drops (R48), and it reacquires on the same band entry when `again` (R50). -/
def dropOne (s : State) (p : Nat) (again : Bool) : State :=
  let was := s.bit R.SYN_STAT_LOCK p
  let s := s.putBit R.SYN_STAT_LOCK p false
  let s := s.modSyn fun y =>
    { y with
      acquiring := if again && s.bit R.SYN_CTRL_EN p && was then synMask y.acquiring p true else y.acquiring
      loaded := if 3 ≤ p then synMask y.loaded (p - 3) false else y.loaded }
  if was then
    let s := if p = 0 then s.linkLock false else s
    (s.ev R.SYN_EVENT_LOCK_LOSS p).lockCause p
  else s

/-- The lock state of synthesiser `p` drops; with PLL_S those of the carrier synthesisers drop (R49). -/
def dropLock (s : State) (p : Nat) (again : Bool) : State :=
  let s := s.dropOne p again
  if p = 0 then (((s.dropOne 3 (again || s.on R.SYN_CTRL_AUTO_RELOCK)).dropOne 4 (again || s.on R.SYN_CTRL_AUTO_RELOCK)).calAbandonAll).evalTq
  else s

/-- SYN_EVENT.STEP_DONE when PLL_S and every other enabled synthesiser are locked again after a STEP (R69). -/
def stepDone (s : State) : State :=
  if s.syn.stepping && s.bit R.SYN_STAT_LOCK 0
      && s.rd R.SYN_CTRL_EN == (s.rd R.SYN_CTRL_EN &&& s.rd R.SYN_STAT_LOCK) then
    (s.modSyn fun y => { y with stepping := false }).ev R.SYN_EVENT_STEP_DONE
  else s

/-- Clears EN[p] (R49, R51); where it is 0 nothing changes. -/
def synDisable (s : State) (p : Nat) : State :=
  if s.bit R.SYN_CTRL_EN p then
    let s := (s.putBit R.SYN_CTRL_EN p false).putBit R.SYN_STAT_BAND_FAIL p false
    let s := s.modSyn fun y =>
      { y with
        acquiring := synMask y.acquiring p false, waiting := synMask y.waiting p false
        firmware := synMask y.firmware p false }
    (s.dropLock p false).stepDone
  else s

/-- A write of SYN_PLLp_CFG.SEARCH (R52). While a search runs it starts no other (DESIGN CHOICE, log entry 62). -/
def bandSearch (s : State) (p : Nat) : State :=
  if s.bit R.SYN_CTRL_EN p then s.ev R.SYN_EVENT_CFG_REJECT
  else if s.on (R.SYN_PLL_STAT_SEARCH_BUSY p) then s
  else s.searchStart p

/-- Entry `e` of synthesiser `p` no longer holds the fused code as it was loaded (R53). -/
def bandTouched (s : State) (p e : Nat) : State :=
  if e = 0 then s.modSyn fun y => { y with fused := synMask y.fused p false } else s

/-- The search ends with a band, or without one (R52, R53); an EN that waited for it takes effect. -/
def searchDone (s : State) (p : Nat) (found : Option (BitVec 6)) : State :=
  if !s.on (R.SYN_PLL_STAT_SEARCH_BUSY p) then s
  else
    let e := s.searchEntry p
    let s := (s.put (R.SYN_PLL_STAT_SEARCH_BUSY p) false).bandTouched p e
    match (if e = 3 then none else found) with
    | some b =>
      let s := (s.wr (R.SYN_BAND_BAND p e) b.toNat).put (R.SYN_BAND_VALID p e) true
      if s.bit R.SYN_CTRL_EN p then (if s.synMustWait p then s.modSyn fun y => { y with waiting := synMask y.waiting p true } else s.synStart p)
      else if s.syn.firmware.testBit p then s.synEnable p true
      else s
    | none =>
      let s := (s.put (R.SYN_BAND_VALID p e) false).modSyn fun y => { y with firmware := synMask y.firmware p false }
      (s.ev R.SYN_EVENT_BAND_FAIL p).putBit R.SYN_STAT_BAND_FAIL p true

/-- OCXO_RDY rises: synthesisers that wait start (R55). -/
def ocxoRise (s : State) : State :=
  let s := s.put R.SYN_STAT_OCXO_RDY true
  let w := s.syn.waiting
  let s := s.modSyn fun y => { y with waiting := 0 }
  ((bitsOf 5 w).foldl (fun (s : State) p => if s.bit R.SYN_CTRL_EN p then s.synStart p else s) s).evalTq

/-- OCXO_RDY falls (R55, R75). -/
def ocxoFall (s : State) : State := (s.put R.SYN_STAT_OCXO_RDY false).evalTq

/-- The phase error of the last detector cycle (R48). -/
def showErr (s : State) (p : Nat) (err : Int) : State := s.wrS (R.SYN_PLL_STAT_PHASE_ERR p) err

/-- The lock of PLL_S starts the counter (R15) and gives a STEP jump to the TBU (R78). -/
def pllsLocked (s : State) : State :=
  let s : State := if s.tbu.running then s
    else { s with tbu := { s.tbu with running := true, past := [{ raw := s.tbu.raw, count := s.tbu.count, hold := 0 }] } }
  let s := match s.syn.jump with
    | some j => (s.modSyn fun y => { y with jump := none }).applyDelta (-(roundDiv j 256)) false true
    | none => s
  s.evalTq

/-- The condition of a lock declaration (R48, R49); the loop can lock to no reference that is lost. -/
def mayLock (s : State) (p : Nat) (err : Int) : Bool :=
  s.syn.acquiring.testBit p && s.bit R.SYN_CTRL_EN p && (decide (p < 3) || s.bit R.SYN_STAT_LOCK 0)
    && !(decide (p < 3) && s.syn.refDown) && decide (err.natAbs ≤ s.rd (R.SYN_PLL_CFG_LOCK_WIN p))

/-- Synthesiser `p` declares lock (R48): PLL_S as in `pllsLocked`, a carrier synthesiser reloads its accumulators
(R63). -/
def lockDeclared (s : State) (p : Nat) (err : Int) : State :=
  if s.mayLock p err then
    let s := (s.putBit R.SYN_STAT_LOCK p true).showErr p err
    let s := s.modSyn fun y =>
      { y with acquiring := synMask y.acquiring p false, firmware := synMask y.firmware p false
               loaded := if 3 ≤ p then synMask y.loaded (p - 3) true else y.loaded }
    let s := if p = 0 then (s.linkLock true).pllsLocked else s
    s.stepDone
  else s

/-- Two detector cycles beyond 2 × LOCK_WIN drop the lock (R48, R50). -/
def lockLoss (s : State) (p : Nat) (err : Int) : State :=
  if s.bit R.SYN_STAT_LOCK p && decide (2 * s.rd (R.SYN_PLL_CFG_LOCK_WIN p) < err.natAbs) then
    (s.showErr p err).dropLock p (s.on R.SYN_CTRL_AUTO_RELOCK)
  else s

/-- The control word stood at a range end for 50 µs of acquisition (R51). -/
def rangeEnd (s : State) (p : Nat) : State := if s.syn.acquiring.testBit p then s.bandFail p else s

/-- A write of SYN_CTRL.REF_MODE that R54 discards. -/
def refModeBad (s : State) (m : Nat) : Bool :=
  m == 3 || (m != s.rd R.SYN_CTRL_REF_MODE && s.rd R.SYN_CTRL_EN % 8 != 0)

/-- A write of SYN_CTRL that changes only REF_MODE (R54). -/
def refModeWrite (s : State) (m : Nat) : State :=
  if s.refModeBad m then s.ev R.SYN_EVENT_CFG_REJECT else s.wr R.SYN_CTRL_REF_MODE m

/-! ### Slot and chirp tables (R56, R57) -/

/-- The keys of the shadow tables of CSYk. -/
def csyKey (k key : Nat) : Bool := decide (8 * (0x41100 + 0x800 * k) ≤ key) && decide (key < 8 * (0x41280 + 0x800 * k))

/-- Frequency words of the enabled shadow slots. -/
def csySlots (s : State) (k : Nat) : List Nat :=
  ((List.range 8).filter fun j => s.on (R.SYN_CSY_SLOT_EN k j)).map fun j => s.rd (R.SYN_CSY_SLOT_FTW k j)

/-- START and STOP of a shadow profile. -/
def csyChirp (s : State) (k q : Nat) : Int × Int := (s.rdS (R.SYN_CSY_CHIRP0_START k q), s.rdS (R.SYN_CSY_CHIRP1_STOP k q))

/-- 40 to 640 MHz, as 0.016 to 0.256 of 2.5 GHz in units of 2^−48. -/
def inBand (f : Int) : Bool := decide (16 * 2 ^ 48 ≤ 1000 * f) && decide (1000 * f ≤ 256 * 2 ^ 48)

/-- The enabled slots lie at least 70 MHz apart. -/
def spaced : List Nat → Bool
  | [] => true
  | f :: r => (r.all fun g => decide (28 * 2 ^ 48 ≤ 1000 * ((f : Int) - g).natAbs)) && spaced r

/-- The checks of R56. -/
def csyCheck (s : State) (k : Nat) : Bool :=
  let fs := s.csySlots k
  let qs := (List.range 8).map (s.csyChirp k)
  (fs.all fun f => inBand f) && spaced fs
    && (qs.all fun c => decide (1000 * c.1.natAbs ≤ 12 * 2 ^ 32) && decide (1000 * c.2.natAbs ≤ 12 * 2 ^ 32))
    && ((List.range 8).all fun q => s.rd (R.SYN_CSY_CHIRP2_SHAPE k q) != 3)
    && (fs.all fun f => qs.all fun c => inBand (f + c.1 * 2 ^ 16) && inBand (f + c.2 * 2 ^ 16))

/-- A port served by CSYk shows in PORT_RUN or PORT_WATCH. -/
def csyServes (s : State) (k : Nat) : Bool := (List.finRange 4).any fun n => csyOf n == k && s.portShows n != 0

/-- The frequency increment per DDS clock of a profile, in units of 2^−48 cycle, rounded toward zero (R59): STOP − START
over the clocks in which the frequency runs from START to STOP. -/
def chirpInc (start stop : Int) (shape len : Nat) : Int :=
  let clocks := if shape = 1 then 2 * len else if shape = 2 then 2 * (len / 2) else 0
  ((stop - start) * 2 ^ 16).tdiv clocks

/-- The increments of the shadow profiles of CSYk. -/
def csyInc (s : State) (k : Nat) : Vector Int 8 :=
  Vector.ofFn fun q : Fin 8 =>
    let c := s.csyChirp k q
    chirpInc c.1 c.2 (s.rd (R.SYN_CSY_CHIRP2_SHAPE k q)) (s.rd (R.SYN_CSY_CHIRP2_LENGTH k q))

/-- The outcome of a COMMIT: 0 active, 1 a check failed, 2 a served port runs. -/
def csyCommit (s : State) (k : Nat) : State × Nat :=
  if s.csyServes k then (s.ev R.SYN_EVENT_SLOT_REJECT, 2)
  else if s.csyCheck k then
    let new := s.regs.filter fun e => csyKey k e.1
    let inc := s.csyInc k
    (s.modSyn fun y =>
      { y with
        active := new.foldl (fun b e => Bank.set b e.1 e.2) (Bank.drop y.active (csyKey k))
        inc := y.inc.setIfInBounds k inc }, 0)
  else (s.ev R.SYN_EVENT_SLOT_ERR, 1)

/-- A write of SYN_PHASE_EPOCH (R64). -/
def phaseEpoch (s : State) (e : Nat) : State :=
  if s.anyPortShows then s.ev R.SYN_EVENT_CFG_REJECT else s.wr R.SYN_PHASE_EPOCH_EPOCH e

/-- φ_j of port `n` at stamp `t`, in units of 2^−48 of a cycle (R62). -/
def slotPhase (s : State) (n j t : Nat) : Nat :=
  let k := csyOf n
  (s.synActive (R.SYN_CSY_SLOT_FTW k j) * 2 * ((t + 2 ^ 64 - s.rd R.SYN_PHASE_EPOCH_EPOCH) % 2 ^ 64)
    + s.synActive (R.SYN_CSY_SLOT_PHASE k j) * 2 ^ 36) % 2 ^ 48

/-- The accumulator of slot `j` at DDS clock `c` of stamp `t`: the second clock of a tick adds F_j once more (R62). -/
def slotClock (s : State) (n j t c : Nat) : Nat :=
  (s.slotPhase n j t + c * s.synActive (R.SYN_CSY_SLOT_FTW (csyOf n) j)) % 2 ^ 48

/-! ### Reference (R66 to R72) -/

/-- Duration of a holdover in ms. -/
def holdMs (s : State) : Nat := satNat 32 ((s.tbu.raw - s.syn.holdStart) / 1250000)

/-- No edge for 300 ns (R66, R67, R72): `rem` is the offset that a slew in progress has left. -/
def refLoss (s : State) (rem : Int) : State :=
  if s.syn.refDown then s
  else
    let s := (s.ev R.SYN_EVENT_REF_LOSS).put R.SYN_STAT_REF_OK false
    let s := s.modSyn fun y => { y with refDown := true }
    let s := if s.on R.SYN_STAT_SLEWING then
        ((s.wrS R.SYN_SLEW_REM_REM rem).put R.SYN_STAT_SLEWING false).modSyn fun y => { y with held := rem }
      else s
    let s := if s.on R.SYN_CTRL_HOLD_EN then
        (s.put R.SYN_STAT_HOLDOVER true).modSyn fun y => { y with holdStart := s.tbu.raw }
      else (s.dropLock 0 true).modSyn fun y => { y with stepping := true }
    s.evalTq

/-- Takes up the jump `j` by the STEP procedure (R69). -/
def refStep (s : State) (j : Int) : State :=
  (s.dropLock 0 true).modSyn fun y => { y with stepping := true, jump := some j }

/-- The returning reference is qualified, with the jump that was measured (R68 to R72). The first qualification after
the TIME domain turned on measures no jump. -/
def refReturn (s : State) (jump : Int) : State :=
  if !s.syn.refDown then s.put R.SYN_STAT_REF_OK true
  else
    let j := satSigned 32 (jump + s.syn.held)
    let s := if s.on R.SYN_STAT_HOLDOVER then s.wr R.SYN_HOLD_TIME_MS s.holdMs else s
    let s := (((s.wrS R.SYN_REFJUMP_JUMP j).ev R.SYN_EVENT_REF_RETURN).put R.SYN_STAT_REF_OK true).put
      R.SYN_STAT_HOLDOVER false
    let s := (s.wr R.SYN_SLEW_REM_REM 0).modSyn fun y => { y with refDown := false, held := 0 }
    let s :=
      if j.natAbs ≤ s.rd (R.SYN_PLL_CFG_LOCK_WIN 0) then s
      else if !s.bit R.SYN_STAT_LOCK 0 then s.modSyn fun y => { y with stepping := true, jump := some j }
      else if s.on R.SYN_CTRL_POLICY && j.natAbs ≤ s.rd R.SYN_CTRL_SLEW_LIMIT * 3200000 then
        ((s.put R.SYN_STAT_SLEWING true).wrS R.SYN_SLEW_REM_REM j).slewMark
      else if s.on R.SYN_CTRL_POLICY then (s.ev R.SYN_EVENT_SLEW_FALLBACK).refStep j
      else s.refStep j
    s.evalTq

/-- The slew offset reaches 0 (R70). -/
def slewDone (s : State) : State :=
  if s.on R.SYN_STAT_SLEWING then
    (((s.put R.SYN_STAT_SLEWING false).wr R.SYN_SLEW_REM_REM 0).ev R.SYN_EVENT_SLEW_DONE).evalTq
  else s

end Sys2Proof.Machine.State
end

