-- ==== Sys2Proof/Machine/Power.lean ====
section
/-! DEFINITION. What a power domain loses when it turns off, and PORTn turning on and off (R21, R22, R428). -/

namespace Sys2Proof.Machine.State
open Sys2Proof Arith

/-- Bit `d` of the domains that are on. -/
def setDomain (s : State) (d : Nat) (b : Bool) : State :=
  { s with sys := { s.sys with domains := Arith.putBit s.sys.domains d b } }

/-- PORTn turns on, if it is off: its registers take their reset values but for the retained ones, the calibrated
selections and corrections are loaded again (R125, R232), and the selection that RMD_ROUTE_SEL retains is taken at the
next scan (R22, log entry 17). -/
def portTurnOn (s : State) (n : Fin 4) : State := if s.portOn n then s else (s.portPower n).calNext

/-- PORTn turns off (R21, R22): the records of the port start afresh, but for those that belong to CORE. -/
def portTurnOff (s : State) (n : Fin 4) : State :=
  if !s.portOn n then s
  else
    let s := ((s.calAbandonPort n).spoilTraces n).linkOff n
    let s := s.dropRegs fun off => portOfOffset off == some n.val
    let s := s.modPort n fun p =>
      { portInit with
        biasWait := p.biasWait, biasOut := p.biasOut, biasTo := p.biasTo, link := p.link, points := p.points, zonPrev := p.zonPrev, fdc := p.fdc, eras := p.eras }
    let s := s.modRrx n fun r => { r with waiting := [], hand := none, trial := [] }
    let s := s.setDomain (dPORT n) false
    (s.calLeave n).calLeave (4 + n)

end Sys2Proof.Machine.State
end

