-- ==== Sys2Proof/Machine/Vdc.lean ====
section
/-! DEFINITION. The DSP cluster: group states (R256 to R260), kernels (R283 to R286), bindings and input items (R275 to
R277), the frame of one instruction (R265 to R267), and the ends of OUT and XFER (R280, R282). -/

namespace Sys2Proof.Machine.State
open Sys2Proof Arith

def modCore (s : State) (c : Fin 64) (f : DCore → DCore) : State :=
  { s with vdc := { s.vdc with cores := s.vdc.cores.set c (f s.vdc.cores[c]) } }

def modGroup (s : State) (g : Fin 8) (f : DGroup → DGroup) : State :=
  { s with vdc := { s.vdc with groups := s.vdc.groups.set g (f s.vdc.groups[g]) } }

def gOff : Nat := 0
def gWaking : Nat := 1
def gIdle : Nat := 2
def gLoading : Nat := 3
def gRunning : Nat := 4
def gSuspending : Nat := 5
def gSuspended : Nat := 6

def gstate (s : State) (g : Nat) : Nat := s.rd (R.VDC_GRP_STAT_STATE g)

/-- The group runs a kernel for the run mask: RUNNING, SUSPENDING or SUSPENDED. -/
def gruns (s : State) (g : Nat) : Bool := decide (4 ≤ s.gstate g)

/-- R44: LOADING counts as running a kernel too. -/
def gkernel (s : State) (g : Nat) : Bool := decide (3 ≤ s.gstate g)

/-- Group `g` takes a state, shown in VDC_STAT. -/
def setGrp (s : State) (g : Fin 8) (st : Nat) : State :=
  ((s.wr (R.VDC_GRP_STAT_STATE g) st).putBit R.VDC_STAT_RUNNING g (decide (4 ≤ st))).putBit R.VDC_STAT_AWAKE g
    (decide (2 ≤ st))

def groupOf (c : Fin 64) : Fin 8 := Fin.ofNat 8 (c.val / 8)

/-- The eight cores of a group. -/
def groupCores (g : Fin 8) : List (Fin 64) := (List.range 8).map fun k => Fin.ofNat 64 (8 * g + k)

/-- The cores of a group that its run mask names. -/
def maskCores (s : State) (g : Fin 8) : List (Fin 64) :=
  ((List.range 8).filter (s.rd (R.VDC_GRP_STAT_MASK g)).testBit).map fun k => Fin.ofNat 64 (8 * g + k)

/-! ### The end of a run -/

/-- Discards the records and transfers in flight of a core (R260): a transfer may have moved some whole beats, how many
is open (log entry 19). -/
def xferMove (s : State) (c : Fin 64) (x : Xfer) (k : Nat) : State :=
  let base := if x.y then Dsp.yBase c else Dsp.xBase c
  (List.range k).foldl (fun (s : State) i =>
    let l := base + (x.loc + i) % 65536
    let dram := 0x04000000 ≤ x.rem
    if x.toRemote then
      let b := s.sramGet l 1
      if dram then s.dramPut (x.rem + i) b else s.sramPut (x.rem + i) b
    else s.sramPut l (if dram then s.dramGet (x.rem + i) 1 else s.sramGet (x.rem + i) 1)) s

def coreDiscard (s : State) (c : Fin 64) : State :=
  let k := s.vdc.cores[c]
  let s := match k.xfer with
    | some x =>
      let (v, s) := s.free
      s.xferMove c x (min x.len (32 * (v % (x.len / 32 + 1))))
    | none => s
  s.modCore c fun k => { k with xfer := none, out := none, halted := true, waiting := none, sync := false }

/-- The run of group `g` ends in a final state of its job (R257). -/
def runEnd (s : State) (g : Fin 8) : State := (s.setGrp g gIdle).ev R.VDC_EVENT_DONE g

/-- CANCEL of a run (R260). -/
def runCancel (s : State) (g : Fin 8) : State :=
  let s := (groupCores g).foldl (fun (s : State) c => s.coreDiscard c) s
  (s.runEnd g).jobCancelled (s.rd (R.VDC_GRP_JOB_HANDLE g))

/-- A core faults (R286): the first fault is recorded and logged, and the run ends. -/
def coreFault (s : State) (c : Fin 64) (code : Nat) : State :=
  let g := groupOf c
  let pc := s.vdc.cores[c].pc
  let s := s.modCore c fun k => { k with fault := code }
  let s := if s.on (R.VDC_GRP_FAULT_VALID g) then s
    else ((((s.put (R.VDC_GRP_FAULT_VALID g) true).wr (R.VDC_GRP_FAULT_CORE g) (c.val % 8)).wr (R.VDC_GRP_FAULT_CODE g)
      code).wr (R.VDC_GRP_FAULT_PC g) pc)
  let s := (groupCores g).foldl (fun (s : State) c => s.coreDiscard c) s
  let job := s.rd (R.VDC_GRP_JOB_HANDLE g)
  let s := (s.log 15 3 0x0071 (0x8000 + c.val % 8 * 4096 + code * 256) [job]).ev R.VDC_EVENT_FAULT g
  (s.runEnd g).jobFailed job E_DSP_FAULT (c.val % 8 * 4096 + code)

/-- The next PC behind a loop body and the loop stack (R267); none past 4,095. -/
def advance (pc : Nat) : List DLoop → Option (Nat × List DLoop)
  | [] => if pc < 4095 then some (pc + 1, []) else none
  | l :: r =>
    if l.last != pc then (if pc < 4095 then some (pc + 1, l :: r) else none)
    else if 1 < l.count then some (l.first, { l with count := l.count - 1 } :: r)
    else advance pc r

/-- A core goes on behind the instruction at its PC. -/
def coreNext (s : State) (c : Fin 64) : State :=
  match advance s.vdc.cores[c].pc s.vdc.cores[c].loops with
  | some (pc, l) => s.modCore c fun k => { k with pc := pc, loops := l }
  | none => s.coreFault c 5

/-- Every core of the run mask has reached SYNC or halted: those that wait go on (R267). -/
def syncCheck (s : State) (g : Fin 8) : State :=
  let l := s.maskCores g
  if l.all (fun c => s.vdc.cores[c].halted || s.vdc.cores[c].sync) then
    (l.filter fun c => s.vdc.cores[c].sync).foldl (fun (s : State) c =>
      if s.gruns g then (s.modCore c fun k => { k with sync := false }).coreNext c else s) s
  else s

/-- A run is DONE when every core of its mask has halted, and SUSPENDED when every one waits or has halted (R257). -/
def groupCheck (s : State) (g : Fin 8) : State :=
  let s := s.syncCheck g
  let l := s.maskCores g
  if !(s.gstate g = gRunning || s.gstate g = gSuspending) then s
  else if l.all (fun c => s.vdc.cores[c].halted) then (s.runEnd g).jobDone (s.rd (R.VDC_GRP_JOB_HANDLE g))
  else if s.gstate g = gSuspending && l.all (fun c => s.vdc.cores[c].halted || s.vdc.cores[c].waiting.isSome) then
    (s.setGrp g gSuspended).jobSuspended (s.rd (R.VDC_GRP_JOB_HANDLE g))
  else s

/-! ### Bindings (R275 to R277) -/

def bindCore (s : State) (i : Nat) : Fin 64 := Fin.ofNat 64 (s.rd (R.VDC_BIND_CORE i))

/-- The enabled binding of a channel of a core. -/
def bindOf (s : State) (c : Fin 64) (ch : Nat) : Option Nat :=
  (List.range 64).find? fun i => s.on (R.VDC_BIND_EN i) && s.bindCore i == c && s.rd (R.VDC_BIND_CHAN i) == ch

/-- Bytes used in the ring of a channel. -/
def ringUsed (s : State) (c : Fin 64) (ch : Fin 4) : Nat :=
  let k := s.vdc.cores[c]
  match s.bindOf c ch with
  | some i =>
    let z := s.rd (R.VDC_BIND_SIZE i)
    ((((k.iwp[ch]).toNat : Int) - (k.irp[ch]).toNat) % z).toNat
  | none => 0

/-- Some masked channel holds an item. -/
def anyInput (s : State) (c : Fin 64) (mask : Nat) : Bool :=
  (List.finRange 4).any fun ch => mask.testBit ch && decide (0 < s.ringUsed c ch)

/-- A waiting core goes on when its group runs and a masked channel holds an item (R279). -/
def waitCheck (s : State) (c : Fin 64) : State :=
  match s.vdc.cores[c].waiting with
  | some m =>
    if s.gstate (groupOf c) = gRunning && s.anyInput c m then
      (s.modCore c fun k => { k with waiting := none }).coreNext c
    else s
  | none => s

/-- The payload of an item for binding `i`, with POINT; none where the binding does not take it (R275). -/
def bindPayload (s : State) (i : Nat) (v : VItem) : Option (List Nat × Nat) :=
  let e := s.rd (R.VDC_BIND_ENTRY i)
  if !s.on (R.VDC_BIND_EN i) || s.rd (R.VDC_BIND_SRC i) != v.src || s.rd (R.VDC_BIND_PORT i) != v.port then none
  else
    match v.frame with
    | some f =>
      if s.rd (R.VDC_BIND_PROFILE i) != v.prof || s.rd (R.VDC_BIND_KIND i) != v.kind then none
      else if e = 0xFFF then some ((frameWords f).drop 8, (f.runs.head?.map FRun.point).getD 0)
      else
        match f.runs.filter fun r => r.entry == e with
        | [] => none
        | r :: l => some ((r :: l).flatMap fun r => r.vals.map Prod.fst, r.point)
    | none =>
      if v.src = 1 then (if e = 0xFFF || e = v.entry then some (v.words, 0) else none) else some (v.words, 0)

/-- A whole item (R276): descriptor, payload and padding. -/
def itemBytes (v : VItem) (i missed point : Nat) (pay : List Nat) : List Nat :=
  let pad := (8 - pay.length % 8) % 8
  let len := 32 + 4 * (pay.length + pad)
  let (hd, num, gen) := match v.frame with
    | some f => (slice ((frameWords f).getD 2 0) 24 5, f.frame, f.gen % 65536)
    | none => (0, v.words.getD (if v.src = 1 then 11 else 5) 0, 0)
  bytesOfWords ([v.stamp % 2 ^ 32, v.stamp / 2 ^ 32,
    v.src * 2 ^ 30 + i * 2 ^ 24 + v.prof * 2 ^ 20 + v.port * 2 ^ 18 + v.kind * 2 ^ 16 + missed,
    hd * 2 ^ 27 + pay.length, point, num, gen, len] ++ pay ++ List.replicate pad 0)

/-- Writes bytes into a ring of X memory of core `c` from address `a`, wrapping from its end to BASE. -/
def ringPutBytes (s : State) (c : Fin 64) (base size a : Nat) (l : List Nat) : State :=
  let n := base + size - a
  (s.sramPut (Dsp.xBase c + a) (l.take n)).sramPut (Dsp.xBase c + base) (l.drop n)

/-- Binding `i` delivers the item, or drops it (R277). -/
def bindDeliver (s : State) (v : VItem) (i : Fin 64) : State :=
  match s.bindPayload i v with
  | none => s
  | some (pay, point) =>
    let c := s.bindCore i
    let g := groupOf c
    if !s.gruns g || !(s.rd (R.VDC_GRP_STAT_MASK g)).testBit (c.val % 8) || s.vdc.cores[c].halted then s
    else
      let ch : Fin 4 := Fin.ofNat 4 (s.rd (R.VDC_BIND_CHAN i))
      let base := s.rd (R.VDC_BIND_BASE i)
      let size := s.rd (R.VDC_BIND_SIZE i)
      let bytes := itemBytes v i (s.vdc.missed[i]) point pay
      if size - 32 - s.ringUsed c ch < bytes.length then
        let s := { s with vdc := { s.vdc with missed := s.vdc.missed.set i (satNat 16 (s.vdc.missed[i] + 1)) } }
        (s.count (R.VDC_BIND_DROPPED i)).ev R.VDC_EVENT_DROP g
      else
        let w := (s.vdc.cores[c].iwp[ch]).toNat
        let s := s.ringPutBytes c base size w bytes
        let s := { s with vdc := { s.vdc with missed := s.vdc.missed.set i 0 } }
        let s := s.modCore c fun k =>
          { k with iwp := k.iwp.set ch (BitVec.ofNat 16 (base + (w - base + bytes.length) % size))
                   items := k.items.set ch (k.items[ch] ++ [(bytes.length, v.stamp)]) }
        (s.waitCheck c).groupCheck g

/-- The VDC reads the next item and every binding that takes it delivers it (R275, R277). -/
def itemDeliver (s : State) : State :=
  match s.vdcIn with
  | [] => s
  | v :: r => (List.finRange 64).foldl (fun (s : State) i => s.bindDeliver v i) { s with vdcIn := r }

/-- IRP passes `d` bytes of items: what is left in the ring, and the stamp of the last item passed (R280). -/
def passItems : List (Nat × Nat) → Nat → Nat → List (Nat × Nat) × Nat
  | [], _, last => ([], last)
  | (n, t) :: r, d, last => if n ≤ d then passItems r (d - n) t else ((n - d, t) :: r, last)

/-- A write of IRP of a channel (R277). -/
def irpWrite (s : State) (c : Fin 64) (ch : Fin 4) (v : Nat) : State :=
  match s.bindOf c ch with
  | none => s.modCore c fun k => { k with irp := k.irp.set ch (BitVec.ofNat 16 v) }
  | some i =>
    let base := s.rd (R.VDC_BIND_BASE i)
    let size := s.rd (R.VDC_BIND_SIZE i)
    let off := (((v % 65536 : Nat) : Int) - base) % size |>.toNat
    let new := base + off / 32 * 32
    let old := (s.vdc.cores[c].irp[ch]).toNat
    let (l, t) := passItems (s.vdc.cores[c].items[ch]) (((new : Int) - old) % size).toNat s.vdc.cores[c].itemStamp
    s.modCore c fun k => { k with irp := k.irp.set ch (BitVec.ofNat 16 new), items := k.items.set ch l, itemStamp := t }

/-! ### Group commands (R256, R257) -/

/-- Nothing of a group is left while its domain is off. -/
def groupClear (s : State) (g : Fin 8) : State :=
  let s := s.dropRegs fun off => decide (0x204000 + 0x200 * g.val ≤ off) && decide (off < 0x204200 + 0x200 * g.val)
  let s := { s with sram := Mem.drop s.sram (Dsp.xBase (8 * g.val)) (Dsp.xBase (8 * g.val + 8)) }
  (groupCores g).foldl (fun (s : State) c => s.modCore c fun _ => dcoreInit) s

/-- The hods of a wake are granted. -/
def groupWaking (s : State) (g : Fin 8) (job : Nat) : State :=
  ((s.modGroup g fun x => { x with wakeJob := job }).setGrp g gWaking).jobRuns job

/-- DSPg is powered and cleared. -/
def groupWakeDone (s : State) (g : Fin 8) : State :=
  if s.gstate g != gWaking then s
  else
    let job := s.vdc.groups[g].wakeJob
    ((((s.setDomain (dDSP g) true).groupClear g).modGroup g fun _ => dgroupInit).setGrp g gIdle).jobDone job

/-- Group-sleep of an IDLE group. -/
def groupSleep (s : State) (g : Fin 8) : State :=
  (((s.groupClear g).setDomain (dDSP g) false).setGrp g gOff).releaseHods (.group g)

/-- SUSPEND of a running job. -/
def runSuspend (s : State) (g : Fin 8) : State := (s.setGrp g gSuspending).groupCheck g

/-- 1 ms into SUSPENDING every core stops (R259). -/
def suspendTimeout (s : State) (g : Fin 8) : State :=
  if s.gstate g = gSuspending then (s.setGrp g gSuspended).jobSuspended (s.rd (R.VDC_GRP_JOB_HANDLE g)) else s

/-- RESUME: each core goes on at the instruction at which it stopped (R259). -/
def runResume (s : State) (g : Fin 8) : State :=
  let s := (s.setGrp g gRunning).jobRuns (s.rd (R.VDC_GRP_JOB_HANDLE g))
  ((s.maskCores g).foldl (fun (s : State) c => s.waitCheck c) s).groupCheck g

/-! ### Kernels (R283 to R285) -/

/-- A kernel image: sizes, entry and the bytes of its sections. -/
structure KImage where
  (psize xsize ysize entry : Nat)
  body : List Nat
  deriving DecidableEq, Repr

/-- Reads an image at a byte address: none where it fails check 4 or 5 of R284, with the number of the check. -/
def imageAt (s : State) (dram : Bool) (a : Nat) : Nat × Option KImage :=
  let get (o n : Nat) : List Nat := if dram then s.dramGet (a + o) n else s.sramGet (0x3000000 + a + o) n
  let cap := if dram then s.capacity else 0x1000000
  let w := wordsOfBytes (get 0 32)
  let g (i : Nat) : Nat := w.getD i 0
  let p := g 2
  let x := g 3
  let y := g 4
  let bad := g 0 != 0x4B524E4C || g 1 / 65536 != 1 || p % 8 != 0 || p < 8 || 32768 < p || x % 32 != 0 || 65536 < x
    || y % 32 != 0 || 65536 < y || p / 8 ≤ g 5 % 4096 || g 6 != 0 || cap < a + 32 + p + x + y
  if bad then (4, none)
  else
    let body := get 32 (p + x + y)
    if crc32 (get 0 28 ++ body) != g 7 then (5, none)
    else (0, some { psize := p, xsize := x, ysize := y, entry := g 5 % 4096, body := body })

/-- The checks of R284: the status and the check that fails. -/
def loadCheck (s : State) (g : Fin 8) (mask : Nat) (dram : Bool) (a : Nat) : Nat × Nat × Option KImage :=
  if s.gstate g != gIdle then (E_STATE, 1, none)
  else if mask = 0 then (E_PARAM, 2, none)
  else if dram && s.degraded then (E_DRAM, 3, none)
  else
    match s.imageAt dram a with
    | (_, some i) => (OK, 0, some i)
    | (k, none) => (E_DSP_IMAGE, k, none)

/-- Writes an image into a core: each section from address 0 of its memory, zeros beyond. -/
def coreLoad (s : State) (c : Fin 64) (i : KImage) : State :=
  let s := { s with sram := Mem.drop s.sram (Dsp.xBase c) (Dsp.xBase c + 0x40000) }
  let s := s.sramPut (Dsp.pBase c) (i.body.take i.psize)
  let s := s.sramPut (Dsp.xBase c) ((i.body.drop i.psize).take i.xsize)
  let s := s.sramPut (Dsp.yBase c) ((i.body.drop (i.psize + i.xsize)).take i.ysize)
  s.modCore c fun k => { k with entry := i.entry, fault := 0 }

/-- A kernel load that has passed its checks. -/
def loadBegin (s : State) (g : Fin 8) (mask : Nat) (i : KImage) (p : Packet) : State :=
  let s := ((List.range 8).filter mask.testBit).foldl (fun (s : State) k => s.coreLoad (Fin.ofNat 64 (8 * g + k)) i) s
  (s.setGrp g gLoading).modGroup g fun x => { x with load := some p }

/-- The image is written to every core of the mask: the command has its reply (R257). -/
def loadDone (s : State) (g : Fin 8) : State :=
  if s.gstate g != gLoading then s
  else
    let p := s.vdc.groups[g].load
    let s := (s.setGrp g gIdle).modGroup g fun x => { x with load := none }
    match p with
    | some p => s.reply p OK 0
    | none => s

/-- A binding that R285 refuses. -/
def bindBad (s : State) (i : Nat) : Bool :=
  let src := s.rd (R.VDC_BIND_SRC i)
  let base := s.rd (R.VDC_BIND_BASE i)
  let size := s.rd (R.VDC_BIND_SIZE i)
  let dest := if src = 0 then s.bit (R.FDC_CTRL_CONSUMERS (s.rd (R.VDC_BIND_PORT i))) 1
    else if src = 1 then s.bit R.EVE_CTRL_RSTREAM 3 else s.bit R.RRX_CTRL_DEST 1
  src == 3 || decide (65536 < base + size) || base % 32 != 0 || decide (size < 1024) || decide (65536 < size)
    || size % 32 != 0 || !dest
    || (List.range 64).any fun j =>
      j != i && s.on (R.VDC_BIND_EN j) && s.rd (R.VDC_BIND_CORE j) == s.rd (R.VDC_BIND_CORE i)
        && s.rd (R.VDC_BIND_CHAN j) == s.rd (R.VDC_BIND_CHAN i)

/-- The checks of R285: the status and the detail. -/
def runCheck (s : State) (g : Fin 8) (mask : Nat) : Nat × Nat :=
  if s.gstate g != gIdle then (E_STATE, 4096)
  else if mask = 0 then (E_PARAM, 2 * 4096)
  else
    match (List.range 64).find? fun i =>
      s.on (R.VDC_BIND_EN i) && s.rd (R.VDC_BIND_CORE i) / 8 == g.val
        && mask.testBit (s.rd (R.VDC_BIND_CORE i) % 8) && s.bindBad i with
    | some i => (E_DSP_BIND, 3 * 4096 + i)
    | none => (OK, 0)

/-- A core starts at its ENTRY with the registers of R262 and its rings empty (R277). -/
def coreStart (s : State) (c : Fin 64) : State :=
  let bases : Vector (BitVec 16) 4 := Vector.ofFn fun (ch : Fin 4) =>
    match s.bindOf c ch with
    | some i => BitVec.ofNat 16 (s.rd (R.VDC_BIND_BASE i))
    | none => 0#16
  let s := (s.wr (R.VDC_CORE_CYCLES_COUNT c) 0).wr (R.VDC_CORE_STALLS_COUNT c) 0
  s.modCore c fun k =>
    { dcoreInit with pc := k.entry, entry := k.entry, halted := false, ran := true, iwp := bases, irp := bases }

/-- A kernel run that has passed its checks. -/
def runBegin (s : State) (g : Fin 8) (mask job : Nat) : State :=
  let s := (s.wr (R.VDC_GRP_STAT_MASK g) mask).wr (R.VDC_GRP_JOB_HANDLE g) job
  ((s.maskCores g).foldl (fun (s : State) c => s.coreStart c) s).setGrp g gRunning

/-! ### One instruction -/

/-- The core issues instructions now. -/
def coreIssues (s : State) (c : Fin 64) : Bool :=
  let k := s.vdc.cores[c]
  let st := s.gstate (groupOf c)
  (st == gRunning || st == gSuspending) && !k.halted && k.waiting.isNone && !k.sync && k.out.isNone

/-- The instruction word at the PC. -/
def coreWord (s : State) (c : Fin 64) : Nat := s.sramWord (Dsp.pBase c + 8 * s.vdc.cores[c].pc) 8

/-- What the main operation of an instruction does. -/
structure Eff where
  /-- The core with the writes of the main operation. -/
  core : DCore
  /-- Where it goes: none behind the instruction, or a target. -/
  jump : Option Nat := none
  /-- It stays at its PC (HALT, SYNC, WAIT, OUT). -/
  stay : Bool := false
  fault : Option Nat := none
  cycles : Nat := 1
  /-- The accumulator it reads without a bypass, and the one it writes (R266). -/
  acc : Option Nat := none
  accW : Option Nat := none
  /-- A store of the main operation: BAR2 offset and bytes. -/
  store : Option (Nat × List Nat) := none

/-- The effective address of a slot. -/
def moveAddr (k : DCore) (y : Bool) (m : Dsp.Move) : Nat :=
  (k.p[(Fin.ofNat 8 (m.ptr + if y then 4 else 0))]).toNat

/-- A slot makes an access at an address that is not a multiple of its size (R264). -/
def moveBad (k : DCore) (y : Bool) (m : Dsp.Move) : Bool := m.op != 0 && moveAddr k y m % Dsp.moveSize m != 0

/-- The store of a slot, from the registers before the instruction. -/
def moveStore (s : State) (c : Fin 64) (k : DCore) (y : Bool) (m : Dsp.Move) : State :=
  let a := (if y then Dsp.yBase c else Dsp.xBase c) + moveAddr k y m
  if m.op = 2 then s.sramPut a (Dsp.bytesOf (Dsp.vreg k m.reg))
  else if m.op = 4 then s.sramPut a (leBytes 4 (Dsp.sreg k m.reg).toNat)
  else s

/-- The load of a slot into a core, from the memory `s` before the instruction, with the update of its pointer. -/
def moveLoad (s : State) (c : Fin 64) (k : DCore) (y : Bool) (m : Dsp.Move) (d : DCore) : DCore :=
  let a := (if y then Dsp.yBase c else Dsp.xBase c) + moveAddr k y m
  let d := if m.op = 1 then Dsp.setV d m.reg (Dsp.lanesOf (s.sramGet a 32))
    else if m.op = 3 then Dsp.setS d m.reg (BitVec.ofNat 32 (s.sramWord a 4))
    else d
  let i := m.ptr + if y then 4 else 0
  if m.op = 0 || m.upd = 0 then d
  else { d with p := d.p.set (Fin.ofNat 8 i) ((Dsp.stepPointer k i m.upd (Dsp.moveSize m)).p[(Fin.ofNat 8 i)]) }

/-- Cycles for which the instruction stalls for an accumulator (R266). -/
def stallOf (k : DCore) (e : Eff) : Nat :=
  match e.acc with
  | some a => k.ready[(Fin.ofNat 4 a)] - k.cycle
  | none => 0

/-- The accesses of an instruction for which another engine may take the cycle (R278, R282): to X while an item waits to
be delivered, to the memory of the core's transfer in flight. -/
def contended (s : State) (c : Fin 64) (mx my : Dsp.Move) (e : Eff) : Nat :=
  let x := mx.op != 0 || e.store.any fun w => decide (w.1 < Dsp.yBase c)
  let y := my.op != 0 || e.store.any fun w => decide (Dsp.yBase c ≤ w.1)
  let t (b : Bool) : Bool := s.vdc.cores[c].xfer.any fun f => f.y == b
  ofBool (x && (!s.vdcIn.isEmpty || t false)) + ofBool (y && t true)

/-- The cycles an instruction stalls: for an accumulator, and at most one for each contended access; whether one falls
in the cycle that the other engine takes is open (log entry 83). -/
def stallsOf (s : State) (c : Fin 64) (mx my : Dsp.Move) (e : Eff) : Nat × State :=
  let n := s.contended c mx my e
  if n = 0 then (stallOf s.vdc.cores[c] e, s)
  else
    let (v, s) := s.free
    (stallOf s.vdc.cores[c] e + v % (n + 1), s)

/-- A core has waited with an instruction held back: a number of stalled cycles that is open (log entry 83). -/
def stallOpen (s : State) (c : Fin 64) : State :=
  let (v, s) := s.free
  (s.count (R.VDC_CORE_STALLS_COUNT c) v).modCore c fun k => { k with cycle := k.cycle + v }

/-- The cycle counts behind an instruction. -/
def countCycles (k d : DCore) (e : Eff) (stalls : Nat) : DCore :=
  let last := k.cycle + stalls + e.cycles
  { d with cycle := last
           ready := match e.accW with
             | some a => k.ready.set (Fin.ofNat 4 a) (last + 2)
             | none => k.ready }

/-- Writes the results of the instruction `w` whose main operation is `e` (R266). -/
def coreWrite (s : State) (c : Fin 64) (w : Nat) (e : Eff) : State :=
  let k := s.vdc.cores[c]
  let long := Dsp.cls w == 5
  let none_ : Dsp.Move := { op := 0, ptr := 0, reg := 0, upd := 0, rsv := 0 }
  let mx := if long then none_ else Dsp.moveX w
  let my := if long then none_ else Dsp.moveY w
  if moveBad k false mx || moveBad k true my then s.coreFault c 2
  else
    match e.fault with
    | some f => s.coreFault c f
    | none =>
      let d := s.moveLoad c k true my (s.moveLoad c k false mx e.core)
      let t := match e.store with
        | some (a, l) => s.sramPut a l
        | none => s
      let t := (t.moveStore c k false mx).moveStore c k true my
      let (n, t) := t.stallsOf c mx my e
      let t := (t.count (R.VDC_CORE_CYCLES_COUNT c) e.cycles).count (R.VDC_CORE_STALLS_COUNT c) n
      let t := t.modCore c fun _ => countCycles k d e n
      if e.stay then t
      else
        match e.jump with
        | some pc => if pc < 4096 then t.modCore c fun k => { k with pc := pc } else t.coreFault c 5
        | none => t.coreNext c

/-- Runs the instruction at the PC of core `c` if the core issues it and it is op `o` of class `q`: the writes of `eff`,
then what `post` does beside the core, then the group's state. -/
def coreOp (s : State) (c : Fin 64) (q o : Nat) (eff : DCore → Nat → Eff) (post : DCore → Nat → State → State) : State :=
  let w := s.coreWord c
  if s.coreIssues c && Dsp.isOp w q o then
    let k := s.vdc.cores[c]
    let t := s.coreWrite c w (eff k w)
    let t := if t.vdc.cores[c].fault = 0 then post k w t else t
    t.groupCheck (groupOf c)
  else s

/-- An instruction whose class, op or move slot is not listed (R265). -/
def illegal (s : State) (c : Fin 64) : State :=
  if s.coreIssues c && !Dsp.legal (s.coreWord c) then s.coreFault c 1 else s

/-! ### OUT and XFER -/

/-- Bytes in the output queue of a group: records with their headers of R328. -/
def outLevel (s : State) (g : Nat) : Nat :=
  (((s.streams[(5 : Fin 7)]).queue.filter fun r => r.lane == g).map fun r => r.body.length).sum

def showOutq (s : State) (g : Nat) : State := s.wr (R.VDC_GRP_OUTQ_LEVEL g) (s.outLevel g)

/-- The output queue of group `g` has no room for a record of `n` bytes and its header. -/
def outFull (s : State) (g n : Nat) : Bool := decide (16384 < s.outLevel g + 16 + n)

/-- The OUT that a core has just issued waits when the queue has no room, or the engine holds another core's record. -/
def outIssue (s : State) (c : Fin 64) : State :=
  let g := groupOf c
  match s.vdc.cores[c].out with
  | none => s
  | some o =>
    let late := s.outFull g o.len || (groupCores g).any fun i => i != c && s.vdc.cores[i].out.isSome
    s.modCore c fun k => { k with out := some { o with late := late } }

/-- An OUT record finds room in the 16 KB output queue, and the core goes on (R280). -/
def outComplete (s : State) (c : Fin 64) : State :=
  let g := groupOf c
  let k := s.vdc.cores[c]
  match k.out with
  | none => s
  | some o =>
    if !(s.gstate g = gRunning || s.gstate g = gSuspending) || s.outFull g o.len then s
    else
      let body := leBytes 8 k.itemStamp ++ leBytes 4 (o.tag * 65536 + c.val) ++ leBytes 4 o.len
        ++ (List.range o.len).flatMap fun i => s.sramGet (Dsp.yBase c + (o.addr + i) % 65536) 1
      let s := s.offer 5 { port := 0, rtype := 1, stamp := s.now, body := body, lane := g, slot := 0 }
      let s := if o.late then s.stallOpen c else s
      (((s.showOutq g).modCore c fun k => { k with out := none }).coreNext c).groupCheck g

/-- The remote range lies in the VDC area of the shared buffer SRAM or of DRAM (R282, R333, R338). -/
def xferRange (rem len : Nat) : Bool :=
  (decide (0x03FC0000 ≤ rem) && decide (rem + len ≤ 0x03FF0000))
    || (decide (0x19000000 ≤ rem) && decide (rem + len ≤ 0x21000000))

/-- The transfer of a core is over: an XFER that it held back has stalled so far (R282). -/
def xferEnd (s : State) (c : Fin 64) : State :=
  let w := s.coreWord c
  let held := s.coreIssues c && (Dsp.isOp w 6 3 || Dsp.isOp w 6 4)
  let s := s.modCore c fun k => { k with xfer := none }
  if held then s.stallOpen c else s

/-- A transfer completes (R282); one to or from DRAM waits out an outage (R343). -/
def xferDone (s : State) (c : Fin 64) : State :=
  match s.vdc.cores[c].xfer with
  | none => s
  | some x =>
    let dram := decide (0x04000000 ≤ x.rem)
    if dram && s.degraded then (s.xferEnd c).modCore c fun k => { k with xerr := true }
    else if dram && (!s.dramUp || s.memc.outage) then s
    else (s.xferMove c x x.len).xferEnd c

end Sys2Proof.Machine.State

namespace Sys2Proof.Machine
open Sys2Proof

def execGroupWakeDone (g : Fin 8) (s : State) : Out := .next (s.groupWakeDone g)
def execKernelLoadDone (g : Fin 8) (s : State) : Out := .next (s.loadDone g)
def execSuspendTimeout (g : Fin 8) (s : State) : Out := .next (s.suspendTimeout g)
def execVdcItemDeliver (s : State) : Out := .next s.itemDeliver
def execXferDone (c : Fin 64) (s : State) : Out := .next (s.xferDone c)
def execOutComplete (c : Fin 64) (s : State) : Out := .next (s.outComplete c)
def execIllegalInstruction (c : Fin 64) (s : State) : Out := .next (s.illegal c)

end Sys2Proof.Machine
end

