-- ==== Sys2Proof/Machine/Acq.lean ====
section
/-! DEFINITION. ACQ: arming (R291, R292, R295), the history and its memory (R293, R294), completion and release (R303 to
R308), jobs (R309), and the registers of the sequencer (R296 to R299). -/

namespace Sys2Proof.Machine.State
open Sys2Proof Arith

/-! ### Arming -/

/-- Bytes of acquisition SRAM, and its BAR2 offset (R43). -/
def acqSram : Nat := 0x01000000
def acqBase : Nat := 0x02000000

/-- U of channel `k` (R291): 0 for RAW. -/
def chUsize (s : State) (k : Fin 4) : Nat :=
  let n := s.chPort k
  let src := s.rd (R.ACQ_CH_CFG0_SRC k)
  if src = 1 then 32 + 4 * ((List.range 64).map fun r => s.rd (R.CPL_LEN_LEN n r)).foldl max 0
  else if src = 2 then
    let z := (zapply (zenabled s.zon.active) n (s.route n)).filter fun e => e.filt == s.rd (R.ACQ_CH_CFG0_PROFILE k)
    32 + 8 * z.length + 4 * (z.map ZEntry.count).sum
  else 0

/-- The stride of a slot (R292). -/
def chStride (s : State) (k : Fin 4) : Nat :=
  let seg := s.rd (R.ACQ_CH_SEG_UNITS k)
  let b := if s.rd (R.ACQ_CH_CFG0_SRC k) = 0 then 6 * seg + (if s.on (R.ACQ_CH_CFG0_MEM k) then seg / 16 else 0)
    else seg * s.chUsize k
  ceilDiv b 64 * 64

/-- Start and end of the region of channel `k`, in bytes of its memory. -/
def chRegion (s : State) (k : Fin 4) : Nat × Nat :=
  (s.rd (R.ACQ_CH_BASE_VALUE k) * 4096, (s.rd (R.ACQ_CH_BASE_VALUE k) + s.rd (R.ACQ_CH_SIZE_VALUE k)) * 4096)

/-- The arm checks (R295): status and number of the first that fails. -/
def armCheck (s : State) (k : Fin 4) : Nat × Nat :=
  let src := s.rd (R.ACQ_CH_CFG0_SRC k)
  let n := s.rd (R.ACQ_CH_CFG0_PORT k)
  let seg := s.rd (R.ACQ_CH_SEG_UNITS k)
  let post := s.rd (R.ACQ_CH_POST_UNITS k)
  let nseg := s.rd (R.ACQ_CH_COUNT_NSEG k)
  let mem := s.on (R.ACQ_CH_CFG0_MEM k)
  let (lo, hi) := s.chRegion k
  if s.cstate k != cIdle then (E_STATE, 1)
  else if src = 3 || (src = 2 && (!s.on (R.FDC_PROF_CFG0_EN n (s.rd (R.ACQ_CH_CFG0_PROFILE k)))
      || !s.bit (R.FDC_CTRL_CONSUMERS n) 2)) then (E_PARAM, 2)
  else if mem && s.degraded then (E_DRAM, 3)
  else if seg = 0 || post = 0 || seg < post || (src = 0 && (seg % 32 != 0 || post % 32 != 0)) then (E_ACQ_SIZE, 4)
  else if nseg = 0 || 256 < nseg || hi - lo < nseg * s.chStride k
      || (if mem then s.capacity - acqArea else acqSram) < hi then (E_ACQ_SIZE, 5)
  else if (List.finRange 4).any fun j =>
      j != k && s.cstate j != cIdle && s.on (R.ACQ_CH_CFG0_MEM j) == mem
        && decide ((s.chRegion j).1 < hi) && decide (lo < (s.chRegion j).2) then (E_PARAM, 6)
  else (OK, 0)

/-- Arms channel `k` for the job `job`; the answer is the status and the check (R295, R300). -/
def arm (s : State) (k : Fin 4) (job : Nat) : State × Nat × Nat :=
  let (st, c) := s.armCheck k
  let s := if c = 0 then s.wr (R.ACQ_CH_CHECK_CHECK k) 0
    else (s.wr (R.ACQ_CH_CHECK_CHECK k) c).wr (R.ACQ_CH_CHECK_STATUS k) st
  if c != 0 then (s, st, c)
  else
    let dir := 8 * (0x250000 + 0x4000 * k.val)
    let s := { s with regs := Bank.drop s.regs fun key => decide (dir ≤ key) && decide (key < dir + 8 * 0x4000) }
    let s := ((s.wr (R.ACQ_CH_STRIDE_VALUE k) (s.chStride k)).wr (R.ACQ_CH_JOB_VALUE k) job).wr (R.ACQ_CH_SEGS_COUNT k) 0
    let s := (s.wr (R.ACQ_CH_STAT_JOB k) 1).putBit R.ACQ_STAT_ARMED k true
    let s := s.modCh k fun _ => { chanInit with usize := s.chUsize k }
    (s.chFill k 0, OK, 0)

/-! ### The history -/

/-- Writes bytes of channel `k` into a ring of `n` bytes that stands `b` bytes from the start of its slot, from byte `o`
of the ring. The flag words of a RAW slot in DRAM are a ring behind that of the samples (DESIGN CHOICE, log entry 85). -/
def slotRing (s : State) (k : Fin 4) (slot b n o : Nat) (l : List Nat) : State :=
  let a := (s.chRegion k).1 + slot * s.rd (R.ACQ_CH_STRIDE_VALUE k) + b
  let put (s : State) (x : Nat) (l : List Nat) : State :=
    if s.on (R.ACQ_CH_CFG0_MEM k) then s.dramPut (acqArea + a + x) l else s.sramPut (acqBase + a + x) l
  put (put s o (l.take (n - o))) 0 (l.drop (n - o))

/-- The write buffers of the channels hold at most these bytes by now, as MEM has taken data from them (R294). -/
def bufferDrain (s : State) (l : Vector Nat 4) : State :=
  ((List.finRange 4).foldl (fun (s : State) (k : Fin 4) =>
    s.modCh k fun c => { c with buffer := min c.buffer l[k] }) s).showPanic

/-- A unit or raw block of `size` bytes, known by `mark`, comes to the write buffer of a DRAM channel that holds `level`
bytes: it is dropped whole when it finds no room (R294). -/
def bufferTake (s : State) (k : Fin 4) (level size mark : Nat) : State × Bool :=
  if !s.on (R.ACQ_CH_CFG0_MEM k) then (s, true)
  else if 65536 < level + size then
    (((s.modCh k fun c => { c with buffer := level, drops := c.drops ++ [mark] }).ev R.ACQ_EVENT_OVERRUN k).showPanic,
      false)
  else ((s.modCh k fun c => { c with buffer := level + size }).showPanic, true)

/-- PRE units have been stored since fill start (R300). -/
def preFilled (s : State) (k : Fin 4) : State :=
  let n := if s.rd (R.ACQ_CH_CFG0_SRC k) = 0 then s.tbu.raw - s.acq.ch[k].fillRaw else s.acq.ch[k].filled
  if s.cstate k = cFilling && s.chPre k ≤ n then s.setCstate k cReady else s

/-- Units with an uncorrectable error read as dropped (R351): they are absent, and the segment carries OVERRUN. -/
def dropUnits (g : Segment) (bad : List Nat) : Segment :=
  let keep := (g.units.zip (List.range g.units.length)).filter fun e => !bad.contains e.2
  let pre := (keep.filter fun e => decide (e.2 < g.pre)).length
  if keep.length = g.units.length then g
  else { g with units := keep.map Prod.fst, pre := pre, post := keep.length - pre, flags := g.flags ||| 8 }

/-- Memory number of the channel's slots in MEM_ERR_INFO. -/
def chMem (s : State) (k : Fin 4) : Nat := if s.on (R.ACQ_CH_CFG0_MEM k) then 4 else 1

/-- The channel writes history. -/
def chWrites (s : State) (k : Fin 4) : Bool :=
  let st := s.cstate k
  st == cFilling || st == cReady || st == cPost

/-- The latest a link word reaches the channel behind its tick (R127, R303). -/
def chLatency (s : State) (k : Fin 4) : Nat :=
  48 + ((List.range 4).map fun l => s.rd (R.CDG_LANE_CFG_DLY (s.chPort k) l)).foldl max 0

/-- The raw block of 32 ticks that has last come in whole comes to the write buffer of a DRAM channel, with its flag word
(R291, R294). -/
def blockStore (s : State) (k : Fin 4) (level : Nat) : State :=
  let c := s.acq.ch[k]
  let n := (s.tbu.raw + 1 - s.chLatency k - c.fillRaw) / 32
  if s.chWrites k && n != 0 then (s.bufferTake k level 194 (c.fillRaw + 32 * (n - 1))).1 else s

/-- A byte of the slot of channel `k` lies at this address of its memory. -/
def chAddr (s : State) (k : Fin 4) (slot o : Nat) : Nat :=
  (if s.on (R.ACQ_CH_CFG0_MEM k) then acqArea else 0) + (s.chRegion k).1 + slot * s.rd (R.ACQ_CH_STRIDE_VALUE k) + o

/-- The next course or frame unit of channel `k` is stored, with the write buffer at `level` bytes; `ecc` is what the
memory shows when a segment that this completes is read (R300 to R303). -/
def unitStore (s : State) (k : Fin 4) (level : Nat) (ecc : Ecc) : State :=
  match s.acq.ch[k].inq with
  | [] => if s.rd (R.ACQ_CH_CFG0_SRC k) = 0 then s.blockStore k level else s
  | u :: r =>
    let s := s.modCh k fun c => { c with inq := r }
    if !s.chWrites k then s
    else
      let (s, fits) := s.bufferTake k level s.acq.ch[k].usize u.stamp
      if !fits then s
      else
        let c := s.acq.ch[k]
        let stride := s.rd (R.ACQ_CH_STRIDE_VALUE k)
        let size := c.usize
        let seg := s.rd (R.ACQ_CH_SEG_UNITS k)
        let s := s.slotRing k (s.rd (R.ACQ_CH_STAT_SLOT k)) 0 stride (size * c.filled % max 1 stride)
          (u.bytes ++ List.replicate (size - u.bytes.length) 0)
        let s := s.modCh k fun c =>
          let l := c.units ++ [u]
          let out := l.take (l.length - seg)
          { c with units := l.drop (l.length - seg), filled := c.filled + 1
                   gone := (out.getLast?.map CapUnit.stamp) <|> c.gone }
        match s.acq.ch[k].seg with
        | none => s
        | some g =>
          let g := { g with units := g.units ++ [u], need := g.need - 1 }
          if g.need = 0 then
            let s := s.eccSeen (s.chMem k) reqACQ ecc fun i =>
              s.chAddr k g.slot ((g.ofs + size * i) % max 1 stride)
            s.chCloseUnits k (dropUnits g (s.eccOf (s.chMem k) ecc).ue)
          else s.modCh k fun c => { c with seg := some g }

/-- The data of a RAW segment: samples of 6 bytes, block flag words, padded to 4 bytes (R307). -/
def rawData (xs fs : List Nat) : List Nat :=
  let b := xs.flatMap (leBytes 6) ++ fs.flatMap (leBytes 2)
  b ++ List.replicate ((4 - b.length % 4) % 4) 0

/-- The elapsed tick at which a RAW segment is complete: LAST + 48 + DLY_max, counted from FIRST (R303; log entry 84). -/
def rawEnd (s : State) (k : Fin 4) (g : Segment) : Nat := g.at_ + (g.pre + g.post - 1) + s.chLatency k

/-- The sample and the link flags of a tick in a raw block (R291): the lane codes, 0 for EMPTY, and bit 4k + f. -/
def rawUnit (l : Fin 4 → LinkWord) : Nat × Nat :=
  (List.finRange 4).foldl (fun (a : Nat × Nat) k =>
    let w := l k
    let f := ofBool w.clip + 2 * ofBool w.empty + 4 * ofBool w.test + 8 * ofBool w.unlocked
    (a.1 + 2 ^ (12 * k.val) * ofSigned 12 w.code, a.2 + 2 ^ (4 * k.val) * f)) (0, 0)

/-- The samples and block flag words of `n` blocks of units. -/
def rawBlocks (bad : Nat → Bool) (us : List (Nat × Nat)) (n : Nat) : List Nat × List Nat :=
  let block (b : Nat) : List (Nat × Nat) := (us.drop (32 * b)).take 32
  ((List.range n).flatMap fun b => (block b).map fun u => if bad b then 0 else u.1,
   (List.range n).map fun b => if bad b then 0x2222 else (block b).foldl (fun a u => a ||| u.2) 0)

/-- A RAW segment is complete: `xs` are the codes that the converters gave from 7 ticks before FIRST on. A block that was
dropped, or that shows an uncorrectable error, reads as codes 0 and EMPTY (R291, R294, R303, R351). -/
def segmentComplete (s : State) (k : Fin 4) (xs : List Codes) (ecc : Ecc) : State :=
  match s.acq.ch[k].seg with
  | none => s
  | some g =>
    if s.rd (R.ACQ_CH_CFG0_SRC k) != 0 || s.cstate k != cPost || s.tbu.raw < s.rawEnd k g then s
    else
      let n := g.pre + g.post
      let ecc := s.eccOf (s.chMem k) ecc
      let eras := s.ports[s.chPort k].eras
      let us := (List.range n).map fun i =>
        rawUnit fun l => linkWord eras l (g.at_ + i : Nat) (codeAt xs ((g.at_ : Int) - 7) l)
      let drops := s.acq.ch[k].drops
      let gone (b : Nat) : Bool := drops.any fun d =>
        decide (d < g.at_ + 32 * b + 32) && decide (g.at_ + 32 * b < d + 32)
      let (vs, fs) := rawBlocks (fun b => gone b || ecc.ue.contains b) us (n / 32)
      let any (m : Nat) : Bool := fs.any fun f => f &&& m != 0
      let lost := !ecc.ue.isEmpty || (List.range (n / 32)).any gone
      let fl := g.flags ||| (if any 0x8888 then 32 else 0) ||| (if any 0x1111 then 64 else 0)
      let size := 6 * s.rd (R.ACQ_CH_SEG_UNITS k)
      let s := s.eccSeen (s.chMem k) reqACQ ecc fun b => s.chAddr k g.slot ((g.ofs + 192 * b) % max 1 size)
      let s := s.slotRing k g.slot 0 size g.ofs (vs.flatMap (leBytes 6))
      let s := if s.on (R.ACQ_CH_CFG0_MEM k) then
          s.slotRing k g.slot size (size / 96) (g.ofs / 96) (fs.flatMap (leBytes 2))
        else s
      let g := s.segFlags { g with flags := fl, data := rawData vs fs } (s.rawEnd k g) lost
      (s.chComplete k g).chTryRelease k 64

/-- The next slot in order is free. -/
def nextFree (s : State) (k : Fin 4) : Bool := !(s.acq.ch[k].busy.contains s.acq.ch[k].next)

/-- A channel without a slot to fill goes on in its next slot, or waits for it in FULL (R300). -/
def nextSlot (s : State) (k : Fin 4) : State :=
  if s.nextFree k then s.chFill k s.acq.ch[k].next else s.setCstate k cFull

/-- The COUNT-th segment has been recorded. -/
def counted (s : State) (k : Fin 4) : Bool :=
  s.rd (R.ACQ_CH_COUNT_COUNT k) != 0 && decide (s.rd (R.ACQ_CH_COUNT_COUNT k) ≤ s.acq.ch[k].recorded)

/-- Re-arm ends (R300, R303). -/
def rearmDone (s : State) (k : Fin 4) : State :=
  if s.cstate k != cRearm then s
  else if s.counted k || s.acq.ch[k].draining then s.chCheckEnd k
  else s.nextSlot k

/-- A slot becomes free: a channel in FULL that waits for it fills it, and the job may end (R308, R309). -/
def slotFreed (s : State) (k : Fin 4) (slot : Nat) : State :=
  let s := s.modCh k fun c => { c with busy := c.busy.filter (· != slot) }
  let s := if s.cstate k = cFull && s.nextFree k then s.nextSlot k else s
  s.chCheckEnd k

/-- A write of ACQ_CHk_FREE (R308). -/
def freeWrite (s : State) (k : Fin 4) (slot : Nat) : State :=
  if slot < 256 && s.rd (R.ACQ_CH_DIR_WORD k slot 15) / 2 ^ 31 = 1 then
    (s.wr (R.ACQ_CH_DIR_WORD k slot 15) (s.rd (R.ACQ_CH_DIR_WORD k slot 15) % 2 ^ 31)).slotFreed k slot
  else s

/-! ### The job (R309) -/

/-- The job is RUNNING or SUSPENDED. -/
def chLive (s : State) (k : Fin 4) : Bool := s.rd (R.ACQ_CH_STAT_JOB k) == 1 || s.rd (R.ACQ_CH_STAT_JOB k) == 2

/-- DISARM of a live job. -/
def chDisarm (s : State) (k : Fin 4) : State :=
  if s.chLive k then (s.modCh k fun c => { c with draining := true, suspending := false }).chCheckEnd k else s

/-- SUSPEND of a running job. -/
def chSuspend (s : State) (k : Fin 4) : State :=
  let s := (s.wr (R.ACQ_CH_STAT_JOB k) 2).jobSuspended (s.rd (R.ACQ_CH_JOB_VALUE k))
  if s.cstate k = cPost then s.modCh k fun c => { c with suspending := true }
  else (s.setCstate k cSuspended).modCh k fun c => { c with units := [], inq := [] }

/-- RESUME of a suspended job. -/
def chResume (s : State) (k : Fin 4) : State :=
  let s := (s.wr (R.ACQ_CH_STAT_JOB k) 1).jobRuns (s.rd (R.ACQ_CH_JOB_VALUE k))
  if s.cstate k = cPost then s.modCh k fun c => { c with suspending := false }
  else if s.counted k then (s.setCstate k cRearm).chCheckEnd k
  else s.nextSlot k

/-- CANCEL of a live job. -/
def chCancel (s : State) (k : Fin 4) : State := s.chEnd k 4 .cancelled E_CANCELLED

/-- DRAM became DEGRADED: the jobs of DRAM channels fail. -/
def acqDegraded (s : State) : State :=
  (List.finRange 4).foldl (fun (s : State) (k : Fin 4) =>
    if s.chLive k && s.on (R.ACQ_CH_CFG0_MEM k) then s.chEnd k 5 .failed E_DRAM else s) s

/-! ### The sequencer's registers -/

/-- A write of ACQ_SWTRIG (R296). -/
def swTrig (s : State) (mask : Nat) : State :=
  let t := s.now
  s.presentNow ((s.inputsOf 6 none mask.testBit).map fun i => (i, t, 0))

/-- A running timer reaches 0 (R298). -/
def timerExpire (s : State) (t : Fin 2) : State :=
  let s := if t = 0 then
      match s.acq.tmr0 with
      | some _ => ({ s with acq := { s.acq with tmr0 := none, exp0 := s.now } } : State).put R.ACQ_SEQ_STAT_TMR0_EXP true
      | none => s
    else
      match s.acq.tmr1 with
      | some _ => ({ s with acq := { s.acq with tmr1 := none, exp1 := s.now } } : State).put R.ACQ_SEQ_STAT_TMR1_EXP true
      | none => s
  (s.seqCycle []).drainInbox 16

/-- Stops the timers: not expired. -/
def timersStop (s : State) : State :=
  (({ s with acq := { s.acq with tmr0 := none, tmr1 := none } } : State).put R.ACQ_SEQ_STAT_TMR0_EXP false).put
    R.ACQ_SEQ_STAT_TMR1_EXP false

/-- A write of ACQ_SEQ_CTRL (R299, R464). -/
def seqCtrl (s : State) (en : Bool) (start : Nat) : State :=
  let was := s.on R.ACQ_SEQ_CTRL_EN
  let s := (s.put R.ACQ_SEQ_CTRL_EN en).wr R.ACQ_SEQ_CTRL_START start
  if en && !was then
    (((s.wr R.ACQ_SEQ_STAT_STATE start).wr R.ACQ_CNT0_COUNT 0).wr R.ACQ_CNT1_COUNT 0).timersStop
  else if was && !en then { s with acq := { s.acq with tmr0 := none, tmr1 := none } }
  else s

end Sys2Proof.Machine.State

namespace Sys2Proof.Machine
open Sys2Proof

def execAcqArmWrite (k : Fin 4) (s : State) : Out :=
  .next (s.gate 0x241018 fun s => (s.arm k 0).1)
def execAcqDisarmWrite (k : Fin 4) (s : State) : Out :=
  .next (s.gate 0x241018 fun s => s.chDisarm k)
def execAcqSwtrigWrite (mask : BitVec 16) (s : State) : Out :=
  .next (s.gate 0x24000C fun s => s.swTrig mask.toNat)
def execSeqTimerExpire (t : Fin 2) (s : State) : Out := .next (s.timerExpire t)
def execSeqEnable (start : BitVec 4) (s : State) : Out :=
  .next (s.gate 0x240010 fun s => s.seqCtrl true start.toNat)
def execSeqDisable (s : State) : Out :=
  .next (s.gate 0x240010 fun s => s.seqCtrl false (s.rd R.ACQ_SEQ_CTRL_START))
def execPreFilled (k : Fin 4) (s : State) : Out := .next (s.preFilled k)
/-- `level`: bytes in the write buffer as the unit comes; `ecc`: what the slot's memory shows. -/
def execAcqUnitStore (k : Fin 4) (level : BitVec 17) (ecc : Ecc) (s : State) : Out :=
  .next (s.unitStore k level.toNat ecc)
/-- `xs`: the codes of the converters from 7 ticks before FIRST on; `ecc`: what the slot's memory shows. -/
def execSegmentComplete (k : Fin 4) (xs : List Codes) (ecc : Ecc) (s : State) : Out := .next (s.segmentComplete k xs ecc)
def execRearmDone (k : Fin 4) (s : State) : Out := .next (s.rearmDone k)
def execSegmentRelease (k : Fin 4) (s : State) : Out := .next (s.chTryRelease k 64)
def execSlotFree (k : Fin 4) (slot : BitVec 9) (s : State) : Out :=
  .next (s.gate 0x241030 fun s => s.freeWrite k slot.toNat)

end Sys2Proof.Machine
end

