-- ==== Sys2Proof/Machine/Ary.lean ====
section
/-! DEFINITION. ARY: joining (R470 to R472), time alignment (R473, R474), beats and loss (R475 to R478), arming (R479 to
R481), firing (R482 to R484) and leaving (R486). -/

namespace Sys2Proof.Machine.State
open Sys2Proof Arith

def modAry (s : State) (f : Ary → Ary) : State := { s with ary := f s.ary }

def aryOff : Nat := 0
def aryJoining : Nat := 1
def aryState (s : State) : Nat := s.rd R.ARY_STAT_STATE
def aryMaster (s : State) : Bool := s.on R.ARY_STAT_MASTER
/-- The Ethernet port of the array (R469). -/
def aryEth (s : State) : Fin 2 := Fin.ofNat 2 (s.rd R.ARY_CTRL_ETH)
def idOf (i : Nat) : Fin 4096 := Fin.ofNat 4096 i

/-! ### The datagrams -/

def tJOIN : Nat := 1
def tACCEPT : Nat := 2
def tREFUSE : Nat := 3
def tBEAT : Nat := 4
def tBEAT_ACK : Nat := 5
def tARM : Nat := 6
def tARM_ACK : Nat := 7
def tDISARM : Nat := 8
def tCANCEL : Nat := 9
def tFIRE : Nat := 10
def tLEAVE : Nat := 11
def tDISSOLVE : Nat := 12

/-- SRC_ID of a datagram. -/
def srcId (p : AryPkt) : Nat := p.head.toNat % 4096
/-- Word `i` of the body, 0 where there is none. -/
def bodyWord (p : AryPkt) (i : Nat) : Nat := ((p.body[i]?).map BitVec.toNat).getD 0

/-- The CRC word of a datagram of TYPE `typ` is that of the bytes before it. -/
def aryCrcOk (p : AryPkt) (typ : Nat) : Bool :=
  crc32 (bytesOfWords ([typ * 2 ^ 24 + p.head.toNat, p.no.toNat, p.seq.toNat, 4 * p.body.length] ++ p.body.map BitVec.toNat))
    == p.crc.toNat

/-- The address is one that this device hears: of the roster on the master, the master's on a member. -/
def aryKnows (s : State) (a : Nat) : Bool :=
  if s.aryMaster then s.ary.roster.any fun m => m.addr == a else s.ary.master == a

/-- A datagram of TYPE `typ` reaches ARY: `f` handles it, or it is discarded and counted (R469). A device that is
OFF serves none. -/
def aryTake (s : State) (typ : Nat) (p : AryPkt) (f : State → State) : State :=
  s.ethIn s.aryEth fun s =>
  if s.aryState = aryOff || !aryCrcOk p typ || p.no.toNat != s.rd R.ARY_ARRAY_NO_VALUE || p.head.toNat / 65536 != 1
      || (typ != tJOIN && !s.aryKnows p.addr) then s.count (R.HIF_ETH_DISCARD_COUNT s.aryEth)
  else f s

/-- Only the master handles it. -/
def onMaster (s : State) (f : State → State) : State := if s.aryMaster then f s else s
/-- Only a member that is JOINED or ORPHAN handles it. -/
def onMember (s : State) (f : State → State) : State :=
  if !s.aryMaster && 2 ≤ s.aryState then f s else s

/-! ### The roster -/

/-- Shows MEMBERS. -/
def showMembers (s : State) : State := s.wr R.ARY_STAT_MEMBERS s.ary.roster.length

/-- Changes the roster entry `i`. -/
def modMember (s : State) (i : Nat) (f : Member → Member) : State :=
  s.modAry fun a => { a with roster := a.roster.map fun m => if m.id == i then f m else m }

/-- Enters device `i` in the roster, in order of ID. -/
def rosterAdd (s : State) (i addr : Nat) : State :=
  let m : Member := { id := i, addr := addr, missed := 0, armAck := false }
  let s := s.modAry fun a =>
    { a with roster := a.roster.filter (fun e => decide (e.id < i)) ++ m :: a.roster.filter fun e => decide (i < e.id) }
  ((s.wr (R.ARY_MEM_STATE i) 1).showMembers)

/-- Takes device `i` out of the roster. -/
def rosterDrop (s : State) (i : Nat) : State :=
  let s := s.modAry fun a => { a with roster := a.roster.filter fun e => e.id != i }
  let s := (((s.wr (R.ARY_MEM_STATE i) 0).put (R.ARY_MEM_ARMED i) false).wr (R.ARY_MEM_TQ i) 0).wr (R.ARY_MEM_LAT_MAX i) 0
  s.showMembers

/-- Marks member `i` with a state, and its event on entry (R475): 2 LAGGING, 3 TIME_BAD, 4 LOST. -/
def memMark (s : State) (i v : Nat) : State :=
  if s.rd (R.ARY_MEM_STATE i) = v then s
  else
    let s := s.wr (R.ARY_MEM_STATE i) v
    if v = 2 then s.ev R.ARY_EVENT_MEMBER_LAG
    else if v = 3 then s.ev R.ARY_EVENT_MEMBER_TIME
    else if v = 4 then s.ev R.ARY_EVENT_MEMBER_LOST
    else s

/-- A datagram of a device that the roster holds under its ID and address: `f` gets its ID. -/
def fromMember (s : State) (p : AryPkt) (f : Nat → State) : State :=
  if s.ary.roster.any fun m => m.id == srcId p && m.addr == p.addr && m.id != s.ary.id then f (srcId p) else s

/-- What member `i` reports: TQ, whether its time condition holds, and its latency in ticks. -/
def memReport (s : State) (i tq : Nat) (ok : Bool) (lat : Nat) : State :=
  let s := (s.wr (R.ARY_MEM_TQ i) tq).wr (R.ARY_MEM_LAT_MAX i) (satNat 16 (roundDiv lat 1250).toNat)
  s.memMark i (if !ok then 3 else if s.rd R.ARY_LAG_VALUE < lat then 2 else 1)

/-! ### Time alignment (R473) -/

/-- The condition of a device for a time mode: false PPS and 10 MHz, true PTP only. -/
def aryTimeOk (s : State) (ptp : Bool) : Bool :=
  decide (s.rd R.TBU_STAT_TQ ≤ 1) &&
    if ptp then s.rd R.TBU_STAT_EPOCH_SRC == 2 && s.hif.ptpState == 2 && decide (s.hif.ptpOffset.natAbs ≤ 12800)
    else s.rd R.TBU_STAT_EPOCH_SRC != 0 && s.on R.TBU_STAT_PPS_OK && decide ((s.rdS R.TBU_PPS_ERR_ERR).natAbs ≤ 640)

/-- The check of every 10 ms. The master marks its own entry too. -/
def aryTimeCheck (s : State) : State :=
  if !s.domOn dCORE then s
  else
    let ok := s.aryTimeOk (s.on R.ARY_STAT_TIME)
    let s := s.put R.ARY_STAT_TIME_OK ok
    if s.aryMaster then s.memReport s.ary.id (s.rd R.TBU_STAT_TQ) ok (s.rd R.ARY_LAT_MAX_COUNT) else s

/-! ### Arming (R479 to R481) -/

/-- The channels of this device that ARM with `mask` arms. -/
def aryArmable (s : State) (mask : Nat) : List (Fin 4) :=
  (List.finRange 4).filter fun k => mask.testBit k.val && s.on (R.ACQ_CH_CFG0_ARRAY k)

/-- Arms the array channels of this device under R295 with job handle 0; a channel that the array has armed already
stays as it is. The answer is the body of ARM_ACK: the mask, and the status of each of its channels. -/
def aryArmOwn (s : State) (mask : Nat) : State × List Nat :=
  let l := s.aryArmable mask
  let m := (l.map fun k => 2 ^ k.val).sum
  l.foldl (fun (a : State × List Nat) (k : Fin 4) =>
    let (s, out) := a
    if s.ary.chans.testBit k && s.chLive k then (s, out ++ [OK])
    else
      let (s, st, _) := s.arm k 0
      (if st = OK then s.modAry fun r => { r with chans := Arith.putBit r.chans k true } else s, out ++ [st])) (s, [m])

/-- The channels that the array has armed on this device. -/
def aryChans (s : State) : List (Fin 4) := (List.finRange 4).filter fun k => s.ary.chans.testBit k.val && s.chLive k

/-- Ends the array channels of this device, under DISARM or CANCEL of R309. -/
def aryChansEnd (s : State) (cancel : Bool) : State :=
  let s' := s.aryChans.foldl (fun (s : State) (k : Fin 4) => if cancel then s.chCancel k else s.chDisarm k) s
  s'.modAry fun a => { a with chans := 0 }

/-- The roster members other than this device. -/
def others (s : State) : List Member := s.ary.roster.filter fun m => m.id != s.ary.id

/-- Sends one datagram to each of `l`, in order. -/
def arySendAll (s : State) (l : List Member) (typ : Nat) (body : List Nat) : State :=
  l.foldl (fun (s : State) (m : Member) => s.arySend m.addr typ body) s

/-- The array is armed no longer. -/
def aryUnarm (s : State) : State :=
  let s := s.ary.roster.foldl (fun (s : State) (m : Member) => s.put (R.ARY_MEM_ARMED m.id) false) s
  let s := s.modAry fun a => { a with armJob := 0, armMask := 0, disarming := false }
  s.put R.ARY_STAT_ARMED false

/-- ARRAY_ARM on the master, of job `job`. -/
def aryArm (s : State) (mask job : Nat) : State :=
  let s := s.modAry fun a =>
    { a with armJob := job, armMask := mask, disarming := false
             roster := a.roster.map fun m => { m with armAck := m.id == a.id } }
  let s := ((s.put R.ARY_STAT_ARMED true).aryArmOwn mask).1
  let s := s.put (R.ARY_MEM_ARMED s.ary.id) true
  s.arySendAll s.others tARM [mask]

/-- Every 100 ms ARM goes again to the members that have not answered. -/
def aryArmResend (s : State) : State :=
  if s.on R.ARY_STAT_ARMED && !s.ary.disarming then
    s.arySendAll (s.others.filter fun m => !m.armAck) tARM [s.ary.armMask]
  else s

/-- The disarm has ended. -/
def aryDisarmed (s : State) : State :=
  if s.ary.disarming then
    let job := s.ary.armJob
    (s.aryUnarm).jobDone job
  else s

/-- Every member that is not LOST has acknowledged the disarm. -/
def aryDisarmCheck (s : State) : State :=
  if s.ary.roster.all fun m => m.armAck || s.rd (R.ARY_MEM_STATE m.id) == 4 then s.aryDisarmed else s

/-- ARRAY_DISARM on the master. -/
def aryDisarm (s : State) : State :=
  let s := s.modAry fun a =>
    { a with disarming := true, roster := a.roster.map fun m => { m with armAck := m.id == a.id } }
  let s := s.aryChansEnd false
  (s.arySendAll s.others tDISARM []).aryDisarmCheck

/-- CANCEL of the arm job. -/
def aryArmCancel (s : State) : State :=
  let job := s.ary.armJob
  let s := s.aryChansEnd true
  ((s.arySendAll s.others tCANCEL []).aryUnarm).jobCancelled job

/-! ### Joining and leaving (R470 to R472, R486) -/

/-- The device returns to OFF with nothing of the array left. -/
def aryToOff (s : State) : State :=
  let s := s.ary.roster.foldl (fun (s : State) (m : Member) => s.rosterDrop m.id) s
  let s := ((s.wr R.ARY_STAT_STATE aryOff).put R.ARY_STAT_MASTER false).put R.ARY_STAT_ARMED false
  let s := (s.put R.ARY_STAT_TIME false).wr R.ARY_STAT_MEMBERS 0
  s.modAry fun _ => aryInit

/-- The device leaves: its channels end, the others are told, and the join job ends. -/
def aryLeaveWith (s : State) (cancel : Bool) (st : JobState) (status detail : Nat) : State :=
  let job := s.ary.joinJob
  let arm := s.ary.armJob
  let s := s.aryChansEnd cancel
  let s := if s.aryMaster then s.arySendAll s.others tDISSOLVE [] else s.arySend s.ary.master tLEAVE []
  let s := (s.aryToOff).ev R.ARY_EVENT_LEFT
  (s.jobDone arm).endJob job st status detail

/-- The join of a JOINING device ends without success. -/
def joinFail (s : State) (st : JobState) (status detail : Nat) : State :=
  let job := s.ary.joinJob
  (s.aryToOff).endJob job st status detail

/-- The JOIN datagram: the time mode asked for, and whether the time condition holds. -/
def sendJoin (s : State) : State :=
  s.arySend s.ary.master tJOIN [ofBool (s.on R.ARY_STAT_TIME) + 2 * ofBool (s.on R.ARY_STAT_TIME_OK)]

/-- ARRAY_JOIN past its checks, of job `job`. -/
def aryJoin (s : State) (id : Nat) (master ptp : Bool) (addr udp job : Nat) : State :=
  let s := s.modAry fun _ => { aryInit with id := id, udp := udp, master := addr, joinJob := job }
  let s := ((s.put R.ARY_STAT_MASTER master).put R.ARY_STAT_TIME ptp).put R.ARY_STAT_TIME_OK true
  if master then
    (((s.wr R.ARY_STAT_STATE ARY_JOINED).rosterAdd id addr).ev R.ARY_EVENT_JOINED).jobRuns job
  else (s.wr R.ARY_STAT_STATE aryJoining).sendJoin

/-- CANCEL of the join job. -/
def aryJoinCancel (s : State) : State :=
  if s.aryState = aryJoining then s.joinFail .cancelled E_CANCELLED 0 else s.aryLeaveWith true .cancelled E_CANCELLED 0

/-- The cause with which the master refuses a JOIN, none where it accepts (R470, R471). -/
def joinCause (s : State) (p : AryPkt) : Option Nat :=
  if s.ary.roster.any fun m => m.id == srcId p && m.addr != p.addr then some 1
  else if (bodyWord p 0).testBit 0 != s.on R.ARY_STAT_TIME then some 3
  else if !(bodyWord p 0).testBit 1 then some 4
  else none

/-- JOIN reaches the master. -/
def joinReceived (s : State) (p : AryPkt) : State :=
  let i := srcId p
  if s.ary.roster.any fun m => m.id == i && m.addr == p.addr then s.arySend p.addr tACCEPT []
  else
    match s.joinCause p with
    | some c => s.arySend p.addr tREFUSE [c]
    | none =>
      let s := (s.rosterAdd i p.addr).arySend p.addr tACCEPT []
      if s.on R.ARY_STAT_ARMED && !s.ary.disarming then s.arySend p.addr tARM [s.ary.armMask] else s

/-- ACCEPT reaches a JOINING device. -/
def accepted (s : State) : State :=
  if s.aryState = aryJoining then
    ((s.wr R.ARY_STAT_STATE ARY_JOINED).ev R.ARY_EVENT_JOINED).jobRuns s.ary.joinJob
  else s

/-- REFUSE reaches a JOINING device. -/
def refused (s : State) (cause : Nat) : State :=
  if s.aryState = aryJoining then
    s.joinFail .failed (if cause = 3 || cause = 4 then E_ARRAY_TIME else E_ARRAY_ID) cause
  else s

/-! ### Beats (R475 to R478) -/

/-- The mask of the channels that the array has armed here. -/
def aryChanMask (s : State) : Nat := (s.aryChans.map fun k => 2 ^ k.val).sum

/-- The offset that a BEAT_ACK carries, by the time mode. -/
def aryOffset (s : State) : Nat :=
  if s.on R.ARY_STAT_TIME then ofSigned 32 s.hif.ptpOffset else ofSigned 32 (s.rdS R.TBU_PPS_ERR_ERR)

/-- BEAT reaches a member: it is joined again, and answers. -/
def beatReceived (s : State) : State :=
  let s := s.wr R.ARY_STAT_STATE ARY_JOINED
  s.arySend s.ary.master tBEAT_ACK
    [s.rd R.TBU_STAT_TQ + ofBool (s.on R.ARY_STAT_TIME_OK) * 2 ^ 31, s.aryOffset, s.rd R.ARY_LAT_MAX_COUNT, s.aryChanMask]

/-- BEAT_ACK reaches the master. -/
def beatAnswered (s : State) (p : AryPkt) : State :=
  s.fromMember p fun i =>
    let w := bodyWord p 0
    (s.modMember i fun m => { m with missed := 0 }).memReport i (w % 8) (w.testBit 31) (bodyWord p 2)

/-- One beat period of the master. -/
def beatTimer (s : State) : State :=
  if s.aryMaster && s.aryState = ARY_JOINED then
    s.others.foldl (fun (s : State) (m : Member) =>
      let s := if 3 ≤ m.missed then s.memMark m.id 4 else s
      (s.modMember m.id fun e => { e with missed := e.missed + 1 }).arySend m.addr tBEAT []) s
  else s

/-- A LOST member was silent for ORPHAN_TMO s. -/
def orphanRemove (s : State) (i : Nat) : State :=
  if s.aryMaster && i != s.ary.id && s.rd (R.ARY_MEM_STATE i) = 4 then
    let s := s.rosterDrop i
    if s.ary.disarming then s.aryDisarmCheck else s
  else s

/-- Three beat periods without a BEAT. -/
def beatTimeout (s : State) : State :=
  if !s.aryMaster && s.aryState = ARY_JOINED then (s.wr R.ARY_STAT_STATE ARY_ORPHAN).ev R.ARY_EVENT_ORPHAN else s

/-- An ORPHAN member leaves. -/
def orphanLeave (s : State) : State :=
  if s.aryState = ARY_ORPHAN then
    let job := s.ary.joinJob
    (((s.aryChansEnd false).aryToOff).ev R.ARY_EVENT_LEFT).endJob job .failed E_ARRAY_MEMBER 0
  else s

/-! ### Fires (R483, R484) -/

/-- The device passes a fire to its own inputs and takes its latency. -/
def fireTake (s : State) (t origin : Nat) : State :=
  let lat := if stampLt s.now t then 0 else satNat 32 (stampSub s.now t)
  let s := s.aryPresent t origin
  if s.rd R.ARY_LAT_MAX_COUNT < lat then s.wr R.ARY_LAT_MAX_COUNT lat else s

/-- FIRE is received. -/
def fireReceived (s : State) (p : AryPkt) : State :=
  let t := bodyWord p 0 + bodyWord p 1 * 2 ^ 32
  let origin := bodyWord p 4 % 4096
  if s.aryState = aryJoining then s
  else
    let s := s.count R.ARY_FIRES_RECEIVED
    if s.aryMaster then
      let s := if s.aryMerges t then s else s.fireTake t origin
      s.aryRelay t origin (p.body.map BitVec.toNat)
    else s.fireTake t origin

end Sys2Proof.Machine.State

namespace Sys2Proof.Machine
open Sys2Proof State

def execAryJoin (p : AryPkt) (s : State) : Out := .next (s.aryTake tJOIN p fun s => s.onMaster fun s => s.joinReceived p)
def execAryAccept (p : AryPkt) (s : State) : Out := .next (s.aryTake tACCEPT p fun s => s.accepted)
def execAryRefuse (p : AryPkt) (s : State) : Out := .next (s.aryTake tREFUSE p fun s => s.refused (bodyWord p 0))
def execAryBeat (p : AryPkt) (s : State) : Out := .next (s.aryTake tBEAT p fun s => s.onMember State.beatReceived)
def execAryBeatAck (p : AryPkt) (s : State) : Out :=
  .next (s.aryTake tBEAT_ACK p fun s => s.onMaster fun s => s.beatAnswered p)
def execAryArm (p : AryPkt) (s : State) : Out :=
  .next (s.aryTake tARM p fun s => s.onMember fun s =>
    let (s, body) := s.aryArmOwn (bodyWord p 0)
    s.arySend s.ary.master tARM_ACK body)
def execAryArmAck (p : AryPkt) (s : State) : Out :=
  .next (s.aryTake tARM_ACK p fun s => s.onMaster fun s =>
    if !s.on R.ARY_STAT_ARMED then s
    else s.fromMember p fun i =>
      let s := s.modMember i fun m => { m with armAck := true }
      if s.ary.disarming then s.aryDisarmCheck else s.put (R.ARY_MEM_ARMED i) true)
def execAryDisarm (p : AryPkt) (s : State) : Out :=
  .next (s.aryTake tDISARM p fun s => s.onMember fun s => (s.aryChansEnd false).arySend s.ary.master tARM_ACK [0])
def execAryCancel (p : AryPkt) (s : State) : Out :=
  .next (s.aryTake tCANCEL p fun s => s.onMember fun s => s.aryChansEnd true)
def execAryFire (p : AryPkt) (s : State) : Out := .next (s.aryTake tFIRE p fun s => s.fireReceived p)
def execAryLeave (p : AryPkt) (s : State) : Out :=
  .next (s.aryTake tLEAVE p fun s => s.onMaster fun s => s.fromMember p fun i =>
    let s := s.rosterDrop i
    if s.ary.disarming then s.aryDisarmCheck else s)
def execAryDissolve (p : AryPkt) (s : State) : Out :=
  .next (s.aryTake tDISSOLVE p fun s => s.onMember fun s => s.aryLeaveWith false .done OK 1)
def execAryBeatTimer (s : State) : Out := .next s.beatTimer
def execAryOrphanRemove (i : BitVec 12) (s : State) : Out := .next (s.orphanRemove i.toNat)
def execAryBeatTimeout (s : State) : Out := .next s.beatTimeout
def execAryOrphanLeave (s : State) : Out := .next s.orphanLeave
def execAryJoinRetry (s : State) : Out := .next (if s.aryState = aryJoining then s.sendJoin else s)
def execAryJoinTimeout (s : State) : Out :=
  .next (if s.aryState = aryJoining then s.joinFail .failed E_ARRAY_MEMBER 0 else s)
def execAryArmResend (s : State) : Out := .next s.aryArmResend
def execAryDisarmTimeout (s : State) : Out := .next s.aryDisarmed
def execAryTimeCheck (s : State) : Out := .next s.aryTimeCheck

end Sys2Proof.Machine
end

