-- ==== Sys2Proof/Machine/Demod.lean ====
section
/-! DEFINITION. Stages 1 to 3 and 5 of the course pipeline: down-conversion (R140), matched filtering (R141, R142),
polarisation combining (R143), the CORDIC (R145), near-end power (R146), and the bins of a watch course (R163). -/

namespace Sys2Proof.Machine.State
open Sys2Proof Arith

/-! ### Down-conversion (R140) -/

/-- The s1.15 sine table, addressed by 18 bits of phase. -/
def sineTable (k : Nat) : Int := satSigned 16 (Trig.openRound 1 ((Trig.sinCos (k % 2 ^ 18 * 2 ^ 30)).1 * 2 ^ 15) (2 ^ 64))

/-- The codes of a course come from 128 ticks before its stamp on: 120 that a filter may reach back, and DLY. -/
def lead : Nat := 128

/-- A tick relative to the stamp of a course. -/
def courseTick (c : Course) (d : Int) : Int := c.raw + d

/-- The link word of lane `k` at `d` ticks after the stamp of course `c`. -/
def courseWord (l : List LinkEra) (c : Course) (xs : List Codes) (k : Fin 4) (d : Int) : LinkWord :=
  linkWord l k (courseTick c d) (codeAt xs (courseTick c (-lead)) k)

/-- The down-converter of course `c` takes the word of that tick: for a watch course those of units 0 and 4 (R129,
R163). -/
def takesWord (l : List LinkEra) (c : Course) (k : Fin 4) (d : Int) (w : LinkWord) : Bool :=
  let t := courseTick c d
  !c.watch || (!w.empty && unitTick (eraAt l (t - (eraAt l t).lanes[k].dly)) (t - (eraAt l t).lanes[k].dly))

/-- The code of a word times the cosine and the negated sine of the slot's phase at its tick, rounded to s2.16. -/
def mix (s : State) (n : Fin 4) (c : Course) (d : Int) (w : LinkWord) : Int × Int :=
  let a := s.slotPhase n c.slot (((c.stamp : Int) + d) % (2 ^ 64 : Nat)).toNat / 2 ^ 30
  (roundDiv (w.code * sineTable (a + 2 ^ 16)) 1024, roundDiv (w.code * -sineTable a) 1024)

/-- The decimation filters give 0 for products that are all 0; what else they give is open (DEDUCED, log entry 76). -/
def decimate (l : List (Nat × Int)) : Int := if l.all fun e => e.2 == 0 then 0 else (Config.ddcFilter l).toInt

/-- The output of the down-converter of lane `k` for native sample `i`, complex s1.17. The alias that a watch course is
tuned to (R163) has the phase of R62 at the samples taken. -/
def downLane (s : State) (n : Fin 4) (c : Course) (xs : List Codes) (i : Nat) (k : Fin 4) : Int × Int :=
  let l := s.ports[n].eras
  let win := (List.range 241).filterMap fun (p : Nat) =>
    let d : Int := 10 * (i : Int) + p - 120
    let w := courseWord l c xs k d
    if takesWord l c k d w then some (p, s.mix n c d w) else none
  (decimate (win.map fun e => (e.1, e.2.1)), decimate (win.map fun e => (e.1, e.2.2)))

/-- A native sample of both polarisations, each complex, and its CLIP mark. -/
structure Native where
  (x y : Int × Int)
  clip : Bool
  deriving DecidableEq, Repr

/-- XI′ + i XQ′. -/
def pairUp (a b : Int × Int) : Int × Int := (a.1 - b.2, a.2 + b.1)

/-- A CLIP word lies within the filter span of native sample `i`. -/
def spanClip (l : List LinkEra) (c : Course) (xs : List Codes) (i : Nat) : Bool :=
  let r := Config.ddcSpan.toNat
  (List.range (2 * r + 1)).any fun (p : Nat) =>
    (List.finRange 4).any fun k =>
      let d : Int := 10 * (i : Int) + p - r
      let w := courseWord l c xs k d
      w.clip && takesWord l c k d w

/-- Native sample `i` of course `c` at the down-converter output. -/
def native (s : State) (n : Fin 4) (c : Course) (xs : List Codes) (i : Nat) : Native :=
  { x := pairUp (s.downLane n c xs i 0) (s.downLane n c xs i 1)
    y := pairUp (s.downLane n c xs i 2) (s.downLane n c xs i 3)
    clip := spanClip s.ports[n].eras c xs i }

/-! ### Matched filtering (R141, R142) -/

/-- ψ at `tick` ticks of the chirp of profile `q`, in units of 2^−48 of a cycle; 0 from LENGTH on. -/
def chirpAt (s : State) (n q tick : Nat) : Nat :=
  if s.synActive (R.SYN_CSY_CHIRP2_LENGTH (csyOf n) q) ≤ tick then 0
  else (s.chirpPhase n q (2 * tick) % (2 ^ 48 : Nat)).toNat

/-- The weight of tap `t` of `len`, in units of 2^−64: 1, or that of a Hann window. -/
def tapWeight (hann : Bool) (t len : Nat) : Int :=
  if hann then (Trig.one - (Trig.sinCos ((2 * t + 1) * 2 ^ 48 / (2 * len))).2) / 2 else Trig.one

/-- The replica for steps of WIDTH `w` and CHIRP `q`. -/
def replicaOf (s : State) (n w q : Nat) : Replica :=
  let len := ceilDiv w 10
  let hann := s.on (R.CPL_CTRL_MF_WIN n)
  let part (x : Int) : Int := satSigned 12 (roundDiv (x * 2 ^ 11) (2 ^ 128))
  { width := w, chirp := q
    taps := (List.range len).map fun t =>
      let (sn, cs) := Trig.sinCos (s.chirpAt n q (10 * t))
      let wt := tapWeight hann t len
      (part (wt * cs), part (wt * -sn)) }

/-- The replicas of the patterns of port `n`, one for each distinct pair. -/
def replicasOf (s : State) (n : Fin 4) : List Replica :=
  (((s.bothSteps n).map fun x => (s.sWidth n x, s.sChirp n x)).eraseDups).map fun e => s.replicaOf n e.1 e.2

/-- The taps that course `c` is filtered with. -/
def tapsOf (s : State) (n : Fin 4) (c : Course) : List (Int × Int) :=
  ((s.ports[n].replicas.find? fun r => r.width == c.width && r.chirp == c.chirp).map Replica.taps).getD []

/-- Σ s × c over the taps. -/
def tapSum : List (Int × Int) → List (Int × Int) → Int × Int
  | (a, b) :: r, (c, d) :: t => let z := tapSum r t; (z.1 + a * c - b * d, z.2 + a * d + b * c)
  | _, _ => (0, 0)

/-- The exponent S of R142: the base-2 logarithm of the number of taps, rounded up. -/
def logUp (t : Nat) : Nat := if t ≤ 1 then 0 else Nat.log2 (t - 1) + 1

/-- The filter output of one polarisation, whose native samples from `i` on are `l`: complex s1.15, and whether a part
was saturated. -/
def matched (taps l : List (Int × Int)) : (Int × Int) × Bool :=
  let z := tapSum l taps
  let d : Int := (2 ^ (logUp taps.length + 13) : Nat)
  let a := z.1 / d
  let b := z.2 / d
  ((satSigned 16 a, satSigned 16 b), satSigned 16 a != a || satSigned 16 b != b)

/-- A filtered sample of both polarisations, complex s1.15, with its marks. -/
structure Filtered where
  (x y : Int × Int)
  (clip sat : Bool)
  deriving DecidableEq, Repr

/-- The filtered samples of a course of `len` native samples `l`, which go on past its end. -/
def filterCourse (taps : List (Int × Int)) : Nat → List Native → List Filtered
  | 0, _ => []
  | k + 1, l =>
    let a := matched taps (l.map Native.x)
    let b := matched taps (l.map Native.y)
    { x := a.1, y := b.1, clip := (l.head?.map Native.clip).getD false, sat := a.2 || b.2 } :: filterCourse taps k l.tail

/-! ### Combining and phase (R143, R145) -/

/-- I² + Q², truncated to u2.14. -/
def power14 (z : Int × Int) : Nat := (z.1 * z.1 + z.2 * z.2).toNat / 2 ^ 16

/-- The CORDIC: the phase in units of 2^−15 π rad, within 2 of the exact one from a power of 2^−12 on. -/
def cordic (z : Int × Int) (p : Nat) : Nat :=
  if p < 4 then (Config.cordicLow z.1 z.2).toNat
  else (Trig.arg z.1 z.2 + 65535 + (Config.cordicError z.1 z.2).toNat) % 65536

/-- The stronger polarisation of a sample, and its phase. -/
def combine (f : Filtered) : Sample :=
  let px := power14 f.x
  let py := power14 f.y
  let pol := decide (px < py)
  let z := if pol then f.y else f.x
  { theta := cordic z (max px py), power := max px py, pol := pol, clip := f.clip, sat := f.sat }

/-- Bin `b` of a watch course (R163): the sum of its native samples, scaled by 1/8 and saturated. Its marks are those of
its samples (DEDUCED, log entry 78). -/
def binUp (l : List Filtered) : Filtered :=
  let part (g : Filtered → Int) : Int := satSigned 16 (Trig.openRound 2 ((l.map g).sum) 8)
  { x := (part fun f => f.x.1, part fun f => f.x.2), y := (part fun f => f.y.1, part fun f => f.y.2)
    clip := l.any Filtered.clip, sat := l.any Filtered.sat }

/-- The bins of the filtered samples of a watch course. -/
def binsUp : Nat → List Filtered → List Filtered
  | 0, _ => []
  | k + 1, l => if l.isEmpty then [] else binUp (l.take 10) :: binsUp k (l.drop 10)

/-- The samples of course `c` at stage 6, one for each record (R138): `xs` are the codes of its lanes. -/
def demod (s : State) (n : Fin 4) (c : Course) (xs : List Codes) : List Sample :=
  let taps := s.tapsOf n c
  let nat := (List.range (c.len + taps.length)).map (s.native n c xs)
  let l := filterCourse taps c.len nat
  (if c.watch then binsUp c.len l else l).map combine

/-! ### Near-end power (R146) -/

/-- The squares of a native sample, in units of 2^−34. -/
def squares (v : Native) : Int := v.x.1 * v.x.1 + v.x.2 * v.x.2 + v.y.1 * v.y.1 + v.y.2 * v.y.2

/-- The mean of (|x|² + |y|²) ÷ 2 over native samples `a` to `b` of course `c`, as u0.16. -/
def nePower (s : State) (n : Fin 4) (c : Course) (xs : List Codes) (a b : Nat) : Nat :=
  let l := (List.range (b + 1 - a)).map fun i => squares (s.native n c xs (a + i))
  satNat 16 (Trig.openRound 3 l.sum (2 * (b + 1 - a) * 2 ^ 18)).toNat

end Sys2Proof.Machine.State
end

