-- ==== Sys2Proof/Machine/Eve.lean ====
section
/-! DEFINITION. EVE: detectors (R205 to R207), threshold sets and zone alarms (R208 to R211), event records (R212) and
wake requests (R213). -/

namespace Sys2Proof.Machine.State
open Sys2Proof Arith

/-! ### Event records (R212) -/

/-- The parts of a record that the state machine gives. -/
structure EvRec where
  (stamp onset kind port qty pidx : Nat)
  watch : Bool
  (cause entry label peakPoint peakQ first last hot : Nat)
  deriving DecidableEq, Repr

/-- The twelve words of a record. -/
def evWords (r : EvRec) (seq : Nat) : List Nat :=
  [r.stamp % 2 ^ 32, r.stamp / 2 ^ 32, r.onset % 2 ^ 32, r.onset / 2 ^ 32,
   r.kind * 2 ^ 28 + r.port * 2 ^ 26 + r.qty * 2 ^ 24 + r.pidx * 2 ^ 16 + ofBool r.watch * 2 ^ 15 + r.cause * 2 ^ 12
     + r.entry,
   r.label, r.peakPoint, r.peakQ, r.first, r.last, r.hot, seq]

/-- Sends a record to every destination of RSTREAM: the event stream, the trigger inputs, ARY and the VDC (R212, R296,
R482, R275). -/
def sendRecord (s : State) (r : EvRec) : State :=
  let s := s.bump R.EVE_SEQ_COUNT
  let s := { s with eve := { s.eve with sent := s.eve.sent.set (Fin.ofNat 4 r.port) r.stamp } }
  let w := evWords r (s.rd R.EVE_SEQ_COUNT)
  let s := if r.kind = 1 then s.ev R.EVE_EVENT_RAISE else if r.kind = 3 then s.ev R.EVE_EVENT_CLEAR else s
  let dst := s.rd R.EVE_CTRL_RSTREAM
  let s := if dst.testBit 0 then
      s.offer 2 { port := r.port, rtype := 1, stamp := r.stamp, body := bytesOfWords w, lane := 0, slot := 0 }
    else s
  let s := if dst.testBit 3 then
      { s with vdcIn := s.vdcIn ++ [{ src := 1, port := r.port, prof := 0, kind := 0, entry := r.entry
                                      stamp := r.stamp, frame := none, words := w }] }
    else s
  let s := if dst.testBit 1 then
      s.present ((s.inputsOf 1 (some r.port) fun i =>
        (s.rd (R.ACQ_TIN_KMASK i)).testBit (r.kind - 1)
          && (s.rd (R.ACQ_TIN_MATCH i) == 0xFFF || s.rd (R.ACQ_TIN_MATCH i) == r.entry)).map fun i =>
            (i, if s.on (R.ACQ_TIN_USE_ONSET i) then r.onset else r.stamp, 0))
    else s
  if dst.testBit 2 && r.kind = 1 && s.on R.ARY_CTRL_EVE_FIRE then
    s.aryFire (if s.on R.ARY_CTRL_USE_ONSET then r.onset else r.stamp) 1 r.label
  else s

/-! ### Zone alarms (R209 to R211) -/

def zIdle : Nat := 0
def zArming : Nat := 1
def zAlarm : Nat := 2
def zClearing : Nat := 3

/-- A field of the committed threshold set (R208). -/
def tset (s : State) (f : Field) : Nat := Bank.get s.eve.active f.key f.reset

def alarmOf (s : State) (i : Nat) : Alarm :=
  ((s.eve.alarms.find? fun e => e.1 == i).map Prod.snd).getD
    { onset := 0, raised := 0, since := 0, watch := none, port := 0, entry := 0 }

def setAlarm (s : State) (i : Nat) (a : Alarm) : State :=
  { s with eve := { s.eve with alarms := (s.eve.alarms.filter fun e => e.1 != i) ++ [(i, a)] } }

/-- Shows how many zones are in ALARM or CLEARING. -/
def showAlarms (s : State) : State :=
  s.wr R.EVE_STAT_ALARMS ((List.range 256).filter fun i => decide (2 ≤ s.rd (R.EVE_ZSTAT_STATE i))).length

def setZone (s : State) (i st n : Nat) : State :=
  ((s.wr (R.EVE_ZSTAT_STATE i) st).wr (R.EVE_ZSTAT_COUNT i) n).showAlarms

/-- A stamp from the last record sent of port `n` to the last frame read of it: for a record that no result completes
(R24, log entry 8). -/
def openStamp (s : State) (n : Fin 4) : Nat × State :=
  let a := s.eve.sent[n]
  let b := s.eve.seen[n]
  let (t, s) := s.free
  (if stampLt b a then a else stampAdd a (t % (stampSub b a + 1) : Nat), s)

/-- A happening of R211 ends the alarm of privileged index `i`: CLEAR with its cause, if the zone is in ALARM or
CLEARING, and IDLE. No result completes it, so its STAMP is open (log entry 8). -/
def zoneEnd (s : State) (i cause : Nat) : State :=
  let st := s.rd (R.EVE_ZSTAT_STATE i)
  let a := s.alarmOf i
  let s' := s.setZone i zIdle 0
  if st = zAlarm || st = zClearing then
    let (t, s') := s'.openStamp (Fin.ofNat 4 a.port)
    s'.sendRecord
      { stamp := t, onset := a.raised, kind := 3, port := a.port, qty := s.tset (R.EVE_TSET_QTY i), pidx := i
        watch := a.watch.getD false, cause := cause, entry := a.entry
        label := (zentry s.zon.active a.entry).label, peakPoint := 0, peakQ := 0, first := 0, last := 0, hot := 0 }
  else s'

/-- Port `n` enters IDLE or HALTED (R211). -/
def evePortStop (s : State) (n : Nat) : State :=
  (s.eve.alarms.filter fun e => e.2.port == n && s.rd (R.EVE_ZSTAT_STATE e.1) != zIdle).foldl
    (fun (s : State) e => s.zoneEnd e.1 1) (s.putBit R.EVE_WAKE_REQ n false)

/-- The zones that a new generation disables or changes end their alarms (R211). -/
def eveZoneChange (s : State) (old new : List ZEntry) : State :=
  (old.filter ZEntry.priv).foldl (fun (s : State) z =>
    let kept := match new.find? fun y => y.e == z.e with
      | some y => y.priv && y.pidx == z.pidx && y.filt == z.filt && y.det == z.det && y.start == z.start
          && y.interval == z.interval && y.count == z.count && y.z0 == z.z0 && y.base == z.base
      | none => false
    if kept then s else s.zoneEnd z.pidx 2) s

/-- Commit of a threshold set by a write of its word 0 (R208, R211). -/
def tsetCommit (s : State) (i : Nat) : State :=
  let clip (s : State) (hi lo : Field) : State := s.wr lo (min (s.rd lo) (s.rd hi))
  let s := clip (clip s (R.EVE_TSET_HIGH i) (R.EVE_TSET_LOW i)) (R.EVE_TSET_W_HIGH i) (R.EVE_TSET_W_LOW i)
  let fs := [R.EVE_TSET_EN i, R.EVE_TSET_WAKE i, R.EVE_TSET_QTY i, R.EVE_TSET_MIN_PTS i, R.EVE_TSET_HIGH i,
    R.EVE_TSET_LOW i, R.EVE_TSET_W_HIGH i, R.EVE_TSET_W_LOW i, R.EVE_TSET_ON_HOLD i, R.EVE_TSET_OFF_HOLD i,
    R.EVE_TSET_UPD i]
  let act := fs.foldl (fun b f => Bank.put b f.key (s.rd f) f.reset) s.eve.active
  let s := { s with eve := { s.eve with active := act } }
  if s.on (R.EVE_TSET_EN i) then s else s.zoneEnd i 3

/-- One point of a detector result: its number, PEAK, RMS, ENV and flags. -/
structure DResult where
  (point entry peak rms env fl : Nat)
  slew : Bool
  deriving DecidableEq, Repr

/-- The watched quantity of a result. -/
def DResult.q (d : DResult) (qty : Nat) : Nat := if qty = 0 then d.peak else if qty = 1 then d.rms else d.env

/-- A RAISE of watch courses raises the wake request of the port (R213), which ends at once where the port does not
watch any longer. -/
def wakeRequest (s : State) (n i : Nat) : State :=
  if s.tset (R.EVE_TSET_WAKE i) != 0 && s.on R.EVE_CTRL_WAKE_EN then
    (if s.pstate n = stWatch then s.putBit R.EVE_WAKE_REQ n true else s).ev R.EVE_EVENT_WAKE
  else s

/-- A result of privileged zone `z` advances its alarm (R209 to R211). -/
def zoneResult (s : State) (n : Nat) (z : ZEntry) (t : Nat) (watch : Bool) (ds : List DResult) : State :=
  let i := z.pidx
  if s.tset (R.EVE_TSET_EN i) = 0 || ds.isEmpty || ds.any (fun d => d.fl.testBit 1) then s
  else
    let qty := s.tset (R.EVE_TSET_QTY i)
    let hi := if watch then s.tset (R.EVE_TSET_W_HIGH i) else s.tset (R.EVE_TSET_HIGH i)
    let lo := if watch then s.tset (R.EVE_TSET_W_LOW i) else s.tset (R.EVE_TSET_LOW i)
    let ok := ds.filter fun d => !d.fl.testBit 7
    let h := (ok.filter fun d => decide (hi ≤ d.q qty)).length
    let warm := ok.filter fun d => decide (lo ≤ d.q qty)
    let a := s.alarmOf i
    let st := s.rd (R.EVE_ZSTAT_STATE i)
    let cnt := s.rd (R.EVE_ZSTAT_COUNT i)
    let (st, cnt) := if st = zArming && a.watch = some (!watch) then (zIdle, 0) else (st, cnt)
    let a := { a with watch := some watch, port := n, entry := z.e, since := a.since + 1 }
    let best := warm.foldl (fun (b : Nat × Nat) d => if b.2 < d.q qty then (d.point, d.q qty) else b)
      ((warm.head?.map DResult.point).getD 0, (warm.head?.map (DResult.q · qty)).getD 0)
    let pts := warm.map DResult.point
    let mk (kind onset : Nat) : EvRec :=
      { stamp := t, onset := onset, kind := kind, port := n, qty := qty, pidx := i, watch := watch, cause := 0
        entry := z.e, label := z.label, peakPoint := if kind = 3 then 0 else best.1
        peakQ := if kind = 3 then 0 else best.2
        first := if kind = 3 then 0 else pts.foldl min (pts.headD 0)
        last := if kind = 3 then 0 else pts.foldl max 0, hot := h }
    let raise (s : State) (onset : Nat) : State :=
      let s := (s.setAlarm i { a with onset := onset, raised := t, since := 0 }).setZone i zAlarm 0
      let s := s.sendRecord (mk 1 onset)
      if watch then s.wakeRequest n i else s
    let clear (s : State) : State :=
      ((s.setAlarm i { a with since := 0 }).setZone i zIdle 0).sendRecord (mk 3 a.raised)
    let hot := decide (s.tset (R.EVE_TSET_MIN_PTS i) ≤ h)
    let onHold := s.tset (R.EVE_TSET_ON_HOLD i)
    let offHold := s.tset (R.EVE_TSET_OFF_HOLD i)
    let upd := s.tset (R.EVE_TSET_UPD i)
    if st = zIdle then
      if !hot then (s.setAlarm i a).setZone i zIdle 0
      else if onHold = 1 || watch then raise s t
      else (s.setAlarm i { a with onset := t }).setZone i zArming 1
    else if st = zArming then
      if !hot then (s.setAlarm i a).setZone i zIdle 0
      else if cnt + 1 = onHold then raise s a.onset
      else (s.setAlarm i a).setZone i zArming (cnt + 1)
    else if st = zAlarm then
      if warm.isEmpty then
        if offHold = 1 then clear s else (s.setAlarm i a).setZone i zClearing 1
      else if upd != 0 && upd ≤ a.since then
        (s.setAlarm i { a with since := 0 }).sendRecord (mk 2 a.raised)
      else s.setAlarm i a
    else
      if !warm.isEmpty then (s.setAlarm i a).setZone i zAlarm 0
      else if cnt + 1 = offHold then clear s
      else (s.setAlarm i a).setZone i zClearing (cnt + 1)

/-! ### Detectors (R205 to R207) -/

/-- Window number and whether the window ends at this output (R206). -/
def windowOf (s : State) (n : Nat) (f : Frame) (w : Nat) : Nat × Bool :=
  let p := s.prof n f.prof
  let m := if p.rs && !f.watch then f.stamp / max 1 p.out else f.idx
  (m / max 1 w, (m + 1) % max 1 w == 0)

/-- The detector state of a point after the output `v` of epoch `ep` in window `win` (R205). -/
def detUpdate (old : Option DPoint) (point ep win v atk rel : Nat) (slew : Bool) : DPoint :=
  let new : DPoint :=
    { point := point, epoch := ep, peak := 0, sum := 0, env := 0, count := 0, fl := 0, slew := false, win := win }
  let d := match old with
    | some d => if d.epoch = ep then d else new
    | none => new
  let d := if d.win = win then d else { d with win := win, peak := 0, sum := 0, count := 0, fl := 0, slew := false }
  let x := (toSigned 24 (v / 256)).natAbs
  let a := x * 256
  { d with
    peak := max d.peak (min x (2 ^ 23 - 1)), sum := d.sum + x * x, count := d.count + 1, fl := d.fl ||| v % 256
    slew := d.slew || slew
    env := if d.env < a then d.env + (a - d.env) / 2 ^ atk else d.env - (d.env - a) / 2 ^ rel }

/-- `x` where a field of `w` bits holds it, otherwise a free value: the spec states none (DESIGN CHOICE, log entry 80). -/
def fits (s : State) (w x : Nat) : Nat × State :=
  if x < 2 ^ w then (x, s)
  else
    let (t, s) := s.free
    (t % 2 ^ w, s)

/-- The detector profile of an entry in a frame. -/
def frameDet (f : Frame) (entry : Nat) : Nat := ((f.zones.find? fun z => z.e == entry).map ZEntry.det).getD 0

/-- The points of a frame: entry, point, value, epoch. -/
def framePoints (f : Frame) : List (Nat × Nat × Nat × Nat) :=
  f.runs.flatMap fun r => (List.range r.vals.length).map fun k =>
    let v := r.vals.getD k (0, 0)
    (r.entry, r.point + k, v.1, v.2)

/-- Updates every point of a frame, and gives the results of the windows that end. -/
def detectAll (s : State) (n : Nat) (f : Frame) (ue : List Nat) : State × List DResult :=
  (framePoints f).foldl (fun (acc : State × List DResult) x =>
    let (s, out) := acc
    let (entry, point, v, ep) := x
    let d := frameDet f entry
    let w := s.rd (R.EVE_DCFG_W d)
    let (win, ends) := s.windowOf n f w
    let old := if ue.contains point then none else s.eve.points.find? fun p => p.point == point
    let p := detUpdate old point ep win v (s.rd (R.EVE_DCFG_ATTACK d)) (s.rd (R.EVE_DCFG_RELEASE d)) f.slewing
    let (env, s) := s.fits 31 p.env
    let p := { p with env := env }
    let good := ends && p.count == w && !ue.contains point
    let (rms, s) := if good then s.fits 23 (isqrt (p.sum / w)) else (0, s)
    let r : DResult :=
      { point := point, entry := entry, peak := p.peak, rms := rms, env := p.env / 256, fl := p.fl, slew := p.slew }
    let p := if ends then { p with peak := 0, sum := 0, count := 0, fl := 0, slew := false, win := win + 1 } else p
    let s := { s with eve := { s.eve with points := (s.eve.points.filter fun q => q.point != point) ++ [p] } }
    (s, if good then out ++ [r] else out)) (s, [])

/-- Writes the detector frames of one detector profile (R207). -/
def emitFrames (s : State) (n : Fin 4) (f : Frame) (d : Nat) (rs : List DResult) : State :=
  let mine := rs.filter fun r => frameDet f r.entry == d
  if mine.isEmpty then s
  else
    [(1, R.EVE_DCFG_EMIT_PEAK d), (2, R.EVE_DCFG_EMIT_RMS d), (3, R.EVE_DCFG_EMIT_ENV d)].foldl
      (fun (s : State) (e : Nat × Field) =>
        if !s.on e.2 then s
        else
          let runs := mine.foldl (fun l r =>
            addRun l r.entry r.point ((r.q (e.1 - 1)) * 256 + r.fl % 256, 0)) []
          s.fqFrame n { f with kind := e.1, det := d, runs := runs, slewing := mine.any DResult.slew }
            (s.rd (R.FDC_CTRL_CONSUMERS n) &&& 14)) s

/-- EVE reads the next item of the frame queue of port `n` (R205 to R212). -/
def eveFrame (s : State) (n : Fin 4) (badFrame : Bool) (ecc : Ecc) : State :=
  match s.fqRead n 0 with
  | (s, none) => s
  | (s, some i) =>
    match i.frame with
    | none => s
    | some f =>
      let s := { s with eve := { s.eve with seen := s.eve.seen.set n f.stamp } }
      let (mem, base) := if s.ports[n].fdc.inDram then (4, 0x15000000 + 0x1000000 * n.val)
        else (2, 0xEC0000 + 0x40000 * n.val)
      if badFrame && !(s.eccOf mem { ce := 0, ue := [0] }).ue.isEmpty then
        (s.fqDropBad n f).eccUncorrectable mem reqEVE base
      else
        let s := s.eccSeen 2 reqEVE ecc (fun p => 0x400000 + 16 * p)
        let (s, rs) := s.detectAll n f ecc.ue
        let s := (List.range 16).foldl (fun (s : State) d => s.emitFrames n f d rs) s
        (f.zones.filter ZEntry.priv).foldl (fun (s : State) z =>
          s.zoneResult n z f.stamp f.watch (rs.filter fun r => r.entry == z.e)) s

/-- The FDC takes a course, and zones that its generation changed end their alarms (R197, R211). -/
def fdcCourse (s : State) (n : Fin 4) (ecc : Ecc) : State :=
  let (s, old, newGen) := s.fdcTake n ecc
  let s := if newGen then s.eveZoneChange old s.ports[n].fdc.zones else s
  s.fdcSettle n

/-- A write of EVE_WAKE.CANCEL (R213). -/
def wakeCancel (s : State) (mask : Nat) : State :=
  (List.range 4).foldl (fun (s : State) n => if mask.testBit n then s.putBit R.EVE_WAKE_REQ n false else s) s

end Sys2Proof.Machine.State
end

