-- ==== Sys2Proof/Machine/Port.lean ====
section
/-! DEFINITION. The states of a port (R119): start with its conditions (R120, R164, R165, R180, R196, R516), stop, trips
(R114, R115, R515), route selection and changes (R105, R109), and the interlock outputs (R113, R117). -/

namespace Sys2Proof.Machine.State
open Sys2Proof Arith

/-! ### Quiet input (R132) -/

/-- RTT ticks have passed since the last launch of the port. -/
def launchOver (s : State) (n : Fin 4) : Bool :=
  match s.ports[n].lastRaw with
  | some t => decide (t + s.rtt n (s.route n) ≤ s.tbu.raw)
  | none => true

/-- Shows QUIET of port `n`: a window has ended with every lane at most QUIET_TH, no gate pulse is in progress, and the
last course is over. -/
def showQuiet (s : State) (n : Fin 4) : State :=
  if !s.portOn n then s
  else
    s.put (R.CDG_PORT_STAT_QUIET n)
      (s.ports[n].quietSeen && s.ports[n].pulse.isNone && s.launchOver n
        && (List.range 4).all fun k => decide (s.rd (R.CDG_LANE_RMS_RMS n k) ≤ s.rd R.CDG_CTRL_QUIET_TH))

/-! ### State changes -/

/-- Port `n` takes the launch state `st` (R119): the lanes run at full rate in every state but WATCH (R129), the wake
request ends when the port leaves WATCH (R213), and blocked calibration targets are tried again (R448). -/
def setPst (s : State) (n : Fin 4) (st : Nat) : State :=
  let was := s.pstate n
  let s := s.wr (R.PPE_STAT_STATE n) st
  let s := if st = stWatch then s else s.fullRate n s.tbu.raw
  let s := if was = stWatch && st != stWatch then s.putBit R.EVE_WAKE_REQ n false else s
  (s.calUnblockPort n).showCpl n

/-- The port makes no further launch (R109 step 1): launches before their point of no return are withdrawn with their
courses. A switch of pattern that has not taken place is dropped (DESIGN CHOICE, log entry 71). -/
def pause (s : State) (n : Fin 4) : State :=
  let gone := (s.ports[n].fetched.filter fun f => f.stage == 0).map Fetch.course
  let back := s.ports[n].courses.any fun c => c.fresh && gone.any fun g => g.stamp == c.stamp
  s.modPort n fun p =>
    { p with
      fetched := p.fetched.filter fun f => f.stage != 0
      courses := p.courses.filter fun c => !gone.any fun g => g.stamp == c.stamp
      freshNext := p.freshNext || back, switch := none }

/-- Port `n` comes to stand in `st`, IDLE or HALTED: no launch is left but one that a fibre break lets go (R116), an
open episode gives its GAP record, alarms end (R211), and in IDLE the hods are released and port stops are DONE. No
course is in flight there (R42), so none makes a later launch skip (R99, log entry 70). -/
def portDown (s : State) (n : Fin 4) (st : Nat) : State :=
  let s := s.modPort n fun p =>
    { p with
      fetched := p.fetched.filter fun f => f.lost
      chirps := [], ramans := [], switch := none, startStage := 0, startJob := 0, lockBy := none, routeStage := 0
      slotRaw := Vector.replicate 8 none, ramanRaw := none }
  let s := (s.put (R.RMD_ROUTE_STAT_BUSY n) false).setPst n st
  let s := if s.ports[n].causes = 0 && s.ports[n].checkFail.isEmpty then s.queueGap n else s
  let s := (s.evePortStop n).fdcSettle n
  if st = stIdle then
    let jobs := s.ports[n].stopJobs
    let s := (s.modPort n fun p => { p with stopJobs := [], stopping := false }).releaseHods (.port n)
    jobs.foldl (fun (s : State) h => s.jobDone h) s
  else s

/-- Port `n` drains (R119). -/
def startDrain (s : State) (n : Fin 4) : State := (s.pause n).setPst n stDraining

/-! ### Routes -/

def routeOn (s : State) (n r : Nat) : Nat := s.rd (R.ROUTE_ON n r)

/-- The elements of an ON mask. -/
def elems (m : Nat) : List Nat := bitsOf 64 m

/-- Every element of the mask reads OK, or UNVERIFIED where that is allowed. -/
def elemsPass (s : State) (m : Nat) (unverified : Bool) : Bool :=
  (elems m).all fun e => s.rd (R.RMD_ELEM_STATE e) == 1 || (unverified && s.rd (R.RMD_ELEM_STATE e) == 2)

/-- Shows VERIFIED of port `n`. -/
def showVerified (s : State) (n : Fin 4) : State :=
  s.put (R.RMD_ROUTE_STAT_VERIFIED n) (s.elemsPass (s.routeOn n (s.route n)) false)

/-- A selection of route `i` for port `n` meets a conflict with another port that is not IDLE (R105). -/
def routeConflict (s : State) (n : Fin 4) (i : Nat) : Bool :=
  (List.finRange 4).any fun m =>
    m != n && s.pstate m != stIdle
      && ((s.rd (R.ROUTE_ON n i) &&& s.rd (R.ROUTE_OFF m (s.route m))) != 0
        || (s.rd (R.ROUTE_OFF n i) &&& s.rd (R.ROUTE_ON m (s.route m))) != 0)

/-- The status with which a route selection is refused, OK where it is taken (R105, R109). -/
def routeRefusal (s : State) (n : Fin 4) (i : Nat) : Nat :=
  let st := s.pstate n
  if !(st = stIdle || st = stRun || st = stWatch) || !s.on (R.ROUTE_VALID n i) then E_STATE
  else if s.routeConflict n i then E_ROUTE
  else OK

/-- PPE_EVENT.ROUTE_REJECT; the register is not there while PORTn is off (R22). -/
def routeReject (s : State) (n : Fin 4) : State := if s.portOn n then s.ev (R.PPE_EVENT_ROUTE_REJECT n) else s

/-- Takes a route selection (R109): on an IDLE port it waits for a scan, on a launching port the change begins. While
PORTn is off only SEL takes it, and it is selected when PORTn turns on (R22, log entry 17). -/
def routeTake (s : State) (n : Fin 4) (i job : Nat) : State :=
  let st := s.pstate n
  let s := s.wr (R.RMD_ROUTE_SEL_SEL n) i
  if !s.portOn n then s.jobDone job
  else if st = stIdle then (s.selectWaits n i).jobDone job
  else
    let s := ((s.put (R.RMD_ROUTE_STAT_BUSY n) true).pause n).setPst n stRouting
    s.modPort n fun p => { p with routeStage := 1, routeOld := st, routeNew := i, routeJob := job }

/-- A write of RMD_ROUTE_SEL (R109). -/
def routeWrite (s : State) (n : Fin 4) (i : Nat) : State :=
  if s.routeRefusal n i = OK then s.routeTake n i 0 else s.routeReject n

/-- The route that the matrix drives for port `n` beside the active one: one being applied (R104). -/
def applying (s : State) (n : Fin 4) : Option Nat :=
  let k := s.ports[n].routeStage
  if k = 0 || k = 1 || k = 2 || k = 7 then none else some s.ports[n].routeNew

/-- A route change fails (R109 step 6). -/
def routeFail (s : State) (n : Fin 4) (status detail : Nat) : State :=
  let job := s.ports[n].routeJob
  let stop := s.ports[n].stopping
  let s := (s.put (R.RMD_ROUTE_STAT_FAIL n) true).portDown n stHalted
  let s := s.jobFailed job status detail
  if stop then s.portDown n stIdle else s

/-- What a port takes from its patterns at its start and at each route change: replicas (R141), and the figures of
Pin (R188). -/
def patternTake (s : State) (n : Fin 4) : State :=
  s.modPort n fun p => { p with replicas := s.replicasOf n, pinC := s.patPinC n, pinS := s.patPinS n }

/-- A route change has passed every check: the pattern that was running resumes at its first step (R109 step 5,
R110). Every course of the old route has returned, so none is in flight on its slot (R99). -/
def routeResume (s : State) (n : Fin 4) : State :=
  let s := (s.patternTake n).fdcRoute n
  let p := s.ports[n]
  let s := (s.put (R.RMD_ROUTE_STAT_BUSY n) false).modPort n fun p =>
    { p with
      routeStage := 0, step := s.patFirst n p.watchPat, wrapped := false, freshNext := true
      slotRaw := Vector.replicate 8 none, ramanRaw := none }
  let s := (if p.stopping then s.setPst n stDraining else s.setPst n p.routeOld)
  s.jobDone p.routeJob

/-- R180 and R196 of a start or a route change on the active route, with what they show. -/
def zoneChecks (s : State) (n : Fin 4) : State × Option CheckFail :=
  let r := s.route n
  match s.zonPortCheck n r with
  | some c => (s.zonShowCheck (some c), some c)
  | none =>
    let c := s.fdcCheck n (s.patPinC n) (s.patPinS n) (zapply (zenabled s.zon.active) n r)
    ((s.zonShowCheck none).fdcShowCheck n c (R.FDC_EVENT_START_FAIL n), c)

/-- R96 and R164 of a start or a route change on the active route, with what they show. -/
def patternChecks (s : State) (n : Fin 4) (watch atStart : Bool) : State × Option CheckFail :=
  let r := s.route n
  match s.patCheckShow n watch (s.rtt n r) with
  | (s, some c) => (s, some c)
  | (s, none) => s.cplCheckShow n r atStart

/-- Step 5 of a route change, once ZON is not busy (R183): the route becomes active, and the pattern is checked against
it (R109). -/
def routeAdvance (s : State) (n : Fin 4) : State :=
  if s.ports[n].routeStage != 5 || s.zon.busy != 0 then s
  else
    let s := ((s.wr (R.RMD_ROUTE_STAT_ACTIVE n) s.ports[n].routeNew).showVerified n).zonShow
    match s.patternChecks n s.ports[n].watchPat false with
    | (s, some c) => s.routeFail n c.2.2 (checkDetail c)
    | (s, none) =>
      match s.zoneChecks n with
      | (s, some c) => s.routeFail n c.2.2 (checkDetail c)
      | (s, none) => s.routeResume n

/-- The verification scan of a route change has ended (R109 steps 5 and 6). Until step 5 is done the old route stays
active (R515). -/
def routeJudge (s : State) (n : Fin 4) : State :=
  let p := s.ports[n]
  if s.elemsPass (s.routeOn n p.routeNew) (s.on R.RMD_ILK_CTRL_ALLOW_UNVERIFIED) then
    (s.modPort n fun p => { p with routeStage := 5 }).routeAdvance n
  else s.routeFail n E_ROUTE 0

/-! ### Interlock -/

/-- The fields of LDR_FAULT, from bit 0. -/
def faultFields (n : Nat) : List Field :=
  [R.LDR_FAULT_GATE_OPEN n, R.LDR_FAULT_GATE_SHORT n, R.LDR_FAULT_LOOP n, R.LDR_FAULT_ROUTE n,
   R.LDR_FAULT_FIBRE_BREAK n, R.LDR_FAULT_OTHER n]

def fGateOpen : Nat := 1
def fGateShort : Nat := 2
def fLoop : Nat := 4
def fRoute : Nat := 8
def fFibre : Nat := 16
def fOther : Nat := 32

/-- LDR_FAULT of port `n`. -/
def faults (s : State) (n : Nat) : Nat :=
  (faultFields n).foldr (fun f acc => 2 * acc + ofBool (s.on f)) 0

/-- Sets or clears the bits `m` of LDR_FAULT. -/
def setFaults (s : State) (n m : Nat) (b : Bool) : State :=
  ((faultFields n).zip (List.range 6)).foldl (fun (s : State) (e : Field × Nat) =>
    if m.testBit e.2 then s.put e.1 b else s) s

/-- The loop state is CLOSED. -/
def loopClosed (s : State) : Bool := s.rd R.RMD_ILK_STAT_LOOP == 2

/-- SYS_GSTAT.ILK_CLEAR (R113). -/
def ilkClear (s : State) : Bool := s.loopClosed && (List.range 4).all fun n => s.faults n == 0

/-- Shows RMD_ILK_STAT.FAULT and drives ILK_OUT_N (R117). -/
def showIlk (s : State) : State :=
  let s := s.wr R.RMD_ILK_STAT_FAULT ((List.range 4).map fun n => ofBool (s.faults n != 0) * 2 ^ n).sum
  let low := if s.on R.RMD_ILK_CTRL_OUT_MODE then s.loopClosed else s.ilkClear
  let v := if low then 0 else 1
  if s.rd R.RMD_ILK_STAT_ILK_OUT = v then s
  else (s.wr R.RMD_ILK_STAT_ILK_OUT v).emit (.ball "ILK_OUT_N" 0 v)

/-- A port start fails (R119): the port returns to IDLE. -/
def startFail (s : State) (n : Fin 4) (status detail : Nat) : State :=
  let job := s.ports[n].startJob
  ((s.withdrawHods (.port n)).portDown n stIdle).jobFailed job status detail

/-- A launch that goes ahead although its port trips: the one past its point of no return that follows the course
which showed a fibre break (R116). -/
def lastLaunch (s : State) (n : Fin 4) (stamp : Nat) : State :=
  if s.rd (R.PPE_LAST_STAMP_STAMP n) = stamp then
    s.modPort n fun p =>
      { p with fetched := (p.fetched.filter fun f => f.stage != 0).take 1 |>.map fun f => { f with lost := true } }
  else s

/-- The gate pulse and the Raman trigger of port `n` fall (R101, R114). -/
def cutPulse (s : State) (n : Fin 4) : State :=
  let s := match s.ports[n].pulse with
    | some _ => (s.modPort n fun p => { p with pulse := none }).emit (.ball "GATE" n 0)
    | none => s
  match s.ports[n].trigEnd with
  | some e =>
    let s := s.modPort n fun p => { p with trigEnd := none }
    if s.tbu.raw < e then s.emit (.ball "TRIG_RM" n 0) else s
  | none => s

/-- Port `n` is stopped by a trip that latches the bits `f` of its LDR_FAULT (R114, R115, R119, R515, R516). An IDLE
port is not touched; a HALTED one latches, and a launch that a fibre break let go is stopped. -/
def tripPort (s : State) (n : Fin 4) (f : Nat) : State :=
  let st := s.pstate n
  if st = stIdle then s
  else
    let s := s.setFaults n f true
    let s := s.cause n (causeInterlock + (if f &&& fFibre = 0 then 0 else causeFibre)
      + if f &&& fRoute = 0 then 0 else causeRoute)
    let s := (s.ev R.RMD_ILK_EVENT_TRIP n).cutPulse n
    if st = stHalted then s.modPort n fun p => { p with fetched := [] }
    else if st = stStarting then s.startFail n E_INTERLOCK 0
    else if st = stRouting then s.routeFail n E_INTERLOCK 0
    else if s.ports[n].stopping then (s.portDown n stHalted).portDown n stIdle
    else s.portDown n stHalted

/-- A trip with the bits `f` concerns port `n`: it is not IDLE, and the bits are not all latched or a launch of it still
goes ahead. -/
def tripHits (s : State) (n : Fin 4) (f : Nat) : Bool :=
  f != 0 && s.pstate n != stIdle
    && ((f &&& s.faults n) != f || !s.ports[n].fetched.isEmpty || s.ports[n].pulse.isSome)

/-- A trip: port `n` latches `f n`, where that is not 0. It is logged with LDR_FAULT of each port (R441). -/
def trip (s : State) (f : Fin 4 → Nat) : State :=
  let hit := (List.finRange 4).filter fun n => s.tripHits n (f n)
  if hit.isEmpty then s
  else
    let s := hit.foldl (fun (s : State) n => s.tripPort n (f n)) s
    (s.showIlk).log 7 2 0x0080 ((hit.map fun n => 2 ^ n.val).sum) ((List.range 4).map s.faults)

/-- A gate fault of port `n` (R100, R114). -/
def gateTrip (s : State) (n : Fin 4) (f : Nat) : State :=
  s.trip fun m => if m = n then f else if s.on R.RMD_ILK_CTRL_INTERLOCK_ALL then fOther else 0

/-- A route-element fault of element `e` (R108, R114). -/
def elemTrip (s : State) (e : Nat) : State :=
  let holds (m : Fin 4) : Bool := s.pstate m != stIdle && (s.routeOn m (s.route m)).testBit e
  if (List.finRange 4).any holds then
    s.trip fun m => if holds m then fRoute else if s.on R.RMD_ILK_CTRL_INTERLOCK_ALL then fOther else 0
  else s

/-- The loop leaves CLOSED, or stops qualifying (R113). -/
def loopOpen (s : State) : State :=
  let was := s.loopClosed
  let s := s.wr R.RMD_ILK_STAT_LOOP 0
  if was then ((s.ev R.RMD_ILK_EVENT_LOOP_OPEN).trip fun _ => fLoop).showIlk else s

/-- The loop may qualify: the boot is complete (R453), ILK_IN_N low and SW_STOP 0 (R113). -/
def loopTry (s : State) : State :=
  if s.sys.phase == .up && s.rd R.RMD_ILK_STAT_LOOP = 0 && !s.on R.RMD_ILK_STAT_ILK_IN && !s.on R.RMD_ILK_CTRL_SW_STOP
  then s.wr R.RMD_ILK_STAT_LOOP 1 else s

/-- A write of SW_STOP (R113). -/
def swStop (s : State) (b : Bool) : State :=
  let s := s.put R.RMD_ILK_CTRL_SW_STOP b
  if b then s.loopOpen else s.loopTry

/-! ### Port start -/

/-- PLL_S and the carrier synthesiser of port `n` are locked. -/
def startLocked (s : State) (n : Nat) : Bool := s.bit R.SYN_STAT_LOCK 0 && s.bit R.SYN_STAT_LOCK (3 + csyOf n)

/-- The carrier synthesiser may still lock: it acquires, searches, or waits for OCXO_RDY (R429). -/
def lockComing (s : State) (n : Nat) : Bool :=
  let k := 3 + csyOf n
  s.syn.acquiring.testBit k || s.syn.waiting.testBit k || s.on (R.SYN_PLL_STAT_SEARCH_BUSY k)
    || s.bit R.SYN_STAT_LOCK k

/-- No course of the port has yet to commit or to be released (R165). -/
def released (s : State) (n : Fin 4) : Bool :=
  let p := s.ports[n]
  p.courses.isEmpty && !p.releasing && p.outq.all fun i => match i with
    | .course _ => false
    | .gap _ => true

/-- The route of an IDLE port that is or becomes active at the next scan (R109). -/
def comingRoute (s : State) (n : Fin 4) : Nat :=
  if s.ports[n].routeStage = 7 then s.ports[n].routeNew else s.route n

/-- Condition 5 fails at once (R120, R516): the active route entry is not valid, or no scan comes. -/
def routeDead (s : State) (n : Fin 4) : Bool :=
  !s.on (R.ROUTE_VALID n (s.comingRoute n)) || !s.on R.RMD_SCAN_CTRL_EN

/-- The start conditions of R120 in their order, from condition 3 up to the first that waits (log entry 24); `waits`
when the carrier synthesiser was found off, so that condition 4 waits (R429). -/
def startChecks (s : State) (n : Fin 4) (waits : Bool) : Option (Nat × Nat) :=
  if !s.loopClosed then some (E_INTERLOCK, 0)
  else if !s.startLocked n then (if waits then none else some (E_LOCK, 0))
  else if s.routeDead n then some (E_ROUTE, 0)
  else none

/-- The start conditions hold: the port runs (R119, R139, R188). -/
def startGo (s : State) (n : Fin 4) : State :=
  let job := s.ports[n].startJob
  let w := s.ports[n].startWatch
  let s := (s.patternTake n).wr (R.CPL_DELAY_D n) (s.pipeDelay n)
  let s := ((s.wr (R.CPL_COURSES_COUNT n) 0).wr (R.PPE_LAUNCHES_COUNT n) 0).wr (R.PPE_SKIPS_COUNT n) 0
  let s := (s.zonShow).fdcStart n
  let s := s.modPort n fun p =>
    { p with
      startStage := 0, startJob := 0, lockBy := none, gapNo := 0, freshNext := true, zonPrev := none, episode := none
      watchPat := w, lastWatch := w, step := s.patFirst n w, wrapped := false, switch := none, fetched := []
      nextRaw := none }
  let s := { s with sys := { s.sys with bufUsed := true } }
  (s.setPst n (if w then stWatch else stRun)).jobDone job 0 [s.rd (R.CPL_DELAY_D n), s.rd (R.ZON_PORT_POINTS_P n)]

/-- The start asks for its hods (condition 7 of R120, R436). -/
def startHods (s : State) (n : Fin 4) : State :=
  let p := s.ports[n]
  match s.requestHods { user := .port n, hods := 36, cls := 0, tmo := p.startTmo, job := p.startJob } with
  | (s, .granted) => s.startGo n
  | (s, .queued) => s.modPort n fun p => { p with startStage := 6 }
  | (s, .refused) => s.startFail n E_POWER 0

/-- After the scan of condition 5: the checks that may have changed, and R180 and R196 once ZON is not busy (R183). -/
def startZones (s : State) (n : Fin 4) : State :=
  if s.ports[n].startStage != 5 || s.zon.busy != 0 then s
  else
    match s.patternChecks n s.ports[n].startWatch true with
    | (s, some c) => s.startFail n c.2.2 (checkDetail c)
    | (s, none) =>
      match s.zoneChecks n with
      | (s, some c) => s.startFail n c.2.2 (checkDetail c)
      | (s, none) => s.startHods n

/-- Condition 4, while it waits for lock (R429). -/
def startLock (s : State) (n : Fin 4) : State :=
  if s.ports[n].startStage != 2 then s
  else if s.startLocked n then
    if s.routeDead n then s.startFail n E_ROUTE 0
    else s.modPort n fun p => { p with startStage := 3, lockBy := none }
  else if s.lockComing n then s
  else s.startFail n E_LOCK 0

/-- A start goes on as far as it can without a further event. -/
def startAdvance (s : State) (n : Fin 4) : State :=
  if s.pstate n != stStarting then s
  else
    let s :=
      if s.ports[n].startStage = 1 && s.released n then
        match s.startChecks n s.ports[n].lockBy.isSome with
        | some (st, d) => s.startFail n st d
        | none => s.modPort n fun p => { p with startStage := 2 }
      else s
    (s.startLock n).startZones n

/-- Every start and route change that waits goes on as far as it can. -/
def advanceAll (s : State) : State :=
  (List.finRange 4).foldl (fun (s : State) n => (s.startAdvance n).routeAdvance n) s

/-- The port enters STARTING at stage 1 for the start job `job`; `lockBy` is given when the carrier synthesiser was
found off (R119, R134, R238, R429). -/
def startBegin (s : State) (n : Fin 4) (watch : Bool) (tmo job : Nat) (lockBy : Option Nat) : State :=
  let former := s.pstate n
  let s := s.modPort n fun p =>
    { p with
      startWatch := watch, startStage := 1, startJob := job, startTmo := tmo, former := former, lockBy := lockBy
      fetched := [] }
  ((s.calAbandonPort n).setPst n stStarting).startAdvance n

/-- The wait for lock ends (R429). -/
def lockDeadline (s : State) (n : Fin 4) : State :=
  match s.ports[n].lockBy with
  | some t =>
    if s.pstate n = stStarting && s.ports[n].startStage = 2 && t ≤ s.tbu.raw then s.startFail n E_LOCK 0 else s
  | none => s

/-- A start is cancelled: the port returns to the state it started from (R412, R418). -/
def startCancel (s : State) (n : Fin 4) : State :=
  let p := s.ports[n]
  ((s.withdrawHods (.port n)).portDown n p.former).jobCancelled p.startJob

/-- A port-stop command on a port that is neither IDLE nor STARTING, with its job (R119). -/
def portStop (s : State) (n : Fin 4) (job : Nat) : State :=
  let st := s.pstate n
  let s := s.modPort n fun p => { p with stopJobs := p.stopJobs ++ [job], stopping := true }
  if st = stHalted then s.portDown n stIdle
  else if st = stRun || st = stWatch then s.startDrain n
  else s

end Sys2Proof.Machine.State
end

