-- ==== Sys2Proof/Machine/Launch.lean ====
section
/-! DEFINITION. A launch from its fetch to the end of its pulse (R58 to R65, R98 to R101, R119), the gate checks (R100),
the bias outputs (R102), the near-end report (R116) and the changes between RUN and WATCH (R432, R433). -/

namespace Sys2Proof.Machine.State
open Sys2Proof Arith

/-! ### The launch -/

/-- The port makes launches now. -/
def fetching (s : State) (n : Nat) : Bool := s.pstate n == stRun || s.pstate n == stWatch

/-- The latest raw tick in a list of optional ones. -/
def latest (l : List (Option Nat)) : Option Nat :=
  l.foldl (fun a b => match a, b with
    | some x, some y => some (max x y)
    | some x, none => some x
    | none, y => y) none

/-- An event at raw tick `t` lies less than `gap` after the last one. -/
def tooSoon (last : Option Nat) (t gap : Nat) : Bool :=
  match last with
  | some x => decide (t < x + gap)
  | none => false

/-- The raw tick of the last launch of the port on slot `j`, the fetched ones included. -/
def slotLast (p : Port) (j : Nat) : Option Nat :=
  latest (p.slotRaw[j]?.getD none :: (p.fetched.filter fun f => f.course.slot == j).map fun f => some f.course.raw)

/-- The raw tick of the last Raman trigger of the port, those of fetched launches included. -/
def ramanLast (s : State) (n : Fin 4) : Option Nat :=
  let p := s.ports[n]
  latest (p.ramanRaw :: (p.fetched.filter Fetch.raman).map fun f => some (f.course.raw + s.rd (R.LDR_RM_CFG_RM_DELAY n)))

/-- The switch that the port is asked for takes place at this fetch (R119): to WATCH behind the LAST step of the RUN
pattern, to RUN at once. -/
def switchNow (p : Port) : Option Bool :=
  match p.switch with
  | some true => if p.watchPat then none else if p.wrapped then some true else none
  | some false => if p.watchPat then some false else none
  | none => none

/-- The pattern that the next step comes from, after a switch that takes place now. -/
def fetchSwitch (s : State) (n : Fin 4) : State :=
  match switchNow s.ports[n] with
  | some w =>
    s.modPort n fun p =>
      { p with watchPat := w, step := s.patFirst n w, wrapped := false, switch := none, freshNext := true }
  | none => s

/-- The pattern advances past step `x` (R95). -/
def stepNext (s : State) (n : Fin 4) (x : Nat) : State :=
  let last := s.on (R.PPE_STEP_LAST n x)
  s.modPort n fun p =>
    { p with step := if last then s.patFirst n p.watchPat else (x + 1) % 512, wrapped := last }

/-- The course of step `x` launched 256 ticks from now. -/
def courseOf (s : State) (n : Fin 4) (x : Nat) : Course :=
  let r := s.route n
  { stamp := (s.now + 256) % 2 ^ 64, raw := s.tbu.raw + 256, slot := s.sSlot n x, chirp := s.sChirp n x, step := x
    amp := s.rd (R.PPE_STEP_AMP n x), width := s.sWidth n x, route := r, len := s.lenOf n r
    watch := s.ports[n].watchPat, dark := s.rd (R.PPE_STEP_AMP n x) == 0, fresh := false, reseed := false
    slewing := s.on R.SYN_STAT_SLEWING, test := s.on (R.CDG_PORT_STAT_TEST n), tq := s.tq, seq := none, root := 0, ne := 0
    faded := 0, satn := 0, clip := false, sat := false, number := 0, gaps := 0 }

/-- The state follows the pattern at the first fetch of it that is not skipped (R119). For a RUN launch the lanes run at
full rate from 192 ticks before its stamp (R129). -/
def followPattern (s : State) (n : Fin 4) : State :=
  let st := if s.ports[n].watchPat then stWatch else stRun
  if s.pstate n = st then s
  else
    let s := if st = stRun then s.fullRate n (s.tbu.raw + 64) else s
    s.setPst n st

/-- The chirp of a course: it begins at the stamp plus SKEW (R60); LENGTH 0 gives none (R59). -/
def chirpOf (s : State) (n : Fin 4) (c : Course) : Option Chirp :=
  let len := s.synActive (R.SYN_CSY_CHIRP2_LENGTH (csyOf n) c.chirp)
  if len = 0 then none else some { stamp := c.stamp, begins := 2 * (c.raw : Int) + s.skew n, prof := c.chirp, len := len }

/-- At −256 ticks (R98, R99): the step is skipped while its slot is busy, and otherwise its course opens. A step of
calibration in progress is abandoned (R134). -/
def launchFetch (s : State) (n : Fin 4) : State :=
  if !s.fetching n then s
  else
    let s := s.fetchSwitch n
    let x := s.ports[n].step
    let t := s.tbu.raw + 256
    let rtt := s.rtt n (s.route n)
    if tooSoon (slotLast s.ports[n] (s.sSlot n x)) t rtt then
      ((s.count (R.PPE_SKIPS_COUNT n)).modPort n fun p => { p with nextRaw := some (t + s.sDelay n x) }).stepNext n x
    else
      let raman := s.on (R.PPE_STEP_RAMAN n x)
        && !tooSoon (s.ramanLast n) (t + s.rd (R.LDR_RM_CFG_RM_DELAY n)) rtt
      let s := (s.followPattern n).calAbandon n
      let s := if raman then s.calAbandon (4 + n) else s
      let c := s.courseOf n x
      let s := s.modPort n fun p =>
        { p with
          fetched := p.fetched ++ [{ course := c, raman := raman, bad := !s.bit R.SYN_STAT_LOCK 0, stage := 0, lost := false }]
          chirps := p.chirps ++ (s.chirpOf n c).toList
          nextRaw := some (t + s.sDelay n x) }
      (s.fetchCourse n c).stepNext n x

/-- Moves the first fetched launch of stage `k` to the next stage. -/
def stageUp (l : List Fetch) (k : Nat) : List Fetch :=
  match l with
  | [] => []
  | f :: r => if f.stage = k then { f with stage := k + 1 } :: r else f :: stageUp r k

/-- The first fetched launch of stage `k`. -/
def firstAt (l : List Fetch) (k : Nat) : Option Fetch := l.find? fun f => f.stage == k

/-- At −96 ticks the launch is committed (R98). -/
def noReturn (s : State) (n : Fin 4) : State := s.modPort n fun p => { p with fetched := stageUp p.fetched 0 }

/-- The present tick, in DDS clocks of elapsed time. -/
def ddsNow (s : State) : Int := 2 * (s.tbu.raw : Int)

/-- The chirp runs at the present tick (R59). -/
def chirpRuns (s : State) (c : Chirp) : Bool := decide (s.ddsNow < c.begins + 2 * (c.len : Int))

/-- A running chirp of an earlier launch is cut by the hop for the launch of stamp `next` (R61): the course whose chirp
it was is lost through CHECK. -/
def chirpCut (s : State) (n : Fin 4) (next : Nat) : State :=
  match s.syn.chirp[n] with
  | some c =>
    if c.stamp = next then s
    else
      let cut := s.chirpRuns c
      let s := s.modSyn fun y => { y with chirp := y.chirp.set n none }
      if cut then
        let s := (s.modSyn fun y => { y with tone := Arith.putBit y.tone n false }).ev R.SYN_EVENT_CHIRP_CUT n
        if s.launches n then s.modPort n fun p => { p with checkFail := p.checkFail ++ [c.stamp] } else s
      else s
  | none => s

/-- The distance of two phases on the circle, in units of 2^−48 of a cycle. -/
def phaseDist (a b : Nat) : Nat :=
  let d := (a + 2 ^ 48 - b % 2 ^ 48) % 2 ^ 48
  min d (2 ^ 48 - d)

/-- The check tone (R65) after a hop to slot `j`, with the measured phase of the channel. -/
def checkTone (s : State) (n : Fin 4) (j phase : Nat) (stamp : Nat) : State :=
  let k := csyOf n
  if !s.startLocked n || !s.syn.loaded.testBit k then s
  else
    let ok := decide (phaseDist phase (s.slotPhase n j s.now) ≤ s.rd (R.SYN_CSY_CTRL_CHK_WIN k) * 2 ^ 40)
    let s := (s.putBit R.SYN_STAT_CHK_OK n ok).modSyn fun y => { y with tone := Arith.putBit y.tone n ok }
    if ok then s
    else
      let s := s.ev R.SYN_EVENT_CHK_FAIL n
      if s.launches n then s.modPort n fun p => { p with checkFail := p.checkFail ++ [stamp] } else s

/-- At −64 ticks the carrier channel hops to the slot of the launch (R58). -/
def slotHop (s : State) (n : Fin 4) (phase : Nat) : State :=
  match firstAt s.ports[n].fetched 1 with
  | none => s
  | some f =>
    let s := s.chirpCut n f.course.stamp
    let s := (s.modPort n fun p => { p with fetched := stageUp p.fetched 1 }).modSyn fun y =>
      { y with slot := y.slot.set n f.course.slot }
    (s.emit (.ball "CAR" n f.course.slot)).checkTone n f.course.slot phase f.course.stamp

/-- Raman launch of a course, from its trigger to the end of its trace (R217). -/
def traceOf (c : Course) (bad : Bool) : Trace :=
  { stamp := c.stamp, raw := c.raw, tq := c.tq, slewing := c.slewing, watch := c.watch, route := c.route, len := c.len
    bad := bad, room := false }

/-- A chirp whose launch was planned for stamp `old` and takes place as course `c`. -/
def chirpMove (q : Chirp) (old : Nat) (c : Course) (was : Nat) : Chirp :=
  if q.stamp = old then { q with stamp := c.stamp, begins := q.begins + 2 * ((c.raw : Int) - was) } else q

/-- Tick 0 of a launch (R98): the gate current rises, the stamp is taken, and the launch is told to TDC and ACQ. -/
def launch (s : State) (n : Fin 4) : State :=
  match firstAt s.ports[n].fetched 2 with
  | none => s
  | some f =>
    let old := f.course.stamp
    let c := { f.course with stamp := s.now, raw := s.tbu.raw, tq := s.tq }
    let s := s.modPort n fun p =>
      { p with
        fetched := p.fetched.filter fun g => g != f
        courses := p.courses.map fun d =>
          if d.stamp = old then { d with stamp := c.stamp, raw := c.raw, tq := c.tq } else d
        checkFail := p.checkFail.map fun t => if t = old then c.stamp else t
        chirps := p.chirps.map fun q => chirpMove q old c f.course.raw
        ramans := if f.raman then p.ramans ++ [traceOf c f.bad] else p.ramans
        near := (p.near.filter fun d => decide (s.tbu.raw ≤ d.raw + 10 * d.len + 2500)) ++ [c]
        pulse := some c.amp, lastWatch := c.watch, lastRaw := some c.raw
        slotRaw := p.slotRaw.setIfInBounds c.slot (some c.raw)
        ramanRaw := if f.raman then some (c.raw + s.rd (R.LDR_RM_CFG_RM_DELAY n)) else p.ramanRaw
        runRaw := if c.watch then p.runRaw else some c.raw }
    let s := s.modSyn fun y => { y with chirp := y.chirp.set n (y.chirp[n].map fun q => chirpMove q old c f.course.raw) }
    let s := (s.count (R.PPE_LAUNCHES_COUNT n)).wr (R.PPE_LAST_STAMP_STAMP n) c.stamp
    let s := (s.wr (R.PPE_STAT_STEP n) c.step).emit (.ball "GATE" n c.amp)
    let s := s.showQuiet n
    let s := s.tdcRef (8 + n) (s.tick 0)
    s.presentSrc 4 (some n.val) (fun i =>
      s.rd (R.ACQ_TIN_MATCH i) == 0xFFF || s.rd (R.ACQ_TIN_MATCH i) == c.step) c.stamp

/-- The chirp of a launch begins at the tick of its stamp plus SKEW, which a negative SKEW puts before the stamp (R59,
R60): the first chirp to come, once its DDS clock lies in the present tick or before it. -/
def chirpStart (s : State) (n : Fin 4) : State :=
  match s.ports[n].chirps with
  | [] => s
  | c :: r =>
    if c.begins ≤ s.ddsNow + 1 then
      ((s.modPort n fun p => { p with chirps := r }).modSyn fun y => { y with chirp := y.chirp.set n (some c) }).emit
        (.ball "CHIRP" n c.prof)
    else s

/-- TRIG_RMn rises for RM_WIDTH ticks (R101); the trace of the launch is to come. -/
def ramanTrigger (s : State) (n : Fin 4) : State :=
  match s.ports[n].ramans with
  | [] => s
  | t :: r =>
    let w := s.rd (R.LDR_RM_CFG_RM_WIDTH n)
    let s := s.modPort n fun p => { p with ramans := r, trigEnd := some (s.tbu.raw + w) }
    (s.modRrx n fun x => { x with waiting := x.waiting ++ [t] }).emit (.ball "TRIG_RM" n w)

/-- The gate current falls WIDTH ticks after the stamp (R98). -/
def gateEnd (s : State) (n : Fin 4) : State :=
  match s.ports[n].pulse with
  | none => s
  | some _ => ((s.modPort n fun p => { p with pulse := none }).emit (.ball "GATE" n 0)).showQuiet n

/-! ### Gate checks (R100) -/

/-- A current is commanded at GATEn. -/
def pulsing (s : State) (n : Fin 4) (least : Nat) : Bool :=
  match s.ports[n].pulse with
  | some a => decide (least ≤ a)
  | none => false

def gateOpen (s : State) (n : Fin 4) : State :=
  if !s.pulsing n 1 then s
  else if s.on (R.LDR_CTRL_OPEN_EN n) then s.gateTrip n fGateOpen
  else s.put (R.LDR_GATE_SEEN_OPEN n) true

/-- A pulse below 20 mA, or one that ends within 20 ns, is never a short. -/
def gateShort (s : State) (n : Fin 4) : State :=
  if !s.pulsing n 20 || s.sWidth n (s.rd (R.PPE_STAT_STEP n)) < 25 then s
  else if s.on (R.LDR_CTRL_SHORT_EN n) then s.gateTrip n fGateShort
  else s.put (R.LDR_GATE_SEEN_SHORT n) true

/-! ### Bias (R102) -/

/-- BIASn moves, or is to move, to its code: LDR_BIAS.BUSY, until the output has reached CODE. -/
def biasShow (s : State) (n : Fin 4) : State :=
  let p := s.ports[n]
  s.put (R.LDR_BIAS_BUSY n) (p.biasTo.isSome || p.biasOut != s.rd (R.LDR_BIAS_CODE n))

/-- The output begins to move to CODE, from where it stands. -/
def biasGo (s : State) (n : Fin 4) : State :=
  let v := s.rd (R.LDR_BIAS_CODE n)
  s.modPort n fun p => { p with biasWait := 0, biasTo := if p.biasTo.isNone && p.biasOut == v then none else some v }

/-- A write of LDR_BIAS: what the new code waits for. A move in progress goes on until the new code's turn comes. -/
def biasWrite (s : State) (n : Fin 4) (code slew : Nat) : State :=
  let st := s.pstate n
  let s := (s.wr (R.LDR_BIAS_CODE n) code).wr (R.LDR_BIAS_SLEW n) (if slew = 0 then 1 else slew)
  let s :=
    if st = stIdle || st = stHalted then s.biasGo n
    else s.modPort n fun p => { p with biasWait := if st = stDraining then 2 else if st = stStarting then 3 else 1 }
  s.biasShow n

/-- A code that waits begins to move: at the stamp of the first step of the pattern, at the first launch of a start, or
in IDLE or HALTED. -/
def biasMove (s : State) (n : Fin 4) : State :=
  let p := s.ports[n]
  let st := s.pstate n
  let stamp := p.lastRaw == some s.tbu.raw
  let first := p.biasWait = 3 && stamp || p.biasWait = 1 && stamp && s.rd (R.PPE_STAT_STEP n) == s.patFirst n p.lastWatch
  if p.biasWait != 0 && (st = stIdle || st = stHalted || first) then s.biasGo n else s

/-- The output has reached the code that it moves to. -/
def biasSettled (s : State) (n : Fin 4) : State :=
  match s.ports[n].biasTo with
  | none => s
  | some v => ((s.modPort n fun p => { p with biasOut := v, biasTo := none }).biasShow n).emit (.ball "BIAS" n v)

/-! ### Near end (R116) -/

/-- The near-end power of a course is known: stored, given to its header, and held against the threshold (R116, R146). -/
def neResult (s : State) (n : Fin 4) (c : Course) (power : Nat) : State :=
  let mark (d : Course) : Course := if d.stamp = c.stamp then { d with ne := power } else d
  let s := s.wr (R.LDR_NE_LAST_POWER n) power
  let s := s.modPort n fun p =>
    { p with
      near := p.near.filter fun d => d.stamp != c.stamp
      courses := p.courses.map mark
      outq := p.outq.map fun i => match i with
        | .course d => .course (mark d)
        | .gap g => .gap g }
  if power < s.rd (R.LDR_NE_THRESH_POWER n) then
    (s.lastLaunch n c.stamp).trip fun m => if m = n then fFibre else 0
  else s

/-- The near-end window of the launched course of stamp `t` has ended: `xs` are the codes of its lanes, from 128 ticks
before its stamp on. -/
def neReport (s : State) (n : Fin 4) (t : Nat) (xs : List Codes) : State :=
  let a := s.rd (R.LDR_NE_CFG_NE_START n)
  let b := s.rd (R.LDR_NE_CFG_NE_END n)
  if !s.on (R.LDR_NE_CFG_EN n) || b < a then s
  else
    match s.ports[n].near.find? fun c => c.stamp == t with
    | some c => s.neResult n c (s.nePower n c xs a b)
    | none => s

/-! ### The ends of a drain and of WATCH -/

/-- RTT ticks after the last launch stamp (R119). -/
def drainEnd (s : State) (n : Fin 4) : State :=
  if s.pstate n = stDraining && s.ports[n].fetched.isEmpty then s.portDown n stIdle else s

/-- No privileged zone of the port with a waking threshold set is in ARMING, ALARM or CLEARING (R432). -/
def watchQuiet (s : State) (n : Fin 4) : Bool :=
  !s.bit R.EVE_WAKE_REQ n
    && s.eve.alarms.all fun e =>
      e.2.port != n.val || s.rd (R.EVE_ZSTAT_STATE e.1) == zIdle || s.tset (R.EVE_TSET_WAKE e.1) == 0

/-- A port in RUN goes to WATCH after its quiet time (R432). -/
def watchReturn (s : State) (n : Fin 4) : State :=
  if s.sys.mode = 3 && s.pstate n = stRun && s.watchQuiet n && s.ports[n].switch != some true then
    (s.modPort n fun p => { p with switch := some true }).ev R.PWR_EVENT_WATCH_RETURN
  else s

/-- Asks port `n` for its RUN pattern (R119, R433). -/
def wakePort (s : State) (n : Fin 4) : State :=
  if s.pstate n = stWatch && s.ports[n].switch != some false then
    (s.modPort n fun p => { p with switch := some false }).ev R.PWR_EVENT_WAKE
  else s

/-- The governor grants a wake request. -/
def wake (s : State) (n : Fin 4) : State := if s.bit R.EVE_WAKE_REQ n then s.wakePort n else s

end Sys2Proof.Machine.State

namespace Sys2Proof.Machine
open Sys2Proof

def execLaunchFetch (n : Fin 4) (s : State) : Out := .next (s.launchFetch n)
def execPointOfNoReturn (n : Fin 4) (s : State) : Out := .next (s.noReturn n)
/-- `phase`: the measured phase of the channel in units of 2^−48 of a cycle. -/
def execSlotHop (n : Fin 4) (phase : BitVec 48) (s : State) : Out := .next (s.slotHop n phase.toNat)
def execLaunch (n : Fin 4) (s : State) : Out := .next (s.launch n)
def execChirpStart (n : Fin 4) (s : State) : Out := .next (s.chirpStart n)
def execRamanTrigger (n : Fin 4) (s : State) : Out := .next (s.ramanTrigger n)
def execGatePulseEnd (n : Fin 4) (s : State) : Out := .next (s.gateEnd n)
def execGateOpen (n : Fin 4) (s : State) : Out := .next (s.gateOpen n)
def execGateShort (n : Fin 4) (s : State) : Out := .next (s.gateShort n)
def execBiasWrite (n : Fin 4) (code : BitVec 16) (slew : BitVec 15) (s : State) : Out :=
  .next (s.gate 0x80004 fun s => s.biasWrite n code.toNat slew.toNat)
def execBiasMoveStart (n : Fin 4) (s : State) : Out := .next (s.biasMove n)
def execBiasSettled (n : Fin 4) (s : State) : Out := .next (s.biasSettled n)
/-- `stamp`: the launch stamp of the course; `xs`: the codes of its lanes. -/
def execNeReport (n : Fin 4) (stamp : DWord) (xs : List Codes) (s : State) : Out := .next (s.neReport n stamp.toNat xs)
def execDrainEnd (n : Fin 4) (s : State) : Out := .next (s.drainEnd n)
def execWatchReturn (n : Fin 4) (s : State) : Out := .next (s.watchReturn n)
def execWake (n : Fin 4) (s : State) : Out := .next (s.wake n)

end Sys2Proof.Machine
end

