-- ==== Sys2Proof/Machine/Rmd.lean ====
section
/-! DEFINITION. The route matrix driver: row slots, diagnosis and scans (R103 to R108, R514), the scans that route
changes, starts and CLEAR wait for (R107, R109, R118, R516), forced elements (R111) and the interlock inputs (R113). -/

namespace Sys2Proof.Machine.State
open Sys2Proof Arith

def modRmd (s : State) (f : Rmd → Rmd) : State := { s with rmd := f s.rmd }

/-- The elements that routes ask for: ON masks of active routes of ports that are not IDLE and of routes being applied
(R104). -/
def routeWants (s : State) : Nat :=
  (List.finRange 4).foldl (fun (m : Nat) (n : Fin 4) =>
    let m := if s.pstate n = stIdle then m else m ||| s.routeOn n (s.route n)
    match s.applying n with
    | some r => m ||| s.routeOn n r
    | none => m) 0

/-- Element `e` is to be driven, its row permitting (R104). -/
def wanted (s : State) (e : Nat) : Bool :=
  let f := s.rd (R.RMD_ELEM_FORCE e)
  f == 2 || (f == 0 && s.routeWants.testBit e)

/-- The row of element `e` is removed from drive (R514). -/
def rowGone (s : State) (e : Nat) : Bool := s.rmd.removed.testBit (e / 8)

/-- The elements of a row. -/
def rowElems (r : Nat) : List Nat := (List.range 8).map fun c => 8 * r + c

/-- The drive phase of element `e` in an ordinary row slot, in ns, truncated at its end (R103). -/
def plainPhase (s : State) (e : Nat) : Nat :=
  min (250 * s.rd (R.RMD_ELEM_ON_TIME e)) (250 * s.rd R.RMD_SCAN_CTRL_ROW_SLOT - 10 * s.rd R.RMD_SCAN_CTRL_PRECHG)

/-- The drive phase of element `e` is extended to 4 µs in this scan (R107). -/
def extended (s : State) (e : Nat) : Bool :=
  s.rmd.ext.testBit e && !s.on (R.RMD_ELEM_DIAG_FORBID e) && decide (250 * s.rd (R.RMD_ELEM_ON_TIME e) < 4000)

/-- By how much the row slot of row `r` lengthens in this scan: by the longest extension of its driven elements. -/
def slotGrowth (s : State) (r : Nat) : Nat :=
  ((rowElems r).map fun e => if s.rmd.driven.testBit e && s.extended e then 4000 - s.plainPhase e else 0).foldl max 0

/-- The drive phase of element `e` in this scan, in ns (R103, R107). -/
def drivePhase (s : State) (e : Nat) : Nat :=
  if s.extended e then 4000
  else
    min (250 * s.rd (R.RMD_ELEM_ON_TIME e))
      (250 * s.rd R.RMD_SCAN_CTRL_ROW_SLOT + s.slotGrowth (e / 8) - 10 * s.rd R.RMD_SCAN_CTRL_PRECHG)

/-- The column of element `e` or its row has shorted in this scan. -/
def shorted (s : State) (e : Nat) : Bool := s.rmd.shortRows.testBit (e / 8) || s.rmd.shortCols.testBit (e % 8)

/-- The result of element `e`, with what a change and a fault of it do (R106, R108). -/
def setElem (s : State) (e st : Nat) : State :=
  let s := if s.rd (R.RMD_ELEM_STATE e) = st then s
    else (s.wr (R.RMD_ELEM_STATE e) st).ev R.RMD_ILK_EVENT_ELEM_CHANGE
  if 3 ≤ st then s.elemTrip e else s

/-- A scan begins (R107, R109, R118): its extensions are fixed, selections of IDLE ports become active, and the ports
that wait for a scan take this one; a start whose route only now becomes active settles again (R516). -/
def scanBegin (s : State) : State :=
  let clear := s.rmd.clearAsked
  let s := s.modRmd fun m => { m with
    scanning := true, row := 0, ext := if s.rd R.RMD_SCAN_COUNT_COUNT % 256 = 0 then 2 ^ 64 - 1 else m.want, want := 0
    removed := if clear then 0 else m.removed, shortRows := 0, shortCols := 0, driven := 0, sampled := 0
    clearAsked := false, clearing := clear }
  (List.finRange 4).foldl (fun (s : State) (n : Fin 4) =>
    let k := s.ports[n].routeStage
    let s :=
      if k = 7 then
        let new := s.ports[n].routeNew
        ((s.wr (R.RMD_ROUTE_STAT_ACTIVE n) new).modPort n fun p => { p with routeStage := 8 }).zonShow
      else if k = 2 then s.modPort n fun p => { p with routeStage := 3 }
      else if k = 4 then s.modPort n fun p => { p with routeStage := 6 }
      else if k = 9 then s.modPort n fun p => { p with routeStage := 10 }
      else s
    if s.pstate n = stStarting && s.ports[n].startStage = 4 then
      s.modPort n fun p => { p with startStage := if k = 7 then 3 else 7 }
    else s) s

/-- Row `r` is driven: the elements of it that are to be on, and the balls (R103, R514). -/
def driveRow (s : State) (r : Nat) : State :=
  if s.rmd.removed.testBit r then s
  else
    let on := (rowElems r).filter s.wanted
    let s := s.modRmd fun m => { m with driven := m.driven ||| (on.map fun e => 2 ^ e).sum }
    let s := s.emit (.ball "MROW" r ((on.map fun e => 2 ^ (e % 8)).sum))
    on.foldl (fun (s : State) e => if s.shorted e then s.setElem e 4 else s) s

/-- The next row slot begins (R103); behind row 7 the scan has to end first. -/
def rowSlot (s : State) : State :=
  if !s.on R.RMD_SCAN_CTRL_EN then s
  else if !s.rmd.scanning then s.scanBegin.driveRow 0
  else if s.rmd.row < 7 then
    let r := s.rmd.row + 1
    (s.modRmd fun m => { m with row := r }).driveRow r
  else s

/-- Element `e` is driven in the row slot in progress. -/
def drivenNow (s : State) (e : Nat) : Bool :=
  s.rmd.scanning && s.rmd.row == e / 8 && s.rmd.driven.testBit e && !s.rowGone e

/-- The column current 4 µs into the drive phase of an element (R106). -/
def diagSample (s : State) (e mA : Nat) : State :=
  if !s.drivenNow e || s.drivePhase e < 4000 || s.rmd.sampled.testBit e then s
  else
    let s := s.modRmd fun m => { m with sampled := Arith.putBit m.sampled e true }
    if s.shorted e then s else s.setElem e (if s.rd R.RMD_DIAG_OPEN_TH ≤ mA then 1 else 3)

/-- The current of the driven row (R106, R514): above ILIM the row is removed from drive at once. -/
def rowShort (s : State) (mA : Nat) : State :=
  let r := s.rmd.row
  if !s.rmd.scanning || s.rmd.removed.testBit r || mA ≤ s.rd R.RMD_DIAG_ILIM then s
  else
    let s := (s.modRmd fun m => { m with
      removed := Arith.putBit m.removed r true, shortRows := Arith.putBit m.shortRows r true }).emit (.ball "MROW" r 0)
    ((rowElems r).filter fun e => s.rmd.driven.testBit e).foldl (fun (s : State) e => s.setElem e 4) s

/-- A column below 1.0 V during pre-charge (R106, R514). -/
def columnShort (s : State) (c : Nat) : State :=
  if !s.rmd.scanning then s
  else
    let s := s.modRmd fun m => { m with shortCols := Arith.putBit m.shortCols c true }
    ((List.range 8).map fun r => 8 * r + c).foldl (fun (s : State) e =>
      if s.rmd.driven.testBit e then s.setElem e 4 else s) s

/-- The result of an element at the end of a scan: one that was driven too briefly, was kept from drive, or was not to
be driven (R106, R514). -/
def elemEnd (s : State) (e : Nat) : State :=
  if s.rmd.driven.testBit e then
    if s.shorted e || s.rmd.sampled.testBit e then s else s.setElem e 2
  else if s.wanted e && s.rowGone e then s.setElem e 5
  else s.setElem e 0

/-- Every element whose drive phase reaches 4 µs has been sampled. -/
def scanSampled (s : State) : Bool :=
  (elems s.rmd.driven).all fun e => s.shorted e || s.rmd.sampled.testBit e || decide (s.drivePhase e < 4000)

/-! ### CLEAR (R118) -/

/-- OTHER clears when no port holds any other cause. -/
def clearOther (s : State) : State :=
  if (List.range 4).all fun n => s.faults n &&& (63 - fOther) == 0 then
    (List.range 4).foldl (fun (s : State) n => s.setFaults n fOther false) s
  else s

/-- The LDR_FAULT of the ports in one word, as ILK_CLEAR gives it. -/
def faultWord (s : State) : Nat := ((List.range 4).map fun n => s.faults n * 2 ^ (8 * n)).sum

/-- The end of a CLEAR: the outputs, and the replies to ILK_CLEAR commands that wait. -/
def clearEnd (s : State) : State :=
  let s := s.clearOther.showIlk
  let l := s.rmd.clearWait
  let s := s.modRmd fun m => { m with clearWait := [] }
  l.foldl (fun (s : State) p => s.reply p OK 0 0 [s.faultWord]) s

/-- CLEAR: what clears at once, and the scan that the rest waits for. Rows that are out of drive get their clearing scan
also while no route-element fault is latched (DESIGN CHOICE, log entry 72). -/
def ilkCtrlClear (s : State) : State :=
  let m := fGateOpen + fGateShort + fFibre + if s.loopClosed then fLoop else 0
  let s := (List.range 4).foldl (fun (s : State) n => s.setFaults n m false) s
  let held : List (Fin 4) := (List.finRange 4).filter fun n => s.faults n &&& fRoute != 0
  if s.on R.RMD_SCAN_CTRL_EN && (!held.isEmpty || s.rmd.removed != 0) then
    let ext := held.foldl (fun (m : Nat) (n : Fin 4) => m ||| s.routeOn n (s.route n)) 0
    (s.modRmd fun m => { m with clearAsked := true, want := m.want ||| ext }).clearOther.showIlk
  else s.clearEnd

/-- The clearing scan has ended: route-element faults clear whose elements all read OK or UNVERIFIED. -/
def clearScan (s : State) : State :=
  let s := (List.finRange 4).foldl (fun (s : State) (n : Fin 4) =>
    if s.elemsPass (s.routeOn n (s.route n)) true then s.setFaults n fRoute false else s) s
  s.clearEnd

/-- A scan of the eight row slots completes (R107), and what waited for it is judged (R109, R118, R516). -/
def scanEnd (s : State) : State :=
  if !s.rmd.scanning || s.rmd.row != 7 || !s.scanSampled then s
  else
    let s := (List.range 64).foldl elemEnd s
    let clear := s.rmd.clearing
    let s := (s.bump R.RMD_SCAN_COUNT_COUNT).modRmd fun m =>
      { m with scanning := false, clearing := false, ext := 0, shortRows := 0, shortCols := 0 }
    let s := (List.finRange 4).foldl (fun (s : State) (n : Fin 4) => s.showVerified n) s
    let s := (List.finRange 4).foldl (fun (s : State) (n : Fin 4) =>
      let k := s.ports[n].routeStage
      let s :=
        if k = 6 then s.routeJudge n
        else if k = 10 then
          (s.put (R.RMD_ROUTE_STAT_BUSY n) false).modPort n fun p => { p with routeStage := 0 }
        else s
      if s.pstate n = stStarting && s.ports[n].startStage = 7 then
        if s.elemsPass (s.routeOn n (s.route n)) (s.on R.RMD_ILK_CTRL_ALLOW_UNVERIFIED) then
          (s.modPort n fun p => { p with startStage := 5 }).startAdvance n
        else s.startFail n E_ROUTE 0
      else s) s
    if clear then s.clearScan else s

/-- A write of RMD_SCAN_CTRL.EN (R107): a start that waits for a scan fails when scanning stops (R516), a CLEAR does
not wait (R118), and no element is driven any longer. -/
def scanEnable (s : State) (en : Bool) : State :=
  if s.on R.RMD_SCAN_CTRL_EN == en then s
  else if en then
    ((s.put R.RMD_SCAN_CTRL_EN true).wr R.RMD_SCAN_COUNT_COUNT 0).modRmd fun m => { m with scanning := false }
  else
    let waits := s.rmd.clearAsked || s.rmd.clearing
    let s := (s.put R.RMD_SCAN_CTRL_EN false).modRmd fun m =>
      { m with scanning := false, clearAsked := false, clearing := false, ext := 0, shortRows := 0, shortCols := 0 }
    let s := (List.range 64).foldl (fun (s : State) e => s.setElem e 0) s
    let s := (List.finRange 4).foldl (fun (s : State) (n : Fin 4) => s.showVerified n) s
    let s := (List.finRange 4).foldl (fun (s : State) (n : Fin 4) =>
      let s := s.modPort n fun p =>
        { p with routeStage := if p.routeStage = 6 then 4 else if p.routeStage = 10 then 9 else p.routeStage }
      let k := s.ports[n].startStage
      if s.pstate n = stStarting && (k = 3 || k = 4 || k = 7) then s.startFail n E_ROUTE 0 else s) s
    if waits then s.clearEnd else s

/-! ### Route changes -/

/-- RTT after the last launch on the old route (R109 step 2): the Raman buffer of that route closes, and the change
waits for the next scan. -/
def routeDrainEnd (s : State) (n : Fin 4) : State :=
  if s.ports[n].routeStage = 1 && s.ports[n].fetched.isEmpty then
    (s.rrxRouteEnd n).modPort n fun p => { p with routeStage := 2 }
  else s

/-- SETTLE µs have passed (R109 step 4, R516): the next whole scan extends the changed elements, or at a start those of
the route. -/
def routeSettleEnd (s : State) (n : Fin 4) : State :=
  let p := s.ports[n]
  if s.pstate n = stStarting && p.startStage = 3 then
    (s.modPort n fun p => { p with startStage := 4 }).modRmd fun m => { m with want := m.want ||| s.routeOn n (s.route n) }
  else if p.routeStage = 3 || p.routeStage = 8 then
    let new := s.routeOn n p.routeNew
    let ext := if p.routeStage = 3 then s.routeOn n (s.route n) ^^^ new else new
    (s.modPort n fun p => { p with routeStage := p.routeStage + 1 }).modRmd fun m => { m with want := m.want ||| ext }
  else s

/-- A write that changes the FORCE of an element (R104, R111). -/
def elemForce (s : State) (e v : Nat) : State :=
  let v := if v % 4 = 3 then 0 else v % 4
  if s.rd (R.RMD_ELEM_FORCE e) = v then s
  else
    let s := s.wr (R.RMD_ELEM_FORCE e) v
    (List.finRange 4).foldl (fun (s : State) (n : Fin 4) =>
      if s.pstate n != stIdle && (s.routeOn n (s.route n)).testBit e then s.cause n causeRoute else s) s

end Sys2Proof.Machine.State

namespace Sys2Proof.Machine
open Sys2Proof

def execRowSlotStart (s : State) : Out := .next s.rowSlot
/-- `mA`: the column current of element `e`. -/
def execDiagSample (e : Fin 64) (mA : Byte) (s : State) : Out := .next (s.diagSample e mA.toNat)
/-- `mA`: the current of the driven row. -/
def execRowShort (mA : Byte) (s : State) : Out := .next (s.rowShort mA.toNat)
def execColumnShort (c : Fin 8) (s : State) : Out := .next (s.columnShort c)
def execScanEnd (s : State) : Out := .next s.scanEnd
def execScanEnable (en : Bool) (s : State) : Out :=
  .next (s.gate 0x90000 fun s => s.scanEnable en)
def execRouteSelWrite (n : Fin 4) (i : Fin 16) (s : State) : Out :=
  .next (s.gate (0x83200 + 0x4000 * n.val) fun s => s.routeWrite n i)
def execRouteDrainEnd (n : Fin 4) (s : State) : Out := .next (s.routeDrainEnd n)
def execRouteSettleEnd (n : Fin 4) (s : State) : Out := .next (s.routeSettleEnd n)
def execElemForceWrite (e : Fin 64) (force : BitVec 2) (s : State) : Out :=
  .next (s.gate 0x90100 fun s => s.elemForce e force.toNat)
def execIlkInLow (s : State) : Out :=
  let s := s.modSys fun y => { y with ilkIn := false }
  .next (if s.domOn dCORE then (s.put R.RMD_ILK_STAT_ILK_IN false).loopTry else s)
def execIlkInHigh (s : State) : Out :=
  let s := s.modSys fun y => { y with ilkIn := true }
  .next (if s.domOn dCORE then (s.put R.RMD_ILK_STAT_ILK_IN true).loopOpen else s)
def execLoopQualified (s : State) : Out :=
  .next (if s.rd R.RMD_ILK_STAT_LOOP = 1 then (s.wr R.RMD_ILK_STAT_LOOP 2).showIlk else s)
def execSwStopWrite (b : Bool) (s : State) : Out :=
  .next (s.gate 0x90004 fun s => s.swStop b)
def execIlkCtrlClear (s : State) : Out :=
  .next (s.gate 0x90004 fun s => s.ilkCtrlClear)

end Sys2Proof.Machine
end

