-- ==== Sys2Proof/Machine/Cdg.lean ====
section
/-! DEFINITION. The coherent digitiser: overload counts (R130), rate (R129), ready (R125), quiet input (R132),
calibration steps (R133, R134) and test patterns (R136). -/

namespace Sys2Proof.Machine.State
open Sys2Proof Arith

/-- A code of lane `k` of port `n` (R130): a clip at full scale, which ACQ sees too (R296), a warning from WARN_TH
on. -/
def laneCode (s : State) (n : Fin 4) (k : Nat) (code : Int) : State :=
  if !s.portOn n then s
  else
    let s :=
      if atScale code then
        let s := if s.rd (R.CDG_LANE_CLIP_COUNT n k) = 0 then s.wr (R.CDG_LANE_FIRST_CLIP_STAMP n k) s.now else s
        ((s.count (R.CDG_LANE_CLIP_COUNT n k)).ev R.CDG_EVENT_CLIP (4 * n + k)).presentSrc 8 (some n.val) (fun _ => true)
          s.now
      else s
    if s.rd (R.CDG_PORT_WARN_WARN_TH n) ≤ code.natAbs then s.count (R.CDG_LANE_WARNCNT_COUNT n k) else s

/-- The input clamp of a lane engages (R130). -/
def hardOverload (s : State) (n : Fin 4) (k : Nat) : State :=
  if !s.portOn n || (s.eraNow n).hovl.testBit k then s
  else
    ((s.era n fun e => { e with hovl := Arith.putBit e.hovl k true }).count (R.CDG_LANE_HOVL_COUNT n k)).ev
      R.CDG_EVENT_HARD_OVL n

/-- 4 ticks after the input has returned within ±0.4 V. -/
def hardOverloadEnd (s : State) (n : Fin 4) (k : Nat) : State :=
  s.era n fun e => { e with hovl := Arith.putBit e.hovl k false }

/-- RTT ticks have passed since the last RUN launch of the port, and none is fetched. -/
def runOver (s : State) (n : Fin 4) : Bool :=
  let p := s.ports[n]
  (p.fetched.all fun f => f.course.watch) && match p.runRaw with
    | some t => decide (t + s.rtt n (s.route n) ≤ s.tbu.raw)
    | none => true

/-- The lanes of a watching port drop to reduced rate (R129). -/
def rateReduce (s : State) (n : Fin 4) : State := if s.pstate n = stWatch && s.runOver n then s.reducedRate n else s

/-- The input stage has settled and the selections are loaded (R125). -/
def cdgReady (s : State) (n : Fin 4) : State :=
  if s.portOn n then
    (s.modPort n fun p => { p with cdgReady := true, cdgForce := s.mgt.cdgSel[n] }).put (R.CDG_PORT_STAT_READY n) true
  else s

/-- Every lane reads at most QUIET_TH. -/
def lanesQuiet (s : State) (rms : List Nat) : Bool := rms.all fun r => decide (r ≤ s.rd R.CDG_CTRL_QUIET_TH)

/-- A window of the lanes of a port ends (R132): RMS and mean of each, over the last 2^(QUIET_WIN + 6) samples of the
codes that the converters gave up to now. -/
def quietWindow (s : State) (n : Fin 4) (xs : List Codes) : State :=
  let l := s.laneSpread n xs (2 ^ (s.rd R.CDG_CTRL_QUIET_WIN + 6))
  let s := (l.zip (List.range 4)).foldl (fun (s : State) (e : (Nat × Int) × Nat) =>
    (s.wr (R.CDG_LANE_RMS_RMS n e.2) (satNat 16 e.1.1)).wrS (R.CDG_LANE_RMS_MEAN n e.2) e.1.2) s
  (s.modPort n fun p => { p with quietSeen := true }).showQuiet n

/-- The RMS and mean of both Raman channels over the last 1,024 converter samples (R236). -/
def ramanQuiet (s : State) (n : Fin 4) (xs : List (BitVec 14 × BitVec 14)) : State :=
  let l := (xs.reverse.take 1024).map fun x => (x.1.toInt, x.2.toInt)
  let show_ (s : State) (c : Nat) (v : Nat × Int) : State :=
    (s.wr (R.RRX_PORT_CH_RMS_RMS n c) (satNat 16 v.1)).wrS (R.RRX_PORT_CH_RMS_MEAN n c) v.2
  let s := show_ (show_ s 0 (Trig.spread (l.map Prod.fst))) 1 (Trig.spread (l.map Prod.snd))
  (s.modRrx n fun r => { r with quietSeen := true }).showRamanQuiet n

/-- A step of a digitiser pass may start at this tick (R133). The rule names no next launch for a port that is STARTING,
ROUTING or DRAINING: none starts in the first two, and in DRAINING one starts once the last course is over (DESIGN CHOICE,
log entry 79). -/
def cdgStepFits (s : State) (n : Fin 4) : Bool :=
  let st := s.pstate n
  let p := s.ports[n]
  if st = stIdle || st = stHalted then true
  else if st = stRun || st = stWatch then
    s.launchOver n && p.fetched.isEmpty
      && match p.nextRaw with
        | some t => decide (s.tbu.raw + 5376 ≤ t)
        | none => false
  else if st = stDraining then s.launchOver n && p.fetched.isEmpty
  else false

/-- Plumb starts a step of the pass of port `n`. -/
def cdgStepStart (s : State) (n : Fin 4) : State :=
  if s.mgt.calRun = some n.val && !s.mgt.calIn && s.portOn n && s.cdgStepFits n then
    let s := if s.mgt.calStep = 0 then s.modPort n fun p => { p with cdgTrial := [] } else s
    { s with mgt := { s.mgt with calIn := true } }
  else s

/-- A pass fails: 1 not quiet, 2 no slice (R134). -/
def cdgFail (s : State) (n : Fin 4) (kind : Nat) : State :=
  let s := (s.modPort n fun p => { p with cdgTrial := [] }).wr (R.CDG_PORT_STAT_CAL_RESULT n) 2
  (s.ev R.CDG_EVENT_CAL_FAIL n).calEnd n kind

/-- The quiet check of a step (R132), over its 256 samples of each lane. -/
def cdgQuietEnd (s : State) (n : Fin 4) (xs : List Codes) : State :=
  if s.mgt.calRun = some n.val && s.mgt.calIn && !s.lanesQuiet ((s.laneSpread n xs 256).map Prod.fst) then s.cdgFail n 1
  else s

/-- A step ends (R134): 0 within limits, with the slice or tap chosen for its unit on each lane; 1 not quiet; 2 no slice.
After the last step the new selections take effect together, and Chadihus keeps a copy (R125). -/
def cdgStepEnd (s : State) (n : Fin 4) (kind : Nat) (sel : List Nat) : State :=
  if s.mgt.calRun != some n.val || !s.mgt.calIn then s
  else if kind != 0 then s.cdgFail n kind
  else
    let pick := (List.range 4).map fun k => sel.getD k 0 % (if s.mgt.calStep < 8 then 4 else 64)
    let s := s.modPort n fun p => { p with cdgTrial := p.cdgTrial ++ [pick] }
    let s := { s with mgt := { s.mgt with calIn := false, calStep := s.mgt.calStep + 1 } }
    if s.mgt.calStep < 16 then s
    else
      let s := { s with mgt := { s.mgt with cdgSel := s.mgt.cdgSel.set n s.ports[n].cdgTrial } }
      let s := (s.modPort n fun p => { p with cdgTrial := [], cdgForce := p.cdgTrial }).wr (R.CDG_PORT_STAT_CAL_RESULT n) 1
      ((s.put (R.CDG_PORT_STAT_CAL_STALE n) false).wr (R.CDG_PORT_CAL_STAMP_STAMP n) s.now).calEnd n 0

/-- A PRBS-15 word of a lane differs from the copy of the checker (R136). -/
def prbsError (s : State) (n : Fin 4) (k : Nat) : State :=
  if s.rd (R.CDG_LANE_CFG_TEST n k) != 5 then s
  else
    let s := s.count (R.CDG_LANE_PRBS_ERR_COUNT n k)
    if s.ports[n].prbsSeen.testBit k then s
    else (s.modPort n fun p => { p with prbsSeen := Arith.putBit p.prbsSeen k true }).ev R.CDG_EVENT_PRBS_ERR n

/-- A write of CDG_LANEl_CFG (R128, R136). -/
def laneCfgWritten (s : State) (n : Fin 4) (k : Nat) : State :=
  let t := s.rd (R.CDG_LANE_CFG_TEST n k)
  let s := if t = 3 || t = 7 then s.wr (R.CDG_LANE_CFG_TEST n k) 0 else s
  let s := s.modPort n fun p => { p with prbsSeen := Arith.putBit p.prbsSeen k false }
  if s.portOn n then
    (s.put (R.CDG_PORT_STAT_TEST n) ((List.range 4).any fun j => s.rd (R.CDG_LANE_CFG_TEST n j) != 0)).linkLane n
      (Fin.ofNat 4 k)
  else s

end Sys2Proof.Machine.State

namespace Sys2Proof.Machine
open Sys2Proof

def execSampleClip (n k : Fin 4) (code : BitVec 12) (s : State) : Out := .next (s.laneCode n k code.toInt)
def execHardOverload (n k : Fin 4) (s : State) : Out := .next (s.hardOverload n k)
def execHardOverloadEnd (n k : Fin 4) (s : State) : Out := .next (s.hardOverloadEnd n k)
def execRateReduce (n : Fin 4) (s : State) : Out := .next (s.rateReduce n)
def execCdgReady (n : Fin 4) (s : State) : Out := .next (s.cdgReady n)
/-- The codes of the four lanes up to now, oldest first, and those of the two Raman channels, which have no row of their
own. -/
def execQuietWindowEnd (n : Fin 4) (xs : List Codes) (ram : List (BitVec 14 × BitVec 14)) (s : State) : Out :=
  .next (if s.portOn n then (s.quietWindow n xs).ramanQuiet n ram else s)
def execCdgCalStepStart (n : Fin 4) (s : State) : Out := .next (s.cdgStepStart n)
/-- `xs`: the codes of the lanes up to now. -/
def execCdgQuietCheckEnd (n : Fin 4) (xs : List Codes) (s : State) : Out := .next (s.cdgQuietEnd n xs)
def execCdgCalStepEnd (n : Fin 4) (kind : Fin 3) (sel : List Nat) (s : State) : Out := .next (s.cdgStepEnd n kind sel)
def execPrbsError (n k : Fin 4) (s : State) : Out := .next (s.prbsError n k)

end Sys2Proof.Machine
end

