-- ==== Sys2Proof/Machine/Course.lean ====
section
/-! DEFINITION. The events of the course pipeline, ZON, FDC and EVE, with what waits for them: starts and route changes
(R165, R183), and the replies of ZONE_COMMIT, ZONE_DISCARD and GROUP_INDEX (R417). -/

namespace Sys2Proof.Machine.State
open Sys2Proof Arith

/-- The command that waited for the end of BUSY has its reply. -/
def zonReply (s : State) (c : Option CheckFail) (result : List Nat) : State :=
  match s.zon.waiter with
  | none => s
  | some p =>
    let s := { s with zon := { s.zon with waiter := none } }
    match c with
    | some c => s.reply p c.2.2 (checkDetail c)
    | none => s.reply p OK 0 0 result

/-- The recomputation of a group index ends (R169). -/
def ngRecomputed (s : State) : State :=
  if s.zon.busy != 3 then s
  else
    let (s, c) := s.ngDone
    (s.zonReply c []).advanceAll

/-- A commit ends (R181). -/
def zoneCommitted (s : State) : State :=
  if s.zon.busy != 1 then s
  else
    let (s, c) := s.commitDone
    (s.zonReply c [s.rd R.ZON_STAT_GEN % 65536]).advanceAll

/-- A discard ends (R518). -/
def zoneDiscarded (s : State) : State := if s.zon.busy != 2 then s else (s.discardDone.zonReply none []).advanceAll

/-- The next course comes to stage 6: its codes pass stages 1 to 5 (R138) and its visit begins. -/
def courseVisit (s : State) (n : Fin 4) (xs : List Codes) (ecc : Ecc) : State :=
  match s.nextVisit n with
  | some c => s.visitStart n (s.demod n c xs) ecc
  | none => s

/-- After an event of the pipeline of port `n`: its FDC may settle (R203) and its start go on (R165). -/
def pipeNext (s : State) (n : Fin 4) : State := (s.fdcSettle n).startAdvance n

end Sys2Proof.Machine.State

namespace Sys2Proof.Machine
open Sys2Proof

/-- `xs`: the codes of the lanes, from 128 ticks before the stamp of the course on; `ecc`: what the phase-state SRAM
shows. -/
def execCourseVisitStart (n : Fin 4) (xs : List Codes) (ecc : Ecc) (s : State) : Out := .next (s.courseVisit n xs ecc)
def execCourseCommit (n : Fin 4) (s : State) : Out := .next ((s.courseCommit n).pipeNext n)
def execMonitorCause (n : Fin 4) (s : State) : Out := .next ((s.monitorCause n).pipeNext n)
def execReleaseStart (n : Fin 4) (ecc : Ecc) (s : State) : Out := .next (s.releaseStart n ecc)
def execReleaseEnd (n : Fin 4) (s : State) : Out := .next ((s.releaseEnd n).pipeNext n)
def execZonNgWrite (n : Fin 4) (ng : BitVec 24) (s : State) : Out :=
  .next (s.gate 0x160100 fun s => s.zonNgWrite n ng.toNat)
def execNgRecomputeDone (s : State) : Out := .next s.ngRecomputed
def execZonCtrlCommit (s : State) : Out :=
  .next (s.gate 0x160000 fun s => s.zonCtrl true false)
def execZoneCommitDone (s : State) : Out := .next s.zoneCommitted
def execZonCtrlDiscard (s : State) : Out :=
  .next (s.gate 0x160000 fun s => s.zonCtrl false true)
def execZoneDiscardDone (s : State) : Out := .next s.zoneDiscarded
def execZonCourse (n : Fin 4) (s : State) : Out := .next (s.zonCourse n)
def execFdcCourse (n : Fin 4) (ecc : Ecc) (s : State) : Out := .next (s.fdcCourse n ecc)
def execFdcGap (n : Fin 4) (s : State) : Out := .next ((s.fdcGap n).fdcSettle n)
def execFdcSync (n : Fin 4) (s : State) : Out :=
  .next (s.gate 0x180000 fun s => s.fdcSync n)
/-- `bad`: the frame itself shows an uncorrectable error; `ecc`: what the detector states show. -/
def execEveFrame (n : Fin 4) (bad : Bool) (ecc : Ecc) (s : State) : Out := .next (s.eveFrame n bad ecc)
def execThresholdCommit (i : Byte) (s : State) : Out :=
  .next (s.gate 0x1A1000 fun s => s.tsetCommit i.toNat)
def execWakeCancel (mask : BitVec 4) (s : State) : Out :=
  .next (s.gate 0x1A0010 fun s => s.wakeCancel mask.toNat)

end Sys2Proof.Machine
end

