-- ==== Sys2Proof/Machine/Crypto.lean ====
section
/-! DEFINITION. SHA-384 (FIPS 180-4) and the verification of an ECDSA signature on curve P-384 (FIPS 186-5), which R443
names for the images. Their constants are those of the two standards (log entry 22). -/

namespace Sys2Proof.Machine
open Sys2Proof Arith

namespace Crypto

/-- The primes below 410, of which there are eighty. -/
def primes : List Nat :=
  (List.range 410).filter fun n => decide (1 < n) && (List.range n).all fun d => decide (d < 2) || n % d != 0

/-- The largest number of at most 72 bits whose power `e` is at most `v`. -/
def rootOf (e v : Nat) : Nat :=
  (List.range 72).foldl (fun r i => if (r + 2 ^ (71 - i)) ^ e ≤ v then r + 2 ^ (71 - i) else r) 0

/-- The first 64 bits of the fraction of the root of order `e` of `p`. -/
def rootBits (e p : Nat) : Nat := rootOf e (p * 2 ^ (64 * e)) % 2 ^ 64

/-- The round constants: from the cube roots of the first eighty primes. -/
def shaK : List Nat := primes.map (rootBits 3)

/-- The initial hash value: from the square roots of the ninth to the sixteenth prime. -/
def shaInit : List Nat := ((primes.drop 8).take 8).map (rootBits 2)

def ror (x n : Nat) : Nat := (x >>> n ||| x <<< (64 - n)) % 2 ^ 64

def bigEndian (l : List Nat) : Nat := l.foldl (fun a b => 256 * a + b % 256) 0

/-- The message schedule, newest word first. -/
def schedule : Nat → List Nat → List Nat
  | 0, w => w
  | k + 1, w =>
    let x := w.getD 14 0
    let y := w.getD 1 0
    let s0 := ror x 1 ^^^ ror x 8 ^^^ x >>> 7
    let s1 := ror y 19 ^^^ ror y 61 ^^^ y >>> 6
    schedule k ((w.getD 15 0 + s0 + w.getD 6 0 + s1) % 2 ^ 64 :: w)

/-- The working words as two registers that shift by a word a round: the upper half and the lower, newest first. -/
abbrev Halves := List Nat × List Nat

/-- One round, with a round constant and a word of the schedule. -/
def shaRound (v : Halves) (kw : Nat × Nat) : Halves :=
  let up (i : Nat) : Nat := v.1.getD i 0
  let lo (i : Nat) : Nat := v.2.getD i 0
  let mix (x i j k : Nat) : Nat := ror x i ^^^ ror x j ^^^ ror x k
  let chosen := lo 2 ^^^ (lo 0 &&& (lo 1 ^^^ lo 2))
  let most := (up 0 &&& (up 1 ||| up 2)) ||| (up 1 &&& up 2)
  let t := lo 3 + mix (lo 0) 14 18 41 + chosen + kw.1 + kw.2
  ((t + mix (up 0) 28 34 39 + most) % 2 ^ 64 :: v.1.take 3, (up 3 + t) % 2 ^ 64 :: v.2.take 3)

/-- The big-endian words of a block, newest first. -/
def blockWords (l : List Nat) : List Nat := ((List.range 16).map fun i => bigEndian ((l.drop (8 * i)).take 8)).reverse

def shaBlock (h block : List Nat) : List Nat :=
  let w := (schedule 64 (blockWords block)).reverse
  let v := (shaK.zip w).foldl shaRound (h.take 4, h.drop 4)
  (h.zip (v.1 ++ v.2)).map fun x => (x.1 + x.2) % 2 ^ 64

def shaBlocks : Nat → List Nat → List Nat → List Nat
  | 0, h, _ => h
  | k + 1, h, l => shaBlocks k (shaBlock h (l.take 128)) (l.drop 128)

/-- The SHA-384 of a list of bytes, as a number of 384 bits. -/
def sha384 (l : List Nat) : Nat :=
  let n := l.length
  let pad := (239 - n % 128) % 128
  let m := l ++ 128 :: List.replicate pad 0 ++ ((List.range 16).map fun i => (8 * n) >>> (8 * (15 - i)) % 256)
  ((shaBlocks (m.length / 128) shaInit m).take 6).foldl (fun a w => a * 2 ^ 64 + w) 0

/-! ### The curve -/

def prime : Nat := 2 ^ 384 - 2 ^ 128 - 2 ^ 96 + 2 ^ 32 - 1
def order : Nat :=
  0xffffffffffffffffffffffffffffffffffffffffffffffffc7634d81f4372ddf581a0db248b0a77aecec196accc52973
def curveB : Nat :=
  0xb3312fa7e23ee7e4988e056be3f82d19181d9c6efe8141120314088f5013875ac656398d8a2ed19d2a85c8edd3ec2aef
def baseX : Nat :=
  0xaa87ca22be8b05378eb1c71ef320ad746e1d3b628ba79b9859f741e082542a385502f25dbf55296c3a545e3872760ab7
def baseY : Nat :=
  0x3617de4a96262c6f5d9e98bf9292dc29f8f41dbd289a147ce9da3113b5f0b8c00a60b1ce1d7e819d7a431d7c90ea0e5f

/-- A point of the curve, none at infinity. -/
abbrev CurvePoint := Option (Nat × Nat)

/-- x to the power of the number whose bits are given, most significant first, modulo m. -/
def powBits (m x : Nat) : List Bool → Nat → Nat
  | [], a => a
  | b :: r, a => powBits m x r (if b then a * a % m * x % m else a * a % m)

def bitsOf384 (k : Nat) : List Bool := ((List.range 384).map k.testBit).reverse

/-- The inverse modulo the prime m. -/
def inverse (m x : Nat) : Nat := powBits m x (bitsOf384 (m - 2)) 1

def pointAdd : CurvePoint → CurvePoint → CurvePoint
  | none, q => q
  | p, none => p
  | some (a, b), some (c, d) =>
    if a = c && (b + d) % prime = 0 then none
    else
      let l := if a = c then (3 * a * a + prime - 3) * inverse prime (2 * b % prime) % prime
        else (d + prime - b) * inverse prime ((c + prime - a) % prime) % prime
      let x := (l * l + 2 * prime - a - c) % prime
      some (x, (l * (a + prime - x) + prime - b) % prime)

def pointMul (k : Nat) (p : CurvePoint) : CurvePoint :=
  (bitsOf384 k).foldl (fun r b =>
    let r := pointAdd r r
    if b then pointAdd r p else r) none

def onCurve (x y : Nat) : Bool :=
  decide (x < prime) && decide (y < prime) && (y * y + 3 * x) % prime == (x * x * x + curveB) % prime

/-- The signature (r, s) of the hash e verifies under the public key (x, y). -/
def ecdsaOk (x y r s e : Nat) : Bool :=
  onCurve x y && decide (0 < r) && decide (r < order) && decide (0 < s) && decide (s < order) &&
    let w := inverse order s
    match pointAdd (pointMul (e * w % order) (some (baseX, baseY))) (pointMul (r * w % order) (some (x, y))) with
    | none => false
    | some (v, _) => v % order == r

end Crypto
end Sys2Proof.Machine
end

