-- ==== Sys2Proof/Machine/Deflate.lean ====
section
/-! DEFINITION. The DEFLATE stream of a tile (R319, R320, R322): the shadow decoder of RFC 1951, the encoder with its
search for matches and its choice of blocks, and the stored blocks of a re-emission. -/

namespace Sys2Proof.Machine.Deflate
open Sys2Proof Arith

/-- The bits of a list of bytes, each from its bit 0. -/
def bits (l : List Nat) : List Bool := l.flatMap fun b => (List.range 8).map b.testBit

/-- The next `n` bits as a number, the first the least significant. -/
def take (n : Nat) (l : List Bool) : Option (Nat × List Bool) :=
  if l.length < n then none
  else some ((l.take n).foldr (fun b v => 2 * v + ofBool b) 0, l.drop n)

/-- The canonical code of a list of code lengths: length, code and symbol. -/
def code (lens : List Nat) : List (Nat × Nat × Nat) :=
  ((List.range 15).foldl (fun (a : Nat × List (Nat × Nat × Nat)) i =>
    let syms := (List.range lens.length).filter fun s => lens.getD s 0 == i + 1
    (2 * (a.1 + syms.length), a.2 ++ (List.range syms.length).map fun j => (i + 1, a.1 + j, syms.getD j 0)))
    (0, [])).2

/-- The next symbol of a code, at most `k` bits long; `n` bits with value `c` are read. -/
def symbol (tab : List (Nat × Nat × Nat)) : Nat → Nat → Nat → List Bool → Option (Nat × List Bool)
  | 0, _, _, _ => none
  | _ + 1, _, _, [] => none
  | k + 1, n, c, b :: r =>
    let c := 2 * c + ofBool b
    match tab.find? fun e => e.1 == n + 1 && e.2.1 == c with
    | some e => some (e.2.2, r)
    | none => symbol tab k (n + 1) c r

/-- The values at which the symbols of a table begin, from the first on, where each has so many extra bits. -/
def bases : Nat → List Nat → List Nat
  | _, [] => []
  | v, e :: r => v :: bases (v + 2 ^ e) r

/-- Extra bits of the 29 length symbols; the last stands for 258 alone. -/
def lenExtra : List Nat := (List.range 28).map (fun i => (i - 4) / 4) ++ [0]
def lenBase : List Nat := bases 3 (lenExtra.take 28) ++ [258]

/-- Extra bits of the 30 distance symbols. -/
def distExtra : List Nat := (List.range 30).map fun i => (i - 2) / 2
def distBase : List Nat := bases 1 distExtra

/-- Appends `n` bytes that stand `d` back; `out` has the last byte first. -/
def copy (d : Nat) : Nat → List Nat → Option (List Nat)
  | 0, out => some out
  | n + 1, out =>
    match out[d - 1]? with
    | some b => if d = 0 then none else copy d n (b :: out)
    | none => none

/-- The symbols of a block up to its end-of-block code. -/
def body (lit dist : List (Nat × Nat × Nat)) : Nat → List Bool → List Nat → Option (List Bool × List Nat)
  | 0, _, _ => none
  | k + 1, l, out => do
    let (s, l) ← symbol lit 15 0 0 l
    if s < 256 then body lit dist k l (s :: out)
    else if s = 256 then some (l, out)
    else
      let base ← lenBase[s - 257]?
      let ex ← lenExtra[s - 257]?
      let (x, l) ← take ex l
      let (t, l) ← symbol dist 15 0 0 l
      let db ← distBase[t]?
      let (y, l) ← take (distExtra.getD t 0) l
      let out ← copy (db + y) (base + x) out
      body lit dist k l out

/-- Code lengths of a dynamic block, `n` of them. -/
def lengths (tab : List (Nat × Nat × Nat)) (n : Nat) : Nat → List Bool → List Nat → Option (List Bool × List Nat)
  | 0, _, _ => none
  | k + 1, l, out =>
    if n ≤ out.length then (if out.length = n then some (l, out) else none)
    else do
      let (s, l) ← symbol tab 7 0 0 l
      if s < 16 then lengths tab n k l (out ++ [s])
      else if s = 16 then
        let (x, l) ← take 2 l
        let p ← out.getLast?
        lengths tab n k l (out ++ List.replicate (3 + x) p)
      else
        let (x, l) ← take (if s = 17 then 3 else 7) l
        lengths tab n k l (out ++ List.replicate ((if s = 17 then 3 else 11) + x) 0)

def clOrder : List Nat := [16, 17, 18, 0, 8, 7, 9, 6, 10, 5, 11, 4, 12, 3, 13, 2, 14, 1, 15]

/-- The codes of a dynamic block. -/
def dynamic (l : List Bool) : Option (List Bool × List (Nat × Nat × Nat) × List (Nat × Nat × Nat)) := do
  let (hlit, l) ← take 5 l
  let (hdist, l) ← take 5 l
  let (hclen, l) ← take 4 l
  let (raw, l) ← take (3 * (hclen + 4)) l
  let cl := (List.range 19).map fun s =>
    match clOrder.findIdx? (· == s) with
    | some i => if i < hclen + 4 then slice raw (3 * i) 3 else 0
    | none => 0
  let (l, ls) ← lengths (code cl) (hlit + 257 + hdist + 1) 400 l []
  some (l, code (ls.take (hlit + 257)), code (ls.drop (hlit + 257)))

def fixedLit : List Nat :=
  List.replicate 144 8 ++ List.replicate 112 9 ++ List.replicate 24 7 ++ List.replicate 8 8
def fixedDist : List Nat := List.replicate 30 5

/-- Blocks up to the last; `pos` is the length of the whole stream in bits. -/
def blocks (pos : Nat) : Nat → List Bool → List Nat → Option (List Nat)
  | 0, _, _ => none
  | k + 1, l, out => do
    let (final, l) ← take 1 l
    let (typ, l) ← take 2 l
    let (l, out) ←
      if typ = 0 then do
        let l := l.drop ((8 - (pos - l.length) % 8) % 8)
        let (n, l) ← take 16 l
        let (m, l) ← take 16 l
        if n + m != 65535 then none
        else
          let (v, l) ← take (8 * n) l
          some (l, (leBytes n v).reverse ++ out)
      else if typ = 1 then body (code fixedLit) (code fixedDist) (l.length + 1) l out
      else if typ = 2 then do
        let (l, a, b) ← dynamic l
        body a b (l.length + 1) l out
      else none
    if final = 1 then (if l.length < 8 && l.all (!·) then some out.reverse else none) else blocks pos k l out

/-- What the shadow decoder reads from a body (R322). -/
def inflate (l : List Nat) : Option (List Nat) :=
  let b := bits (l.map (· % 256))
  blocks b.length (b.length + 1) b []

/-- A payload as stored blocks of up to 65,535 bytes. -/
def stored : Nat → List Nat → List Nat
  | 0, _ => []
  | k + 1, l =>
    let n := min 65535 l.length
    let last := decide (l.length ≤ 65535)
    [ofBool last] ++ leBytes 2 n ++ leBytes 2 (65535 - n) ++ l.take n ++ if last then [] else stored k (l.drop n)

/-! ### The encoder (R319, R320) -/

/-- Something that a block carries: a literal byte, or a length of at least 3 and a distance. -/
abbrev Item := Nat × Nat

/-- A literal: its byte, and no distance. -/
def literal (b : Nat) : Item := (b, 0)

/-- How many bytes, at most `n`, agree from `i` and from `j` on. -/
def agree (p : Array Nat) : Nat → Nat → Nat → Nat
  | 0, _, _ => 0
  | n + 1, i, j => if p.getD i 0 = p.getD j 0 then agree p n (i + 1) (j + 1) + 1 else 0

/-- The chain of the three bytes at `i`. -/
def chain (p : Array Nat) (i : Nat) : BitVec 15 := Config.lzHash (p.getD i 0) (p.getD (i + 1) 0) (p.getD (i + 2) 0)

/-- The distances of the candidates of `i`: the newest earlier places of its chain, at most `level` (R320). -/
def candidates (p : Array Nat) (level i : Nat) : List Nat :=
  (((List.range (min i 32768)).map (· + 1)).filter fun d => chain p (i - d) == chain p i).take level

/-- The match found at `i` for a block that ends before `stop`: the longest, and of equal ones the nearest (R320). -/
def match_ (p : Array Nat) (level stop i : Nat) : Option Item :=
  if stop < i + 3 then none
  else
    (candidates p level i).foldl (fun (m : Option Item) d =>
      let n := agree p (min 258 (stop - i)) i (i - d)
      if n < 3 then m
      else
        match m with
        | some x => if x.1 < n then some (n, d) else m
        | none => some (n, d)) none

/-- The literals and matches of the payload from `i` to `stop`; with `lazy_` a match gives way to a longer one at the next
byte (R320). -/
def items (p : Array Nat) (level : Nat) (lazy_ : Bool) (stop : Nat) : Nat → Nat → List Item
  | 0, _ => []
  | k + 1, i =>
    if stop ≤ i then []
    else
      match match_ p level stop i with
      | none => literal (p.getD i 0) :: items p level lazy_ stop k (i + 1)
      | some m =>
        if lazy_ && (match_ p level stop (i + 1)).any fun x => decide (m.1 < x.1) then
          literal (p.getD i 0) :: items p level lazy_ stop k (i + 1)
        else m :: items p level lazy_ stop k (i + m.1)

/-- A number in `n` bits, the least significant first. -/
def number (n v : Nat) : List Bool := (List.range n).map v.testBit

/-- The code of a symbol, its most significant bit first. -/
def codeBits (tab : List (Nat × Nat × Nat)) (sym : Nat) : List Bool :=
  match tab.find? fun e => e.2.2 == sym with
  | some e => (List.range e.1).map fun k => e.2.1.testBit (e.1 - 1 - k)
  | none => []

/-- The last of rising bases that is at most `v`. -/
def baseOf (l : List Nat) (v : Nat) : Nat := (l.filter fun b => decide (b ≤ v)).length - 1

/-- The bits of one item in given codes. -/
def itemBits (lit dist : List (Nat × Nat × Nat)) (x : Item) : List Bool :=
  if x.2 = 0 then codeBits lit x.1
  else
    let a := baseOf lenBase x.1
    let b := baseOf distBase x.2
    codeBits lit (257 + a) ++ number (lenExtra.getD a 0) (x.1 - lenBase.getD a 0)
      ++ codeBits dist b ++ number (distExtra.getD b 0) (x.2 - distBase.getD b 0)

/-- A fixed block behind its BTYPE. -/
def fixedBits (l : List Item) : List Bool :=
  let lit := code fixedLit
  let dist := code fixedDist
  l.flatMap (itemBits lit dist) ++ codeBits lit 256

/-- A stored block behind its BTYPE, when its header begins `pos` bits into the stream. -/
def storedBits (pos : Nat) (l : List Nat) : List Bool :=
  List.replicate ((8 - (pos + 3) % 8) % 8) false ++ number 16 l.length ++ number 16 (65535 - l.length)
    ++ l.flatMap (number 8)

/-- These bits carry the block `l` in codes of their own, behind the bytes `out` (last first). -/
def carries (b : List Bool) (out l : List Nat) : Bool :=
  match dynamic b with
  | none => false
  | some (r, lit, dist) => body lit dist (r.length + 1) r out == some ([], l.reverse ++ out)

/-- A block: the shortest of the three types, of equal ones stored before fixed before dynamic (R319). -/
def block (pos : Nat) (final : Bool) (out l : List Nat) (xs : List Item) : List Bool :=
  let s := storedBits pos l
  let f := fixedBits xs
  let d := Config.dynamicBits xs
  let least := min s.length f.length
  if carries d out l && decide (d.length < least) then [final, false, true] ++ d
  else if s.length ≤ f.length then [final, false, false] ++ s
  else [final, true, false] ++ f

/-- The blocks of the payload from byte `i` on, behind the bits `b`. -/
def encodeFrom (p : Array Nat) (level : Nat) (lazy_ : Bool) : Nat → Nat → List Bool → List Bool
  | 0, _, b => b
  | k + 1, i, b =>
    let stop := min p.size (i + 16384)
    let l := (p.toList.drop i).take (stop - i)
    let b := b ++ block b.length (stop == p.size) (p.toList.take i).reverse l (items p level lazy_ stop (stop - i) i)
    if stop = p.size then b else encodeFrom p level lazy_ k stop b

/-- Bits packed into bytes, with zero bits to the byte boundary. -/
def pack : Nat → List Bool → List Nat
  | 0, _ => []
  | k + 1, b =>
    if b.isEmpty then []
    else (b.take 8).foldr (fun x v => 2 * v + ofBool x) 0 :: pack k (b.drop 8)

/-- The body of a payload at a LEVEL and LAZY. -/
def encode (level : Nat) (lazy_ : Bool) (l : List Nat) : List Nat :=
  let p := l.toArray
  let b := encodeFrom p level lazy_ (l.length / 16384 + 1) 0 []
  pack b.length b

end Sys2Proof.Machine.Deflate
end

