-- ==== Sys2Proof/Machine/Sco.lean ====
section
/-! DEFINITION. Scan-out: the image (R354), the renderer (R355 to R359), the display (R360 to R365), the frame base latch
(R366, R367), timing changes (R368), start and stop (R369, R370). -/

namespace Sys2Proof.Machine.State
open Sys2Proof Arith

def modSco (s : State) (f : Sco → Sco) : State := { s with sco := f s.sco }

def scoOff : Nat := 0
def scoRun : Nat := 1
def scoStopping : Nat := 2

def scoState (s : State) : Nat := s.rd R.SCO_STAT_STATE

/-! ### Pixels (R354) -/

/-- Bytes of a pixel. -/
def pixBytes (s : State) : Nat := 2 + s.rd R.SCO_PIX_FORMAT

/-- A 24-bit colour as the bytes of a pixel. -/
def pixelOf (s : State) (c : Nat) : List Nat :=
  let r := slice c 16 8
  let g := slice c 8 8
  let b := slice c 0 8
  let f := s.rd R.SCO_PIX_FORMAT
  if f = 0 then leBytes 2 (r / 8 * 2048 + g / 4 * 32 + b / 8) else if f = 1 then [b, g, r] else [b, g, r, 0]

/-- The 24-bit colour of a pixel's bytes: RGB565 fields replicate their top bits. -/
def colourOf (s : State) (l : List Nat) : Nat :=
  let v := ofLeBytes l
  if s.rd R.SCO_PIX_FORMAT = 0 then
    let r := slice v 11 5
    let g := slice v 5 6
    let b := slice v 0 5
    (r * 8 + r / 4) * 65536 + (g * 4 + g / 16) * 256 + (b * 8 + b / 4)
  else v % 2 ^ 24

/-- A timing field of a set under the keys of the shadow registers. -/
def tget (t : List (Nat × Nat)) (f : Field) : Nat := Bank.get t f.key f.reset

/-- The shadow timing registers (R368). -/
def scoShadow (s : State) : List (Nat × Nat) :=
  s.regs.filter fun e => decide (8 * 0x300040 ≤ e.1) && decide (e.1 < 8 * 0x300058)

def hact (s : State) : Nat := tget s.sco.timing R.SCO_HTIM0_HACT
def vact (s : State) : Nat := tget s.sco.timing R.SCO_VTIM0_VACT
def scoCmd (s : State) : Bool := tget s.sco.timing R.SCO_TCFG_CMD != 0

/-- The byte address of pixel `x` of image line `y`. -/
def pixAddr (s : State) (y x : Nat) : Nat := s.sco.base + s.rd R.SCO_FB_GEOM_STRIDE * y + s.pixBytes * x

def fbLines (s : State) : Nat := max 1 (s.rd R.SCO_FB_GEOM_FB_LINES)

/-- The colour of pixel `x` of active line `a` (R354, R362, R365, R368). -/
def panelPixel (s : State) (a x : Nat) : Nat :=
  if s.sco.failed || s.sco.under.any fun u => u.1 == a && decide (u.2 ≤ x) then s.rd R.SCO_COL_UNDER_RGB
  else if s.on R.SCO_STAT_BLACK then 0
  else s.colourOf (s.dramGet (s.pixAddr ((s.sco.top + a) % s.fbLines) x) s.pixBytes)

/-- Lines of a frame before its first active one. -/
def linesAhead (s : State) : Nat :=
  if s.scoCmd then tget s.sco.timing R.SCO_VTIM1_VSYNC + tget s.sco.timing R.SCO_VTIM1_VBP else 0

/-- The active line that line `l` of a frame is, counted from the start of the frame: its lines begin with the active ones
in video mode, with VSYNC and the back porch in command mode (R360, R363). -/
def activeLine (s : State) (l : Nat) : Option Nat :=
  if s.linesAhead ≤ l && l < s.linesAhead + s.vact then some (l - s.linesAhead) else none

/-- Levels of the panel balls. -/
structure PanelOut where
  (de hs vs : Bool)
  rgb : Nat
  deriving DecidableEq, Repr

/-- The panel balls at pixel clock `x` of line `l` of a frame (R360, R363): all low while SCO is OFF (R370). -/
def panelOut (s : State) (l x : Nat) : PanelOut :=
  if s.scoState = scoOff then { de := false, hs := false, vs := false, rgb := 0 }
  else
    let t := s.sco.timing
    let h0 := s.hact + tget t R.SCO_HTIM0_HFP
    let v0 := if s.scoCmd then 0 else s.vact + tget t R.SCO_VTIM0_VFP
    let hs := !s.scoCmd && decide (h0 ≤ x) && decide (x < h0 + tget t R.SCO_HTIM1_HSYNC)
    let vs := decide (v0 ≤ l) && decide (l < v0 + tget t R.SCO_VTIM1_VSYNC)
    let pol (f : Field) (b : Bool) : Bool := b == (tget t f != 0)
    match s.activeLine l with
    | some a =>
      { de := decide (x < s.hact), hs := pol R.SCO_TCFG_HPOL hs, vs := pol R.SCO_TCFG_VPOL vs
        rgb := if x < s.hact then s.panelPixel a x else 0 }
    | none => { de := false, hs := pol R.SCO_TCFG_HPOL hs, vs := pol R.SCO_TCFG_VPOL vs, rgb := 0 }

/-! ### Renderer -/

/-- The set in progress is finished: WR_LINE and R advance (R356). -/
def setFinish (s : State) : State :=
  match s.sco.cur with
  | none => s
  | some (_, rows, taken) =>
    (s.wr R.SCO_STAT_WR_LINE ((s.rd R.SCO_STAT_WR_LINE + taken) % s.fbLines)).modSco fun d =>
      { d with cur := none, seen := d.seen + rows }

/-- Undoes DELTA of one column. -/
def undelta (m : Nat) : Nat → List Nat → List Nat
  | _, [] => []
  | p, x :: r => (p + x) % m :: undelta m ((p + x) % m) r

/-- The elements of column `p` of a tile, row by row (R317, R318). -/
def columnOf (x : Tile) (p : Nat) : List Nat :=
  let b := if x.half then 2 else 4
  let base := 4 * x.rows + (x.w + 3) / 4 * 4
  let l := (List.range x.rows).map fun j =>
    ofLeBytes ((x.payload.drop (base + b * (if x.major then p * x.rows + j else j * x.w + p))).take b)
  if x.delta then undelta (2 ^ (8 * b)) 0 l else l

/-- The colour of an element (R357). -/
def elementColour (s : State) (half : Bool) (e : Nat) : Nat :=
  if !half && (e / 4 % 64) &&& s.rd R.SCO_PIX_FLAG_MASK != 0 then s.rd R.SCO_COL_FLAG_RGB
  else
    let v : Int := if half then toSigned 16 e else toSigned 24 (e / 256)
    let w : Int := if s.on R.SCO_PIX_MAG then v.natAbs else v
    let i := (w - toSigned 24 (s.rd R.SCO_OFFSET_VALUE)) / (2 ^ s.rd R.SCO_PIX_SHIFT : Nat)
    s.rd (R.SCO_LUT_RGB (min 255 (max 0 i)).toNat)

/-- Writes the pixels of column `p` (R357). -/
def drawColumn (s : State) (x : Tile) (p : Nat) : State :=
  let pt := x.point + p
  let x0 := s.rd R.SCO_XFIRST_VALUE % 2 ^ 19
  let d := max 1 (s.rd R.SCO_MAP_XDIV)
  let px := (pt - x0) / d
  if pt < x0 || (pt - x0) % d != 0 || s.hact ≤ px then s
  else
    let yd := max 1 (s.rd R.SCO_MAP_YDIV)
    ((columnOf x p).foldl (fun (acc : State × Nat × Nat) e =>
      let (s, j, u) := acc
      if (s.sco.seen + j) % yd != 0 then (s, j + 1, u)
      else
        let y := (s.rd R.SCO_STAT_WR_LINE + u) % s.fbLines
        (s.dramPut (s.pixAddr y px) (s.pixelOf (s.elementColour x.half e)), j + 1, u + 1)) (s, 0, 0)).1

/-- Renders a tile (R356). -/
def drawTile (s : State) (x : Tile) : State :=
  let s := match s.sco.cur with
    | some (f, _, _) => if f = x.first then s else s.setFinish
    | none => s
  let yd := max 1 (s.rd R.SCO_MAP_YDIV)
  let taken := ((List.range x.rows).filter fun j => (s.sco.seen + j) % yd == 0).length
  (List.range x.w).foldl (fun (s : State) p => s.drawColumn x p)
    (s.modSco fun d => { d with cur := some (x.first, x.rows, taken) })

/-- Draws the line of a GAP record (R358). -/
def drawGap (s : State) : State :=
  let s := s.setFinish
  let y := s.rd R.SCO_STAT_WR_LINE
  let s := (List.range s.hact).foldl (fun (s : State) x =>
    s.dramPut (s.pixAddr y x) (s.pixelOf (s.rd R.SCO_COL_GAP_RGB))) s
  s.wr R.SCO_STAT_WR_LINE ((y + 1) % s.fbLines)

/-- What stands for a tile that is not rendered: its rows, without columns. -/
def unrendered (x : Tile) : Tile := { x with w := 0, payload := [] }

/-- The tiles at the head of the queue that are not rendered: their rows are seen, and their lines passed over (R355,
R356). -/
def scoPass (s : State) : Nat → State
  | 0 => s
  | k + 1 =>
    match s.sco.queue with
    | .tile x :: r => if x.w = 0 then scoPass ((s.modSco fun d => { d with queue := r }).drawTile x) k else s
    | _ => s

/-- A tile or a GAP record joins the queue of the renderer. -/
def scoJoin (s : State) (x : EngItem) : State :=
  let s := s.modSco fun d => { d with queue := d.queue ++ [x] }
  s.scoPass s.sco.queue.length

/-- CMP passes on a tile of a definition with SCO at 1, or a GAP record of its tile stream (R322, R355, R358, R365). -/
def scoArrive (s : State) (n : Nat) (x : EngItem) : State :=
  let t := s.rd R.SCO_MAP_DEF
  if s.scoState = scoOff || s.sco.failed then s
  else
    match x with
    | .tile y =>
      if y.t != t then s
      else
        let held := (s.sco.queue.filter fun i => match i with
          | .tile x => x.w != 0
          | .gap _ => false).length
        if 2 ≤ held || s.memc.outage then
          ((s.count R.SCO_TILEDROP_COUNT).ev R.SCO_EVENT_TILE_DROP).scoJoin (.tile (unrendered y))
        else s.scoJoin x
    | .gap _ => if s.on R.SCO_MAP_MARK_GAP && s.rd (R.CMP_DEF_PORT t) = n then s.scoJoin x else s

/-- The renderer takes the tile at the head of its queue; its writes wait out an outage (R365). -/
def scoTile (s : State) : State :=
  match s.sco.queue with
  | .tile x :: r =>
    if s.memc.outage then s
    else ((s.modSco fun d => { d with queue := r }).drawTile x).scoPass r.length
  | _ => s

/-- The renderer takes the GAP record at the head of its queue. -/
def scoGap (s : State) : State :=
  match s.sco.queue with
  | .gap _ :: r =>
    if s.memc.outage then s else ((s.modSco fun d => { d with queue := r }).drawGap).scoPass r.length
  | _ => s

/-! ### Latches (R366 to R368) -/

/-- A write of 1 to COMMIT. -/
def scoCommit (s : State) : State :=
  (s.modSco fun d => { d with pend := some (s.rd R.SCO_FB_BASE_ADDR, s.rd R.SCO_FB_TOP_TOP) }).put R.SCO_STAT_PENDING true

/-- Check 2 of R369 on a set of timing. -/
def timingBad (t : List (Nat × Nat)) : Bool :=
  let h := tget t R.SCO_HTIM0_HACT
  let v := tget t R.SCO_VTIM0_VACT
  let f := tget t R.SCO_PCLK_FRAC
  h == 0 || decide (4096 < h) || v == 0 || decide (4096 < v) || tget t R.SCO_HTIM1_HSYNC == 0
    || tget t R.SCO_HTIM0_HFP == 0 || tget t R.SCO_HTIM1_HBP == 0 || tget t R.SCO_VTIM1_VSYNC == 0
    || tget t R.SCO_VTIM0_VFP == 0 || tget t R.SCO_VTIM1_VBP == 0 || decide (1000 * f < 5 * 2 ^ 24)
    || decide (165 * 2 ^ 24 < 1000 * f) || (tget t R.SCO_TCFG_CMD != 0 && tget t R.SCO_TCFG_TE_TIMEOUT == 0)

/-- A write of 1 to TCOMMIT (R368). -/
def scoTcommit (s : State) : State :=
  let t := s.scoShadow
  if timingBad t then s.ev R.SCO_EVENT_CFG_REJECT
  else if s.scoState = scoOff then s.modSco fun d => { d with timing := t }
  else (s.modSco fun d => { d with tpend := some t }).put R.SCO_STAT_TPENDING true

/-- A frame is on its way: always in video mode, and from a TE edge or timeout in command mode. -/
def frameOn (s : State) : Bool := s.scoState != scoOff && (!s.scoCmd || s.sco.sending)

/-- The first line of vertical blanking begins (R366, R367). -/
def vblankStart (s : State) : State :=
  if !s.frameOn then s
  else
    let auto := s.on R.SCO_MAP_AUTO_TOP
    let s := (s.wr R.SCO_STAT_LINE (s.linesAhead + s.vact)).put R.SCO_STAT_PANIC false
    if s.sco.pend.isNone && !auto then s
    else
      let w := ((((s.rd R.SCO_STAT_WR_LINE : Nat) : Int) - s.vact) % s.fbLines).toNat
      let s := s.modSco fun d =>
        { d with
          pend := none, base := (d.pend.map Prod.fst).getD d.base
          top := if auto then w else (d.pend.map Prod.snd).getD d.top }
      (s.put R.SCO_STAT_PENDING false).ev R.SCO_EVENT_LATCHED

/-- Scan-out is OFF: the balls go low, the hod is returned and the stop command is done; tiles that have arrived are
still rendered (R370). -/
def scoOffNow (s : State) : State :=
  let job := s.sco.stopJob
  let s := s.modSco fun d => { d with sending := false, delaying := false, stopJob := 0 }
  let s := (s.wr R.SCO_STAT_STATE scoOff).put R.SCO_STAT_BLACK false
  let s := ["PNL_DE", "PNL_HS", "PNL_VS", "PNL_D", "PNL_PCLK"].foldl (fun (s : State) b => s.emit (.ball b 0 0))
    ((s.wr R.SCO_STAT_LINE 0).put R.SCO_STAT_PANIC false)
  (s.releaseHods .sco).jobDone job

/-- The timing set that waits takes effect, and a black frame follows (R368). -/
def timingApply (s : State) : State :=
  match s.sco.tpend with
  | some t =>
    ((s.modSco fun d => { d with timing := t, tpend := none }).put R.SCO_STAT_TPENDING false).put R.SCO_STAT_BLACK true
  | none => s.put R.SCO_STAT_BLACK false

/-- The frame ends. -/
def frameEnd (s : State) : State :=
  if !s.frameOn then s
  else
    let s := ((s.modSco fun d => { d with sending := false, under := [] }).wr R.SCO_STAT_LINE 0).timingApply
    if s.scoState = scoStopping then s.scoOffNow else s

/-- The line buffer holds `level` bytes; `left` while an active line of the frame remains to be fetched (R364). -/
def lineBuffer (s : State) (level : Nat) (left : Bool) : State :=
  let go := s.frameOn && left && !s.sco.failed
  if go && decide (level < s.rd R.SCO_LB_URGENT) then s.put R.SCO_STAT_PANIC true
  else if !go || decide (s.rd R.SCO_LB_CALM ≤ level) then s.put R.SCO_STAT_PANIC false
  else s

/-- Active line `line` underruns at its pixel `x` (R365). The buffer is empty then (R364). -/
def lineUnderrun (s : State) (line x : Nat) : State :=
  if s.frameOn && decide (line < s.vact) && decide (x < s.hact) && s.sco.under.all fun u => u.1 != line then
    let s := s.modSco fun d => { d with under := d.under ++ [(line, x)] }
    let s := ((s.wr R.SCO_STAT_LINE (s.linesAhead + line)).count R.SCO_UNDERRUN_COUNT).ev R.SCO_EVENT_UNDERRUN
    s.lineBuffer 0 (decide (line + 1 < s.vact))
  else s

/-- A qualified edge of PNL_TE (R363). -/
def teEdge (s : State) (rising : Bool) : State :=
  if s.scoState = scoOff || !s.scoCmd || rising == (tget s.sco.timing R.SCO_TCFG_TEPOL != 0) then s
  else if s.sco.sending then s.count R.SCO_TE_CNT_EARLY
  else s.modSco fun d => { d with delaying := true }

/-- TE_DELAY line times after the edge the frame is sent. -/
def teDelayEnd (s : State) : State :=
  if s.sco.delaying && s.scoState != scoOff then s.modSco fun d => { d with delaying := false, sending := true } else s

/-- TE_TIMEOUT ms without an edge: a frame is sent anyway. -/
def teTimeout (s : State) : State :=
  if s.scoState = scoOff || !s.scoCmd || s.sco.sending || s.sco.delaying then s
  else ((s.modSco fun d => { d with sending := true }).count R.SCO_TE_CNT_MISS).ev R.SCO_EVENT_TE_MISS

/-! ### Start and stop (R369, R370) -/

/-- The checks of a start before its hod: status and number. -/
def scoCheck (s : State) : Nat × Nat :=
  let base := s.rd R.SCO_FB_BASE_ADDR
  let stride := s.rd R.SCO_FB_GEOM_STRIDE
  let lines := s.rd R.SCO_FB_GEOM_FB_LINES
  let hi := base + stride * lines
  if s.scoState != scoOff then (E_STATE, 1)
  else if timingBad s.sco.timing then (E_PARAM, 2)
  else if stride % 64 != 0 || stride < s.hact * s.pixBytes || lines < s.vact
      || !((decide (0x19000000 ≤ base) && decide (hi ≤ 0x21000000)) || (decide (acqArea ≤ base) && decide (hi ≤ s.capacity)))
      || s.rd R.SCO_LB_CALM ≤ s.rd R.SCO_LB_URGENT then (E_PARAM, 3)
  else if s.degraded then (E_DRAM, 4)
  else (OK, 0)

/-- The hod is granted: RUN with a black frame, base and TOP latched from the shadow. -/
def scoStart (s : State) (job : Nat) : State :=
  let s := s.modSco fun d =>
    { d with base := s.rd R.SCO_FB_BASE_ADDR, top := s.rd R.SCO_FB_TOP_TOP, sending := false
             delaying := false, startJob := 0, failed := s.degraded, under := [] }
  ((((s.wr R.SCO_STAT_STATE scoRun).put R.SCO_STAT_BLACK true).put R.SCO_STAT_PENDING false).jobRuns job).jobDone job

/-- A stop: OFF at the end of the frame, at once when none is being sent. -/
def scoStop (s : State) (job : Nat) : State :=
  let s := ((s.modSco fun d => { d with stopJob := job }).wr R.SCO_STAT_STATE scoStopping).jobRuns job
  if s.frameOn then s else s.timingApply.scoOffNow

/-- DRAM became DEGRADED (R365). -/
def scoDegraded (s : State) : State :=
  if s.scoState = scoOff then s
  else ((s.modSco fun d => { d with queue := [], failed := true }).put R.SCO_STAT_PANIC false).ev R.SCO_EVENT_FAIL

end Sys2Proof.Machine.State

namespace Sys2Proof.Machine
open Sys2Proof

def execScoTile (s : State) : Out := .next s.scoTile
def execScoGapRecord (s : State) : Out := .next s.scoGap
def execScoCommitWrite (s : State) : Out :=
  .next (s.gate 0x300000 fun s => s.scoCommit)
def execScoTcommitWrite (s : State) : Out :=
  .next (s.gate 0x300000 fun s => s.scoTcommit)
def execVblankStart (s : State) : Out := .next s.vblankStart
def execFrameEnd (s : State) : Out := .next s.frameEnd
/-- `x`: the pixel that is not in the buffer. -/
def execLineUnderrun (line x : BitVec 13) (s : State) : Out := .next (s.lineUnderrun line.toNat x.toNat)
def execPnlTeEdge (rising : Bool) (s : State) : Out := .next (s.teEdge rising)
def execTeDelayEnd (s : State) : Out := .next s.teDelayEnd
def execTeTimeout (s : State) : Out := .next s.teTimeout

end Sys2Proof.Machine
end

