-- ==== Sys2Proof/Machine/Cmp.lean ====
section
/-! DEFINITION. The compression engine: rows and the closing of tiles (R312 to R316), payloads (R317, R318), release and
verification (R321 to R324), starting and stopping (R325, R326). -/

namespace Sys2Proof.Machine.State
open Sys2Proof Arith

def modDef (s : State) (t : Fin 32) (f : TDef → TDef) : State :=
  { s with cmp := { s.cmp with defs := s.cmp.defs.set t (f s.cmp.defs[t]) } }

def modEng (s : State) (n : Fin 4) (f : Eng → Eng) : State :=
  { s with cmp := { s.cmp with engs := s.cmp.engs.set n (f s.cmp.engs[n]) } }

/-- Definition `t` is active. -/
def defOn (s : State) (t : Nat) : Bool := s.bit R.CMP_ACTIVE_DEF t

/-- The engine of definition `t`: that of its port. -/
def defEng (s : State) (t : Nat) : Fin 4 := Fin.ofNat 4 (s.rd (R.CMP_DEF_PORT t))

/-- The columns of a definition: first point and width of each (R312). -/
def columns (s : State) (t : Nat) : List (Nat × Nat) :=
  let count := s.rd (R.CMP_DEF_COUNT t)
  let w := max 1 (s.rd (R.CMP_DEF_WIDTH t))
  (List.range (ceilDiv count w)).map fun i => (i * w, min w (count - i * w))

/-- Bytes of an element. -/
def elemBytes (s : State) (t : Nat) : Nat := if s.on (R.CMP_DEF_HALF16 t) then 2 else 4

/-- U of a tile of `w` columns and `rows` rows (R317). -/
def payloadSize (b w rows : Nat) : Nat := 4 * rows + 4 * ((w + 3) / 4) + w * rows * b

/-- The set size of a definition (R325). -/
def setSize (s : State) (t : Nat) : Nat :=
  ((s.columns t).map fun c => payloadSize (s.elemBytes t) c.2 (s.rd (R.CMP_DEF_DEPTH t))).sum

/-! ### Payload (R317, R318) -/

/-- The element of a value. -/
def elementOf (s : State) (t x : Nat) : Nat :=
  if s.on (R.CMP_DEF_HALF16 t) then
    ofSigned 16 (satSigned 16 (toSigned 24 (x / 256) / (2 ^ s.rd (R.CMP_DEF_SHIFT t) : Nat)))
  else x % 2 ^ 32

/-- Differences along a column. -/
def deltas (m : Nat) : Nat → List Nat → List Nat
  | _, [] => []
  | p, x :: r => (x + m - p) % m :: deltas m x r

/-- The elements of the column of point index `p`, row by row. -/
def columnElems (s : State) (t : Nat) (rows : List TRow) (p : Nat) : List Nat :=
  let l := rows.map fun r => s.elementOf t (r.vals.getD p 0)
  if s.on (R.CMP_DEF_DELTA t) then deltas (2 ^ (8 * s.elemBytes t)) 0 l else l

/-- The flag byte of a column. -/
def columnFlags (rows : List TRow) (p : Nat) : Nat := rows.foldl (fun a r => a ||| (r.vals.getD p 0 % 256)) 0

/-- The payload of the column that starts at point index `o` and has `w` points. -/
def payloadOf (s : State) (t : Nat) (rows : List TRow) (o w : Nat) : List Nat :=
  let first := (rows.head?.map TRow.stamp).getD 0
  let cols := (List.range w).map fun p => s.columnElems t rows (o + p)
  let vals := if s.on (R.CMP_DEF_POINT_MAJOR t) then cols.flatten
    else (List.range rows.length).flatMap fun j => cols.map fun c => c.getD j 0
  rows.flatMap (fun r => leBytes 4 (stampSub r.stamp first))
    ++ (List.range ((w + 3) / 4 * 4)).map (fun p => if p < w then columnFlags rows (o + p) else 0)
    ++ vals.flatMap (leBytes (s.elemBytes t))

/-! ### Closing (R313 to R315) -/

def closeFull : Nat := 0
def closeFlush : Nat := 1
def closeGapCause : Nat := 2
def closeGen : Nat := 3
def closeMode : Nat := 4
def closeStop : Nat := 5
def closeSpan : Nat := 6
def closeLayout : Nat := 7

/-- The tile of one column of the open set. -/
def tileOf (s : State) (t : Fin 32) (col o w cause : Nat) : Tile :=
  let d := s.cmp.defs[t]
  let rows := d.rows
  let src0 := !s.on (R.CMP_DEF_SRC t)
  let fl := (List.range w).map fun p => columnFlags rows (o + p)
  { t := t, set := d.set, col := col, first := (rows.head?.map TRow.stamp).getD 0
    last := (rows.getLast?.map TRow.stamp).getD 0
    gen := if src0 then (rows.head?.map fun r => r.key.headD 0 % 65536).getD 0 else 0
    point := s.rd (R.CMP_DEF_FIRST t) + o, w := w, rows := rows.length, missed := satNat 16 d.missed, close := cause
    tq := (rows.map TRow.tq).foldl max 0, watch := (rows.head?.map TRow.watch).getD false
    slewing := rows.any TRow.slewing, settling := src0 && fl.any fun f => f.testBit 1
    gapfill := src0 && fl.any fun f => f.testBit 0, flagged := fl.any fun f => f / 4 % 64 != 0
    half := s.on (R.CMP_DEF_HALF16 t), major := s.on (R.CMP_DEF_POINT_MAJOR t), delta := s.on (R.CMP_DEF_DELTA t)
    payload := s.payloadOf t rows o w }

/-- Engine `n` begins the tile at the head of its queue, if it has none in hand (R320). -/
def engBegin (s : State) (n : Fin 4) : State :=
  let go : Bool := match s.cmp.engs[n].queue with
    | .tile _ :: _ => true
    | _ => false
  let set := (s.rd R.CMP_CTRL_LEVEL, s.on R.CMP_CTRL_LAZY)
  s.modEng n fun e => { e with begun := (e.begun <|> some set).filter fun _ => go, again := go && e.again }

/-- Shows QUEUE and RING of engine `n`, and BUSY, with the tile that it begins. -/
def showEng (s : State) (n : Fin 4) : State :=
  let s := s.engBegin n
  let q := s.cmp.engs[n].queue
  let busy := q.any fun i => match i with
    | .tile _ => true
    | .gap _ => false
  ((s.wr (R.CMP_ENG_QUEUE_LEVEL n) q.length).wr (R.CMP_ENG_RING_LEVEL n)
    (streamHeld (s.streams[(1 : Fin 7)]).queue 1 n)).putBit R.CMP_STAT_BUSY n busy

/-- GAP records at the head of an engine's queue are released (R315, R321). -/
def engGaps (s : State) (n : Fin 4) : Nat → State
  | 0 => s
  | k + 1 =>
    match s.cmp.engs[n].queue with
    | .gap g :: r =>
      let s := s.modEng n fun e => { e with queue := r }
      let s := s.offer 1
        { port := n, rtype := 2, stamp := s.now, body := bytesOfWords (gapWords g), lane := n, slot := 0 }
      engGaps ((s.scoArrive n (.gap g)).showEng n) n k
    | _ => s

/-- Closes the open tiles of a definition: its columns pass to the engine (R316). -/
def tilesClose (s : State) (t : Fin 32) (cause : Nat) : State :=
  let d := s.cmp.defs[t]
  if d.rows.isEmpty then s
  else
    let cols := s.columns t
    let tiles := (cols.zip (List.range cols.length)).map fun e => EngItem.tile (s.tileOf t e.2 e.1.1 e.1.2 cause)
    let n := s.defEng t
    ((s.modEng n fun e => { e with queue := e.queue ++ tiles }).modDef t fun d =>
      { d with rows := [], set := d.set + 1, missed := 0 }).showEng n

/-- The assembly sets of a definition that its engine still holds. -/
def setsBusy (s : State) (t : Fin 32) : Nat :=
  ((s.cmp.engs[s.defEng t].queue.filterMap fun i => match i with
    | .tile x => if x.t = t then some x.set else none
    | .gap _ => none).eraseDups).length

/-- A row is skipped (R313). -/
def rowSkip (s : State) (t : Fin 32) : State :=
  (s.count (R.CMP_DEF_SKIPPED t)).modDef t fun d => { d with missed := d.missed + 1 }

/-- Rules 1 to 3 of R313: the cause for which an arriving row closes the open tiles. -/
def rowCloses (d : TDef) (r : TRow) : Option Nat :=
  match d.rows with
  | [] => none
  | x :: _ =>
    if x.key != r.key then some closeGen
    else if x.watch != r.watch then some closeMode
    else if 2 ^ 32 ≤ stampSub r.stamp x.stamp then some closeSpan
    else none

/-- Closes the open tiles for the rules 1, 2 and 3 that apply. -/
def rowClose (s : State) (t : Fin 32) (r : TRow) : State :=
  match rowCloses s.cmp.defs[t] r with
  | some c => s.tilesClose t c
  | none => s

/-- A row arrives at an active definition; `vals` is none where it lacks a point (R313). -/
def rowArrive (s : State) (t : Fin 32) (r : TRow) (vals : Option (List Nat)) : State :=
  let s := s.rowClose t r
  match vals with
  | none => (s.tilesClose t closeLayout).rowSkip t
  | some v =>
    if s.cmp.defs[t].rows.isEmpty && 2 ≤ s.setsBusy t then s.rowSkip t
    else
      let s := s.modDef t fun d => { d with rows := d.rows ++ [{ r with vals := v }] }
      if s.rd (R.CMP_DEF_DEPTH t) ≤ s.cmp.defs[t].rows.length then s.tilesClose t closeFull else s

/-- The value of global point `p` in a frame. -/
def framePoint (f : Frame) (p : Nat) : Option Nat :=
  f.runs.findSome? fun r => if r.point ≤ p then (r.vals[p - r.point]?).map Prod.fst else none

/-- The active definitions that do not drain, in rising order. -/
def defsOn (s : State) : List (Fin 32) := (List.finRange 32).filter fun t => s.defOn t && !s.cmp.defs[t].stopping

/-- A frame as a row of definition `t`, when it is one of its source (R312, R313). -/
def frameRow (s : State) (f : Frame) (t : Fin 32) : State :=
  if s.on (R.CMP_DEF_SRC t) || s.rd (R.CMP_DEF_PORT t) != f.port || s.rd (R.CMP_DEF_PROFILE t) != f.prof
      || s.rd (R.CMP_DEF_KIND t) != f.kind then s
  else
    let s := s.modDef t fun d => { d with missed := d.missed + f.dropped }
    let first := s.rd (R.CMP_DEF_FIRST t)
    s.rowArrive t { stamp := f.stamp, vals := [], key := [f.gen], watch := f.watch, slewing := f.slewing, tq := f.tq }
      ((List.range (s.rd (R.CMP_DEF_COUNT t))).mapM fun i => framePoint f (first + i))

/-- A TEMP profile as a row of definition `t`; SUMS profiles are ignored (R312). -/
def profileRow (s : State) (x : TProf) (t : Fin 32) : State :=
  let w (i : Nat) : Nat := x.words.getD i 0
  if !s.on (R.CMP_DEF_SRC t) || s.rd (R.CMP_DEF_PORT t) != x.port || slice (w 4) 28 4 != 1 then s
  else
    let first := s.rd (R.CMP_DEF_FIRST t)
    s.rowArrive t
      { stamp := w 2 + w 3 * 2 ^ 32, vals := [], key := [slice (w 4) 22 4, slice (w 8) 24 8, slice (w 8) 0 18]
        watch := (w 7).testBit 7, slewing := (w 7).testBit 8, tq := slice (w 6) 29 3 }
      ((List.range (s.rd (R.CMP_DEF_COUNT t))).mapM fun i => x.vals[first + i]?)

/-- After the last row of a stopped port its open tiles close (R314). -/
def portStopped (s : State) (n : Nat) : State :=
  (s.defsOn.filter fun (t : Fin 32) => s.rd (R.CMP_DEF_PORT t) == n).foldl (fun (s : State) (t : Fin 32) => s.tilesClose t closeStop) s

/-- A GAP record of port `n` (R315). -/
def gapArrive (s : State) (n : Nat) (g : Gap) : State :=
  let mine (t : Fin 32) : Bool := s.rd (R.CMP_DEF_PORT t) == n && !s.on (R.CMP_DEF_SRC t)
  let l : List (Fin 32) := s.defsOn.filter mine
  if !(List.finRange 32).any fun t => s.defOn t && mine t then s
  else
    let s := if s.rd (R.FDC_CTRL_GAP_FILL n) < g.lost then
        l.foldl (fun (s : State) t => s.tilesClose t closeGapCause) s
      else s
    let k : Fin 4 := Fin.ofNat 4 n
    let s := s.modEng k fun e => { e with queue := e.queue ++ [.gap g] }
    (s.showEng k).engGaps k (s.cmp.engs[k].queue.length)

/-- The stops of ports at the head of what CMP reads. -/
def cmpStops (s : State) : Nat → State
  | 0 => s
  | k + 1 =>
    match s.cmpIn with
    | .stop n :: r => cmpStops (({ s with cmpIn := r } : State).portStopped n) k
    | _ => s

/-- CMP reads a row. -/
def cmpRow (s : State) : State :=
  let s := s.cmpStops s.cmpIn.length
  let s := match s.cmpIn with
    | .frame f :: r => s.defsOn.foldl (fun (s : State) t => s.frameRow f t) { s with cmpIn := r }
    | .profile x :: r => s.defsOn.foldl (fun (s : State) t => s.profileRow x t) { s with cmpIn := r }
    | _ => s
  s.cmpStops s.cmpIn.length

/-- CMP reads a GAP record. -/
def cmpGap (s : State) : State :=
  let s := s.cmpStops s.cmpIn.length
  let s := match s.cmpIn with
    | .gap n g :: r => ({ s with cmpIn := r } : State).gapArrive n g
    | _ => s
  s.cmpStops s.cmpIn.length

/-- A flush of the definitions of a mask (R314). -/
def cmpFlush (s : State) (mask : Nat) : State :=
  (s.defsOn.filter fun (t : Fin 32) => mask.testBit t).foldl (fun (s : State) (t : Fin 32) => s.tilesClose t closeFlush) s

/-! ### Release (R321 to R324) -/

/-- The sixteen words of a tile header; `bad`, `trunc` and `stored` are its outcome. -/
def tileHeader (s : State) (x : Tile) (bad trunc stored : Bool) (comp : Nat) : List Nat :=
  [x.first % 2 ^ 32, x.first / 2 ^ 32, x.last % 2 ^ 32, x.last / 2 ^ 32,
   x.t * 2 ^ 27 + s.rd (R.CMP_DEF_PORT x.t) * 2 ^ 25 + s.rd (R.CMP_DEF_SRC x.t) * 2 ^ 24
     + (if s.on (R.CMP_DEF_SRC x.t) then 0
        else s.rd (R.CMP_DEF_PROFILE x.t) * 2 ^ 20 + s.rd (R.CMP_DEF_KIND x.t) * 2 ^ 18) + x.gen,
   x.point, x.w * 65536 + x.rows,
   x.missed * 65536 + x.close * 4096 + x.tq * 512 + ofBool x.watch * 256 + ofBool bad * 128 + ofBool trunc * 64
     + ofBool stored * 32 + ofBool x.slewing * 16 + ofBool x.settling * 8 + ofBool x.gapfill * 4 + ofBool x.flagged * 2,
   ofBool x.half * 2 ^ 31 + ofBool x.major * 2 ^ 30 + ofBool x.delta * 2 ^ 29 + s.rd (R.CMP_DEF_SHIFT x.t) * 2 ^ 24,
   x.payload.length, comp, crc32 x.payload, s.rd (R.CMP_DEF_TILES x.t), x.col, 0, 0]

/-- Adds processed bytes to a KB counter with its remainder. -/
def addKb (s : State) (f : Field) (rem k : Nat) : State × Nat := (s.count f ((rem + k) / 1024), (rem + k) % 1024)

/-- An engine with no definition that is active, or waits to start, returns its hods (R326). -/
def engReturn (s : State) (n : Fin 4) : State :=
  if ((List.finRange 32).any fun u =>
      s.defEng u == n && (s.defOn u || s.cmp.starts.any fun (e : Nat × Nat) => e.2.testBit u)) then s
  else (s.releaseHods (.engine n)).putBit R.CMP_STAT_HODS n false

/-- A definition without work left becomes inactive, its engine may return its hods, and the tile-stop is done
(R326). -/
def defEnd (s : State) (t : Fin 32) : State :=
  let n := s.defEng t
  let s := ((s.putBit R.CMP_ACTIVE_DEF t false).put (R.CMP_DEF_ACTIVE t) false).modDef t fun d =>
    { d with rows := [], missed := 0, stopping := false }
  s.engReturn n

/-- The tile-stop jobs whose definitions are all inactive are done. -/
def stopsDone (s : State) : State :=
  let l : List (Nat × Nat) := s.cmp.stops.filter fun e => e.2 &&& s.rd R.CMP_ACTIVE_DEF = 0
  let s := { s with cmp := { s.cmp with stops := s.cmp.stops.filter fun e => e.2 &&& s.rd R.CMP_ACTIVE_DEF != 0 } }
  l.foldl (fun (s : State) e => s.jobDone e.1) s

/-- A draining definition whose last tile is released ends. -/
def defCheck (s : State) (t : Fin 32) : State :=
  if s.defOn t && s.cmp.defs[t].stopping && s.setsBusy t = 0 then (s.defEnd t).stopsDone else s

/-- Releases the tile at the head of engine `n` with a body (R322 to R324). -/
def tileRelease1 (s : State) (n : Fin 4) (x : Tile) (body : List Nat) (bad trunc stored : Bool) : State :=
  let t : Fin 32 := Fin.ofNat 32 x.t
  let e := s.cmp.engs[n]
  let s := s.bump (R.CMP_DEF_TILES x.t)
  let (s, i) := s.addKb (R.CMP_ENG_IN_KB n) e.inB x.payload.length
  let (s, o) := s.addKb (R.CMP_ENG_OUT_KB n) e.outB body.length
  let s := s.modEng n fun e => { e with queue := e.queue.tail, begun := none, again := false, inB := i, outB := o }
  let rec_ : Rec := { port := n, rtype := 1, stamp := s.now, lane := n, slot := 0
                      body := bytesOfWords (s.tileHeader x bad trunc stored body.length) ++ body }
  let s := (s.offer 1 rec_).putBit R.CMP_STAT_STALL n false
  let s := if bad then
      ((s.count R.CMP_BAD_COUNT).ev R.CMP_EVENT_BAD).log 17 4 0x0070 x.t [s.rd (R.CMP_DEF_TILES x.t)]
    else s
  let s := if trunc then (s.count (R.CMP_DEF_TRUNC x.t)).ev R.CMP_EVENT_TRUNC n else s
  let s := if s.on (R.CMP_DEF_SCO x.t) && !bad && !trunc then s.scoArrive n (.tile x) else s
  let s := s.cmp.stops.foldl (fun (s : State) (e : Nat × Nat) => if e.2.testBit x.t then s.jobStep e.1 else s) s
  ((s.showEng n).engGaps n (s.cmp.engs[n].queue.length)).defCheck t

/-- Room in the ring of engine `n`, in bytes; without limit while the stream is closed. -/
def ringRoom (s : State) (n : Fin 4) : Option Nat :=
  let q := s.streams[(1 : Fin 7)]
  if shut q then none else some (262144 - streamHeld q.queue 1 n)

/-- The record with a body of `k` bytes fits in the ring. -/
def ringFits (s : State) (n : Fin 4) (k : Nat) : Bool :=
  match s.ringRoom n with
  | none => true
  | some r => decide (96 + (k + 3) / 4 * 4 ≤ r)

/-- The engine stalls for room (R323, R330). -/
def engStall (s : State) (n : Fin 4) : State :=
  if s.bit R.CMP_STAT_STALL n then s else (s.putBit R.CMP_STAT_STALL n true).count (R.CMP_STR_WAITS_COUNT 1)

/-- The body of a tile as engine `n` encodes it, or, where a read-back has gone wrong, writes it again (R319 to R322). -/
def engBody (s : State) (n : Fin 4) (x : Tile) : List Nat :=
  let e := s.cmp.engs[n]
  let set := e.begun.getD (s.rd R.CMP_CTRL_LEVEL, s.on R.CMP_CTRL_LAZY)
  if e.again then Deflate.stored x.payload.length x.payload else Deflate.encode set.1 set.2 x.payload

/-- A read-back differs from the assembly set: the payload is written again as stored blocks (R322). -/
def engAgain (s : State) (n : Fin 4) : State :=
  if s.cmp.engs[n].again then s
  else ((s.modEng n fun e => { e with again := true }).count R.CMP_VFAIL_COUNT).ev R.CMP_EVENT_VERIFY n

/-- The engine finishes the tile at the head of its queue: `fault` says whether a read-back went wrong once or twice
(R321, R322), `ecc` what the memory of its assembly set shows (R351). -/
def tileRelease (s : State) (n : Fin 4) (fault : Nat) (ecc : Ecc) : State :=
  match s.cmp.engs[n].queue with
  | .tile x :: _ =>
    let (mem, base) := if s.on (R.CMP_DEF_MEM x.t) then (4, 0x11000000) else (2, 0xD40000)
    let fault := if !(s.eccOf mem ecc).ue.isEmpty || (s.cmp.engs[n].again && 0 < fault) then 2 else fault
    let good := fault = 0 && Deflate.inflate (s.engBody n x) == some x.payload
    let s := if good then s else s.engAgain n
    let out := s.engBody n x
    if !s.ringFits n out.length then s.engStall n
    else
      let s := s.eccSeen mem reqCMP ecc fun i => base + i
      s.tileRelease1 n x out (decide (1 < fault)) false s.cmp.engs[n].again
  | _ => s

/-- The stall of the tile in hand exceeds its TIMEOUT: what has been written of its body is released as TRUNC (R323). -/
def tileTimeout (s : State) (n : Fin 4) : State :=
  match s.cmp.engs[n].queue with
  | .tile x :: _ =>
    match s.ringRoom n with
    | some r =>
      if s.bit R.CMP_STAT_STALL n && 96 ≤ r then
        s.tileRelease1 n x ((s.engBody n x).take (r - 96)) false true s.cmp.engs[n].again
      else s
    | none => s
  | _ => s

/-! ### Starting and stopping (R325, R326) -/

/-- The checks 1 to 5 of a definition. -/
def defCheck15 (s : State) (t : Nat) : Option (Nat × Nat) :=
  let count := s.rd (R.CMP_DEF_COUNT t)
  let w := s.rd (R.CMP_DEF_WIDTH t)
  let d := s.rd (R.CMP_DEF_DEPTH t)
  let src1 := s.on (R.CMP_DEF_SRC t)
  let n := s.rd (R.CMP_DEF_PORT t)
  if s.defOn t then some (E_STATE, 1)
  else if count = 0 || w = 0 || 4096 < w || count < w || d = 0 || 4096 < d
      || (if src1 then 262143 else 524288) < s.rd (R.CMP_DEF_FIRST t) + count then some (E_PARAM, 2)
  else if (if src1 then !s.bit R.RRX_CTRL_DEST 2
      else !s.on (R.FDC_PROF_CFG0_EN n (s.rd (R.CMP_DEF_PROFILE t))) || !s.bit (R.FDC_CTRL_CONSUMERS n) 3)
    then some (E_PARAM, 3)
  else if 196608 < payloadSize (s.elemBytes t) w d then some (E_PARAM, 4)
  else if s.on (R.CMP_DEF_MEM t) && s.degraded then some (E_DRAM, 5)
  else none

/-- Bytes that the definitions of a mask and the active ones need of a memory, with both sets. -/
def areaUsed (s : State) (mask : Nat) (mem : Bool) : Nat :=
  2 * (((List.range 32).filter fun t => (mask.testBit t || s.defOn t) && s.on (R.CMP_DEF_MEM t) == mem).map s.setSize).sum

/-- The checks 1 to 6 of R325: in their order, and for each check over the mask in rising order. The answer is the
status and the detail. -/
def tileCheck (s : State) (mask : Nat) : Nat × Nat :=
  let l := (List.range 32).filter mask.testBit
  let bad (k : Nat) : Option (Nat × Nat) := l.findSome? fun t =>
    match s.defCheck15 t with
    | some (st, c) => if c = k then some (st, c * 4096 + t) else none
    | none => none
  let exceeds (mem : Bool) : Option (Nat × Nat) :=
    match l.find? fun t => s.on (R.CMP_DEF_MEM t) == mem with
    | some t => if (if mem then 67108864 else 524288) < s.areaUsed mask mem then some (E_PARAM, 6 * 4096 + t) else none
    | none => none
  ((List.range 5).findSome? (fun i => bad (i + 1)) <|> exceeds false <|> exceeds true).getD (OK, 0)

/-- The engines that a mask of definitions uses. -/
def enginesOf (s : State) (mask : Nat) : List (Fin 4) :=
  (List.finRange 4).filter fun n => (List.range 32).any fun t => mask.testBit t && s.defEng t == n

/-- The hods of the engines of the mask `m`, granted in one, are held engine by engine. -/
def enginesHeld (s : State) (m : Nat) : State :=
  let rest := s.hodHeld.filter fun e => e.1 != .engines m
  { s with hodHeld := rest ++ (bitsOf 4 m).map fun e => (HodUser.engine e, 2) }

/-- The engines have their hods: the definitions of the mask are active. -/
def tilesStart (s : State) (mask job : Nat) : State :=
  let s := (s.enginesOf mask).foldl (fun (s : State) (n : Fin 4) => s.putBit R.CMP_STAT_HODS n (s.holdsHods (.engine n))) s
  let s := ((List.finRange 32).filter fun (t : Fin 32) => mask.testBit t).foldl (fun (s : State) (t : Fin 32) =>
    (((s.putBit R.CMP_ACTIVE_DEF t true).put (R.CMP_DEF_ACTIVE t) true).wr (R.CMP_DEF_TILES t) 0).modDef t fun d =>
      { d with rows := [], missed := 0, stopping := false }) s
  (s.jobRuns job).jobDone job

/-- The detail of check 7 of R325: its number, and the first definition of the mask whose engine has no hods. -/
def noEngine (s : State) (mask : Nat) : Nat :=
  7 * 4096 + ((List.range 32).find? fun t => mask.testBit t && !s.holdsHods (.engine (s.defEng t))).getD 0

/-- A tile-start asks for 2 hods for each engine that has none (check 7, R436). -/
def tilesBegin (s : State) (mask tmo job : Nat) : State :=
  let l : List (Fin 4) := (s.enginesOf mask).filter fun n => !s.holdsHods (.engine n)
  if l.isEmpty then s.tilesStart mask job
  else
    let m := (l.map fun n => 2 ^ n.val).sum
    match s.requestHods { user := .engines m, hods := 2 * l.length, cls := 1, tmo := tmo, job := job } with
    | (s, .granted) => (s.enginesHeld m).tilesStart mask job
    | (s, .queued) => { s with cmp := { s.cmp with starts := s.cmp.starts ++ [(job, mask)] } }
    | (s, .refused) => s.jobFailed job E_POWER (s.noEngine mask)

/-- The hods of the engines of the tile-start `job` are granted. -/
def tilesGranted (s : State) (m job : Nat) : State :=
  let s := s.enginesHeld m
  match s.cmp.starts.find? fun (e : Nat × Nat) => e.1 == job with
  | none => s
  | some e =>
    let s := { s with cmp := { s.cmp with starts := s.cmp.starts.filter fun (e : Nat × Nat) => e.1 != job } }
    s.tilesStart e.2 job

/-- The detail with which the waiting tile-start `job` fails. -/
def startDetail (s : State) (job : Nat) : Nat :=
  s.noEngine ((s.cmp.starts.find? fun (e : Nat × Nat) => e.1 == job).map Prod.snd |>.getD 0)

/-- The waiting tile-start `job` ends without its hods. -/
def tilesNotGranted (s : State) (job : Nat) : State :=
  let s := { s with
    cmp := { s.cmp with starts := s.cmp.starts.filter fun (e : Nat × Nat) => e.1 != job }
    hodQueue := s.hodQueue.filter fun r => !(r.job == job && match r.user with
      | .engines _ => true
      | _ => false) }
  (List.finRange 4).foldl (fun (s : State) (n : Fin 4) => s.engReturn n) s.showHods

/-- A tile-stop: the definitions of the mask drain (R326). -/
def tilesStop (s : State) (mask job : Nat) : State :=
  let s := { s with cmp := { s.cmp with stops := s.cmp.stops ++ [(job, mask)] } }
  let l : List (Fin 32) := (List.finRange 32).filter fun t => mask.testBit t && s.defOn t
  let s := l.foldl (fun (s : State) t => (s.tilesClose t closeStop).modDef t fun d => { d with stopping := true }) s
  (l.foldl (fun (s : State) t => s.defCheck t) (s.jobRuns job)).stopsDone

/-- What an engine has written of the body of the tile in hand so far: how much is open (log entry 3). -/
def partBody (s : State) (n : Fin 4) (x : Tile) : List Nat × State :=
  let (v, s) := s.free
  let b := (s.engBody n x).take ((s.ringRoom n).getD 262144 - 96)
  (b.take (v % (b.length + 1)), s)

/-- DRAM became DEGRADED: definitions with MEM 1 end; a tile in hand is released as TRUNC with what has been written of
it (R326). -/
def cmpDegraded (s : State) : State :=
  let l : List (Fin 32) := (List.finRange 32).filter fun t => s.defOn t && s.on (R.CMP_DEF_MEM t)
  if l.isEmpty then s
  else
    let mine (i : EngItem) : Bool := match i with
      | .tile x => l.any fun t => t.val == x.t
      | .gap _ => false
    let s := (List.finRange 4).foldl (fun (s : State) (n : Fin 4) =>
      match s.cmp.engs[n].queue with
      | .tile x :: r =>
        if mine (.tile x) then
          let (b, s) := s.partBody n x
          let s := s.modEng n fun e => { e with queue := .tile x :: r.filter fun i => !mine i }
          s.tileRelease1 n x b false true s.cmp.engs[n].again
        else s.modEng n fun e => { e with queue := e.queue.filter fun i => !mine i }
      | q => s.modEng n fun e => { e with queue := q.filter fun i => !mine i }) s
    let s := l.foldl (fun (s : State) t => s.defEnd t) s
    let s := (List.finRange 4).foldl (fun (s : State) (n : Fin 4) => s.showEng n) s
    s.stopsDone.ev R.CMP_EVENT_FAIL

end Sys2Proof.Machine.State

namespace Sys2Proof.Machine
open Sys2Proof

def execCmpRow (s : State) : Out := .next s.cmpRow
def execCmpGap (s : State) : Out := .next s.cmpGap
def execCmpFlushWrite (mask : Word) (s : State) : Out :=
  .next (s.gate 0x28000C fun s => s.cmpFlush mask.toNat)
/-- `fault`: read-backs that went wrong; `ecc`: what the memory of the assembly set shows. -/
def execTileRelease (n : Fin 4) (fault : Fin 3) (ecc : Ecc) (s : State) : Out := .next (s.tileRelease n fault ecc)
def execTileTimeout (n : Fin 4) (s : State) : Out := .next (s.tileTimeout n)

end Sys2Proof.Machine
end

