-- ==== Sys2Proof/Machine/Memc.lean ====
section
/-! DEFINITION. MEM: DRAM states and training (R336, R337, R340 to R344, R519), refresh (R345, R346), panic (R349), row
disturbance (R350) and the scrubber (R334). -/

namespace Sys2Proof.Machine.State
open Sys2Proof Arith

def modMem (s : State) (f : Memc → Memc) : State := { s with memc := f s.memc }

def memOff : Nat := 0
def memTraining : Nat := 1
def memReady : Nat := 2
def memSr : Nat := 3
def memRetraining : Nat := 4
def memDegraded : Nat := 5

def memState (s : State) : Nat := s.rd R.MEM_STAT_STATE
def setMem (s : State) (v : Nat) : State := s.wr R.MEM_STAT_STATE v

/-- READY or SELF_REFRESH. -/
def memUp (s : State) : Bool := s.memState == memReady || s.memState == memSr

/-! ### Parts (R335 to R337, R345) -/

/-- Usable capacity in MB. -/
def capMb (s : State) : Nat :=
  let d := s.rd R.MEM_DRAM_CFG_DENSITY
  let c := if d = 3 then 0 else 512 * (s.rd R.MEM_DRAM_CFG_RANKS + 1) * (4 * 2 ^ d)
  if s.on R.MEM_DRAM_CFG_ECC_EN then c * 7 / 8 else c

/-- T_RFC in ns. -/
def trfc (s : State) : Nat :=
  let d := s.rd R.MEM_DRAM_CFG_DENSITY
  if d = 0 then 180 else if d = 1 then 210 else if d = 2 then 280 else 0

/-- The parts are as MEM_DRAM_CFG says: T_RFC follows. -/
def memCfg (s : State) (density ranks : Nat) (ecc : Bool) : State :=
  let s := ((s.wr R.MEM_DRAM_CFG_DENSITY density).wr R.MEM_DRAM_CFG_RANKS ranks).put R.MEM_DRAM_CFG_ECC_EN ecc
  s.wr R.MEM_REF_TRFC s.trfc

/-! ### Entering READY and DEGRADED (R342 to R344) -/

/-- The run's command ends in a final state, with MEM_STAT (DRAM_RETRAIN). -/
def memJobEnd (s : State) (st : JobState) (status : Nat) : State :=
  let job := s.memc.job
  (s.modMem fun m => { m with job := 0 }).endJob job st status 0
    [(((s.memState * 4 + s.rd R.MEM_STAT_OP) * 2 + s.rd R.MEM_STAT_HODS) * 4 + s.rd R.MEM_STAT_PANIC) * 2 ^ 24
      + s.rd R.MEM_STAT_DEBT1 * 2 ^ 20 + s.rd R.MEM_STAT_DEBT0 * 2 ^ 16]

/-- The outage ends: ports whose FDC lost values or frames reset their points (R343). -/
def outageEnd (s : State) : State :=
  let s := s.modMem fun m => { m with outage := false }
  (List.finRange 4).foldl (fun (s : State) (n : Fin 4) =>
    if s.ports[n].fdc.hit then (s.modFdc n fun q => { q with hit := false }).fdcSync n else s) s

/-- A setting of the ladder has passed (R340, R342). -/
def memPass (s : State) : State :=
  let m := s.memc
  let down := s.memState = memRetraining && m.op != m.fromOp
  let s := ((s.setMem memReady).wr R.MEM_STAT_OP m.op).modMem fun m => { m with step := 0 }
  let s := (((s.wr R.MEM_DRAM_STAT_CAP_MB s.capMb).wr R.MEM_TRAIN_STAMP_STAMP s.now).wr R.MEM_TRAIN_TEMP_TEMP
    (s.rd R.MGT_TJ_TJ)).put R.SYS_GSTAT_DRAM_DEGRADED false
  let s := s.ev R.MEM_EVENT_TRAINED
  let s := if down then s.ev R.MEM_EVENT_STEP_DOWN else s
  s.outageEnd.memJobEnd .done OK

/-- What Chadihus keeps in DRAM is lost: the mirrored log, a snapshot in progress and a staged update (R344, R442). -/
def mgtDegraded (s : State) : State :=
  let m := s.mgt
  let s := { s with mgt := { m with
    dramRing := [], snap := none
    update := match m.update with
      | some u => if u.staged then none else some u
      | none => none } }
  let s := match m.snap with
    | some (j, _) => s.jobFailed j E_DRAM
    | none => s
  match m.update with
  | some u => if u.staged then s.jobFailed u.job E_DRAM else s
  | none => s

/-- Entry to DEGRADED from step `step` of the ladder, 0 when the hods of the boot enable were refused (R344, R519). -/
def memDegrade (s : State) (step : Nat) : State :=
  let op := s.rd R.MEM_STAT_OP
  let s := ((s.setMem memDegraded).put R.MEM_STAT_HODS false).releaseHods .dram
  let s := (s.wr R.MEM_DRAM_STAT_CAP_MB 0).put R.SYS_GSTAT_DRAM_DEGRADED true
  let s := ({ s with dram := [] } : State).modMem fun m =>
    { m with outage := false, relock := false, step := 0, deferred := false }
  let s := ((s.wr R.MEM_STAT_DEBT0 0).wr R.MEM_STAT_DEBT1 0).synDisable 2
  let s := (s.ev R.MEM_EVENT_DEGRADED).log 18 4 0x0060 op [step]
  let s := (List.finRange 4).foldl (fun (s : State) (n : Fin 4) => (s.fdcDegraded n).dtsDegraded n) s
  (s.acqDegraded.cmpDegraded.scoDegraded.mgtDegraded).memJobEnd .failed E_MEM_TRAIN

/-! ### The ladder (R342) -/

/-- Step 3 at operating point `op`: Chadihus searches the band and PLL_M is to lock there (R52, R53). -/
def memTrainAt (s : State) (op : Nat) : State :=
  let s := (s.synDisable 2).wr (R.SYN_PLL_CFG_OP 2) op
  let s := s.modSyn fun y => { y with firmware := synMask y.firmware 2 true }
  (s.searchStart 2).modMem fun m => { m with step := 3, op := op }

/-- The next OP down, or DEGRADED below 3200 MT/s. -/
def memNextDown (s : State) (op step : Nat) : State := if op < 2 then s.memTrainAt (op + 1) else s.memDegrade step

/-- Leaves OFF or DEGRADED with 6 hods (R340): step 1 begins (R342). -/
def memTrain (s : State) : State :=
  let op := s.rd R.MEM_CTRL_TARGET
  let s := s.ev R.MEM_EVENT_OUTAGE
  let s := (s.put R.MEM_STAT_HODS true).modMem fun m =>
    { m with step := 1, op := op, fromOp := op, fromState := s.memState, byTarget := true }
  (s.jobRuns s.memc.job).setMem memTraining

/-- An outage begins (R343). -/
def outageStart (s : State) : State := (s.modMem fun m => { m with outage := true }).ev R.MEM_EVENT_OUTAGE

/-- A retraining begins with step 1; `cmd` when DRAM_RETRAIN or MEM_CTRL.RETRAIN starts it. -/
def memRetrain (s : State) (cmd : Bool) : State :=
  let op := s.rd R.MEM_STAT_OP
  let s := s.outageStart.modMem fun m =>
    { m with step := 1, op := if cmd then s.rd R.MEM_CTRL_TARGET else op, fromOp := op, fromState := s.memState
             byTarget := cmd, deferred := false, relock := false }
  (s.jobRuns s.memc.job).setMem memRetraining

/-- The outcome of a step of the ladder. -/
def stepFail : Nat := 0
def stepPass : Nat := 1
def stepNoParts : Nat := 2

/-- The parts fail identification in a training that a command started: the state is as it was (R353). -/
def memNoParts (s : State) : State :=
  let s := (((s.setMem s.memc.fromState).put R.MEM_STAT_HODS false).releaseHods .dram).synDisable 2
  (s.modMem fun m => { m with step := 0 }).memJobEnd .failed E_MEM_CONFIG

/-- The step in progress ends (R342). -/
def memStep (s : State) (r : Nat) : State :=
  let m := s.memc
  let training := s.memState = memTraining
  if !(training || s.memState = memRetraining) then s
  else if r = stepNoParts && training && m.job != 0 then s.memNoParts
  else if m.step = 1 then
    let s := (s.wr R.MEM_STAT_DEBT0 0).wr R.MEM_STAT_DEBT1 0
    if training || m.op != m.fromOp then s.memTrainAt m.op else s.modMem fun m => { m with step := 2 }
  else if m.step = 2 then
    (if r = stepPass then s.memPass else if m.byTarget then s.memTrainAt m.op else s.memNextDown m.op 2)
  else if m.step = 3 then
    (if r = stepPass then (if s.bit R.SYN_STAT_LOCK 2 then s.modMem fun m => { m with step := 4 } else s)
     else s.memNextDown m.op 3)
  else if m.step = 4 then
    (if r = stepPass && s.rd R.MEM_DRAM_CFG_DENSITY != 3 then s.memPass else s.memNextDown m.op 4)
  else s

/-! ### Triggers (R341) -/

/-- PLL_M has lost lock: DRAM enters self-refresh and RETRAINING, whose steps begin at the relock (R340, R341, R346;
DEDUCED, log entry 86). -/
def memLockLoss (s : State) : State :=
  if s.memUp then
    let s := ((s.outageStart.wr R.MEM_STAT_DEBT0 0).wr R.MEM_STAT_DEBT1 0).setMem memRetraining
    s.modMem fun m => { m with relock := true, step := 0, deferred := false }
  else s

/-- PLL_M has locked again. -/
def memRelock (s : State) : State :=
  if s.memc.relock && s.memState == memRetraining then s.memRetrain false else s

/-- The DRAM has asked for its hods and waits. -/
def memWaits (s : State) : Bool := s.hodQueue.any fun r => r.user == .dram

/-- The DRAM-retrain command of job `job`, and a write of MEM_CTRL.RETRAIN with job 0 and timeout 0. -/
def memCommand (s : State) (job tmo : Nat) : State :=
  let st := s.memState
  if st = memTraining || st = memRetraining || s.memWaits then s
  else
    let s := s.modMem fun m => { m with job := job }
    if s.memUp then s.memRetrain true
    else if s.rd R.MEM_DRAM_CFG_DENSITY = 3 then s.memJobEnd .failed E_MEM_CONFIG
    else
      match s.requestHods { user := .dram, hods := 6, cls := 0, tmo := tmo, job := job } with
      | (s, .granted) => s.memTrain
      | (s, .queued) => s
      | (s, .refused) => s.memJobEnd .failed E_POWER

/-- The DRAM enable of the boot: its hods are granted at once, or DRAM is DEGRADED (R519). -/
def memBoot (s : State) : State :=
  match s.requestHods { user := .dram, hods := 6, cls := 0, tmo := 0, job := 0 } with
  | (s, .granted) => s.memTrain
  | (s, _) => s.memDegrade 0

/-- What defers a temperature trigger. -/
def memDefers (s : State) : Bool :=
  s.rd R.MEM_STAT_PANIC != 0
    || (List.finRange 4).any fun k => s.on (R.ACQ_CH_CFG0_MEM k) && s.rd (R.ACQ_CH_STAT_JOB k) == 1

/-- The die temperature has a new reading. -/
def memTemp (s : State) : State :=
  let d := (s.rdS R.MGT_TJ_TJ - s.rdS R.MEM_TRAIN_TEMP_TEMP).natAbs
  if !s.memUp || s.memc.outage || s.memc.deferred || d ≤ 256 * s.rd R.MEM_TRAIN_DELTA then s
  else if s.memDefers then
    (s.modMem fun m => { m with deferred := true, deferAt := s.sys.uptime }).ev R.MEM_EVENT_DEFERRED
  else s.memRetrain false

/-- A deferral ends: nothing defers the trigger any more, or DEFER_MAX s have passed. -/
def deferEnd (s : State) : State :=
  let late := decide (s.memc.deferAt + 1250000000 * s.rd R.MEM_TRAIN_DEFER_MAX ≤ s.sys.uptime)
  if s.memc.deferred && s.memUp && !s.memc.outage && (late || !s.memDefers) then s.memRetrain false else s

/-! ### Self-refresh, refresh, panic, MR4, row disturbance, scrubbing -/

/-- No request for SR_IDLE µs (R340, R346). An ACQ channel with MEM 1 keeps DRAM in READY. -/
def srEntry (s : State) : State :=
  let busy := (List.finRange 4).any fun k => s.on (R.ACQ_CH_CFG0_MEM k) && s.rd (R.ACQ_CH_STAT_JOB k) == 1
  if s.memState = memReady && s.on R.MEM_CTRL_SR_EN && !s.memc.outage && !busy then
    ((s.setMem memSr).wr R.MEM_STAT_DEBT0 0).wr R.MEM_STAT_DEBT1 0
  else s

/-- A request comes. -/
def srExit (s : State) : State := if s.memState = memSr then s.setMem memReady else s

def debtOf (c : Fin 2) : Field := if c = 0 then R.MEM_STAT_DEBT0 else R.MEM_STAT_DEBT1

/-- A refresh of channel `c` falls due (R346). -/
def refreshDue (s : State) (c : Fin 2) : State :=
  if s.memState != memReady || s.memc.outage || s.rd R.MEM_STAT_PANIC = 0 then s
  else if s.rd (debtOf c) < 8 then (s.wr (debtOf c) (s.rd (debtOf c) + 1)).count R.MEM_REF_CNT_POSTPONED
  else (s.count R.MEM_REF_CNT_FORCED).ev R.MEM_EVENT_FORCED

/-- Panic of ACQ and SCO reaches MEM (R349); when it falls the channels issue their debt (R346). -/
def panicChange (s : State) : State :=
  let p := s.rd R.ACQ_STAT_PANIC + 2 * s.rd R.SCO_STAT_PANIC
  let s := s.wr R.MEM_STAT_PANIC p
  if p = 0 then (s.wr R.MEM_STAT_DEBT0 0).wr R.MEM_STAT_DEBT1 0 else s

/-- T_REFI in ns for an interval factor of MR4 (R345). -/
def trefi (m : Nat) : Nat :=
  if m = 0 then 15624 else if m = 1 then 7812 else if m = 2 then 3906 else if m = 3 then 1953 else 977

/-- MR4 is read: the factor, or none when the temperature lies beyond the highest rate (R345). -/
def mr4Poll (s : State) (m : Option Nat) : State :=
  if !s.memUp then s
  else
    match m with
    | some k => (s.wr R.MEM_REF_MULT (min k 4)).wr R.MEM_REF_TREFI (trefi k)
    | none => ((s.wr R.MEM_REF_MULT 4).wr R.MEM_REF_TREFI (trefi 4)).ev R.MEM_EVENT_DRAM_HOT

/-- The activation window ends; `l` are the limits reached in it: channel, rank, bank and requester (R350). -/
def rhWindowEnd (s : State) (l : List (Nat × Nat × Nat × Nat)) : State :=
  l.foldl (fun (s : State) e =>
    let s := (((s.wr R.MEM_RH_LOG_CHAN e.1).wr R.MEM_RH_LOG_RANK e.2.1).wr R.MEM_RH_LOG_BANK e.2.2.1).wr
      R.MEM_RH_LOG_REQ e.2.2.2
    (s.count R.MEM_RH_CNT_COUNT).ev R.MEM_EVENT_RH) s

/-- The scrubber reads the next line of the SRAMs (R334). -/
def scrubLine (s : State) (e : Ecc) : State :=
  if !s.on R.MEM_CTRL_SCRUB_EN then s
  else
    let l := s.memc.line
    let (mem, base) := if l < 524288 then (0, 0) else if l < 786432 then (1, 524288) else (2, 786432)
    (s.modMem fun m => { m with line := (l + 1) % 1048576 }).eccSeen mem reqScrub e fun i =>
      64 * (l - base) + 8 * (i % 8)

end Sys2Proof.Machine.State

namespace Sys2Proof.Machine
open Sys2Proof

/-- `ecc`: what the line shows, by 64-bit word. -/
def execScrubLine (ecc : Ecc) (s : State) : Out := .next (s.scrubLine ecc)
/-- `r`: 0 the step fails, 1 it passes, 2 the parts fail identification. -/
def execDramTrainingStep (r : Fin 3) (s : State) : Out := .next (s.memStep r)
def execSelfRefreshEntry (s : State) : Out := .next s.srEntry
def execSelfRefreshExit (s : State) : Out := .next s.srExit
def execRetrainDeferEnd (s : State) : Out := .next s.deferEnd
def execMemCtrlRetrain (s : State) : Out :=
  .next (s.gate 0x2C0000 fun s => s.memCommand 0 0)
def execRefreshDue (c : Fin 2) (s : State) : Out := .next (s.refreshDue c)
/-- `lv`: bytes that the write buffers of the ACQ channels still hold; `lb`: bytes in the line buffer of SCO; `left`: an
active line of its frame remains to be fetched. -/
def execPanicChange (lv : Vector (BitVec 17) 4) (lb : BitVec 16) (left : Bool) (s : State) : Out :=
  .next ((s.bufferDrain (lv.map BitVec.toNat)).lineBuffer lb.toNat left).panicChange
def execMr4Poll (m : Option (Fin 5)) (s : State) : Out := .next (s.mr4Poll (m.map fun x => x.val))
/-- `l`: the limits reached in the window: channel, rank, bank and requester. -/
def execRhWindowEnd (l : List (Fin 2 × Fin 2 × Fin 16 × Fin 16)) (s : State) : Out :=
  .next (s.rhWindowEnd (l.map fun e => (e.1.val, e.2.1.val, e.2.2.1.val, e.2.2.2.val)))

end Sys2Proof.Machine
end

