-- ==== Sys2Proof/Machine/Boot.lean ====
section
/-! DEFINITION. Resets (R452 to R454, R520), the boot (R455 to R462), the watchdogs (R458), footing mode (R459, R460),
STANDBY (R431) and the mode changes (R430). -/

namespace Sys2Proof.Machine.State
open Sys2Proof Arith

def modRet (s : State) (f : Retention → Retention) : State := s.modSys fun y => { y with ret := f y.ret }

/-- Reasons of SYS_BOOT (R452, R459). -/
def rPowerOn : Nat := 0
def rRstPin : Nat := 1
def rResetCmd : Nat := 2
def rActivate : Nat := 3
def rWdtBoot : Nat := 4
def rWdtRun : Nat := 5
def rThermal : Nat := 6
def rStandbyWake : Nat := 7
def rNoImage : Nat := 8
def rRefFail : Nat := 9
def rSupply : Nat := 10
def rFootCmd : Nat := 11
def rBootLimit : Nat := 12
def rMode : Nat := 13

/-! ### Resets -/

/-- The balls while a reset is asserted (R453). -/
def resetBalls : List Emit :=
  let four (b : String) : List Emit := (List.range 4).map fun n => .ball b n 0
  four "GATE" ++ four "TRIG_RM" ++ four "BIAS" ++ four "CAR"
    ++ [.ball "MROW" 0 0, .ball "MCOL" 0 0, .ball "ILK_OUT_N" 0 1, .ball "REFOUT10" 0 0, .ball "PPS_OUT" 0 0,
      .ball "PNL_DE" 0 0, .ball "PNL_HS" 0 0, .ball "PNL_VS" 0 0, .ball "PNL_D" 0 0, .ball "PNL_PCLK" 0 0]

/-- Everything but the always-on domain, the fuses and the flash is lost (R21, R466). -/
def allOff (s : State) (ret : Retention) (phase : Phase) : State :=
  { State.reset with
    flash := s.flash
    sys := { s.sys with uptime := 0, domains := 1, mode := 0, bufUsed := false, phase := phase, ret := ret, doneAt := 0
                        railBad := false, sectionBad := false, wakeAfter := 0, settled := false
                        subsys := sysInit.subsys }
    mgt := { mgtInit with flashLog := s.mgt.flashLog }
    hif := { hifInit with jtag := s.hif.jtag, boundary := s.hif.boundary }
    fresh := s.fresh, out := s.out ++ resetBalls, pending := s.pending }

/-- A device reset that keeps the retention `ret`, with its reason (R452). -/
def deviceReset (s : State) (ret : Retention) (reason : Nat) : State := s.allOff { ret with reason := reason } .held

/-- POR_N, or a brown-out: the retention is cleared (R454), and the preferred slot is that of the preference record
(R456). -/
def powerOn (s : State) : State :=
  let s := s.deviceReset { retInit with preferred := s.sys.prefRecord.getD 0 } rPowerOn
  let s := { s with hif := hifInit }
  s.modSys fun y => { y with boots := 0 }

/-- RST_N (R434, R452). -/
def rstPin (s : State) : State := s.deviceReset s.sys.ret (if s.sys.ret.trip then rThermal else rRstPin)

/-- A RESET command, or a write of SYS_RST_CTRL (R452). -/
def resetCmd (s : State) (foot : Bool) : State :=
  if foot then s.deviceReset { s.sys.ret with footReq := true } rFootCmd
  else s.deviceReset { s.sys.ret with fails := 0 } rResetCmd

/-- One failed boot more, up to 3. -/
def failUp (s : State) : Retention := { s.sys.ret with fails := min 3 (s.sys.ret.fails + 1) }

/-- A failed boot attempt (R458). -/
def bootFail (s : State) (reason : Nat) : State := s.deviceReset s.failUp reason

/-- The die was at 125 °C for 1 ms (R434). -/
def thermalTrip (s : State) : State :=
  if s.sys.phase = .held || s.sys.phase = .tripped then s else s.allOff { s.sys.ret with trip := true } .tripped

/-! ### Images (R443, R445, R457) -/

def slotBase (k : Nat) : Nat := 0x00100000 + 0x00800000 * k

/-- The first of the checks 1 to 4 of R445 that the bytes `b` fail, 0 for none. `size` is the size that was begun. -/
def imageCheck (s : State) (b : Nat → Nat → List Nat) (size : Option Nat) : Nat :=
  let w (o n : Nat) : Nat := ofLeBytes (b o n)
  let body := w 20 4
  let key := w 16 4
  if (match size with
      | some z => z != 256 + body
      | none => false)
    || w 0 4 != 0x4348444D || w 4 2 != 1 || w 6 2 != 0 || 64 ≤ w 12 4 || 4 ≤ key || body % 4 != 0 || 8388352 < body
    || w 24 4 != 0x00840A01 || 16 ≤ w 28 4 || (b 224 32).any (fun x => x != 0) then 1
  else if s.sys.revoked.testBit key || Crypto.sha384 (b 32 96) != (Config.keyHash key).toNat then 2
  else if !Crypto.ecdsaOk (Crypto.bigEndian (b 32 48)) (Crypto.bigEndian (b 80 48)) (Crypto.bigEndian (b 128 48))
      (Crypto.bigEndian (b 176 48)) (Crypto.sha384 (b 0 128 ++ b 256 body)) then 3
  else if w 12 4 < s.sys.svn then 4
  else 0

/-- The bytes of a slot. -/
def slotBytes (s : State) (k o n : Nat) : List Nat := s.flashGet (slotBase k + o) n

/-- A word of the header in slot `k`, 0 where the slot holds no image. -/
def slotWord (s : State) (k o : Nat) : Nat :=
  if ofLeBytes (s.slotBytes k 0 4) = 0x4348444D then ofLeBytes (s.slotBytes k o 4) else 0

/-- Shows both slots in MGT_IMGs. -/
def showImages (s : State) : State :=
  [0, 1].foldl (fun (s : State) k =>
    let s := (s.put (R.MGT_IMG_VERIFIED k) (s.sys.verified.testBit k)).put (R.MGT_IMG_PREFERRED k) (s.sys.ret.preferred == k)
    (s.wr (R.MGT_IMG_SVN k) (s.slotWord k 12)).wr (R.MGT_IMG_VER_VERSION k) (s.slotWord k 8)) s

/-- Shows the retention and the fuses in SYS_BOOT and MGT_STAT. -/
def showBoot (s : State) : State :=
  let r := s.sys.ret
  let s := (((s.wr R.SYS_BOOT_LAST_REASON r.reason).wr R.SYS_BOOT_FOOT_REASON r.footReason).wr R.SYS_BOOT_FAILS r.fails).wr
    R.SYS_BOOT_BOOTS s.sys.boots
  s.wr R.MGT_STAT_SVN_CTR s.sys.svn

/-- Makes slot `k` the preferred one, in retention and in the flash (R446). -/
def prefer (s : State) (k : Nat) : State :=
  ((s.modRet fun r => { r with preferred := k }).modSys fun y => { y with prefRecord := some k }).showImages

/-! ### Domains and modes -/

/-- Shows the mode code (R426). -/
def setMode (s : State) (m : Nat) : State :=
  (((s.modSys fun y => { y with mode := m }).wr R.PWR_STAT_MODE m).wr R.SYS_GSTAT_MODE m).showHods

/-- The fused band codes (R53). -/
def fuseLoad (s : State) : State :=
  let s := [0, 1, 3, 4].foldl (fun (s : State) p =>
    (s.wr (R.SYN_BAND_BAND p 0) (Config.fusedBand p).toNat).put (R.SYN_BAND_VALID p 0) true) s
  s.modSyn fun y => { y with fused := 0b11011 }

/-- TIME turns on: the fused bands stand, and PLL_S and PLL_C are enabled with WAIT_RDY at 0 (R429, R455 step 4). -/
def timeOn (s : State) : State :=
  let s := (((s.setDomain dTIME true).fuseLoad).put R.SYN_STAT_OCXO_RDY s.sys.ocxo).put R.SYN_CTRL_WAIT_RDY false
  (s.synEnable 0 true).synEnable 1 true

/-- TIME turns off (R21). -/
def timeOff (s : State) : State :=
  let s := s.dropRegs fun off => decide (0x40000 ≤ off) && decide (off < 0x80000)
  let s := s.setDomain dTIME false
  { s with syn := synInit, tbu := tbuInit, tdc := Vector.replicate 8 tdcInit }

/-- The registers of CORE and the domains after it, but for HIF_STAT (R39). -/
def coreOffset (off : Nat) : Bool := decide (0x80000 ≤ off) && off != 0x340000

/-- CORE, MEM, PORTn and DSPg turn off (R21, R427). Registers that R22 retains stay, and HIF_STAT goes on to show the
links. -/
def coreOff (s : State) : State :=
  let s := s.dropRegs coreOffset
  let s := (List.range 17).foldl (fun (s : State) d => if d < 3 then s else s.setDomain d false) s
  let m := s.mgt
  { s with
    sram := [], dram := [], ports := Vector.replicate 4 portInit, rmd := rmdInit, rrx := Vector.replicate 4 rrxInit
    rsf := rsfInit, memc := memcInit, zon := zonInit, eve := eveInit, vdc := vdcInit, cmp := cmpInit, sco := scoInit
    vdcIn := [], cmpIn := [], streams := Vector.replicate 7 strmInit, acq := acqInit, ary := aryInit
    hif := { hifInit with
      spi := s.hif.spi, spiErr := s.hif.spiErr, spiOvf := s.hif.spiOvf, baud := s.hif.baud, jtag := s.hif.jtag
      boundary := s.hif.boundary, cutoff := s.cmd.arrivals }
    mgt := { m with dramRing := [], snap := none, calRun := none, calWait := none, calStep := 0, calIn := false }
    out := s.out ++ [.ball "ILK_OUT_N" 0 1] }

/-- Returns all hods and withdraws all requests. -/
def hodsClear (s : State) : State := ({ s with hodQueue := [], hodHeld := [] } : State).showHods

/-- CORE and MEM turn on with their memories cleared (R455 step 7) and their registers at reset; the port faults that R22
retains show in RMD_ILK_STAT (R122). -/
def coreOn (s : State) : State :=
  (((((s.dropRegs coreOffset).setDomain dCORE true).setDomain dMEM true).put R.RMD_ILK_STAT_ILK_IN s.sys.ilkIn).showIlk).showHods

/-! ### The board configuration (R462) -/

/-- The bytes of copy `k` before its CRC, if the CRC matches. -/
def boardCopy (s : State) (k : Nat) : Option (List Nat) :=
  let l := s.flashGet (0x40000 * k) 262140
  if crc32 l = ofLeBytes (s.flashGet (0x40000 * k + 262140) 4) then some l else none

def boardBytes (s : State) : Option (List Nat) := (s.boardCopy 0) <|> (s.boardCopy 1)

/-- Loads what the board configuration gives (R455 step 6); `whole` at a boot, while a mode change reloads what the
domains had lost. -/
def boardLoad (s : State) (whole : Bool) : State :=
  match s.boardBytes with
  | none =>
    let s := if whole then (s.wr R.PWR_BUDGET_BUDGET 64).showHods else s
    s.log 0 4 0x00FF 0xB0C0 [0]
  | some l =>
    let f (i : Nat) : Nat := (Config.boardField l i).toNat
    let s := s.put R.SYN_CTRL_WAIT_RDY (f 0 % 2 == 1)
    let s := if whole then (s.modSys fun y => { y with subsys := f 1 % 2 ^ 32 }).wr R.PWR_BUDGET_BUDGET (max 1 (min 256 (f 4)))
      else s
    let s := (s.wr (R.HIF_ETH_MAC_ADDR 0) (f 2)).wr (R.HIF_ETH_MAC_ADDR 1) (f 3)
    (s.memCfg (f 5 % 4) (f 6 % 2) (f 7 % 2 == 1)).showHods

/-! ### The boot steps -/

/-- The boot ROM enters footing mode (R459). -/
def footRom (s : State) (reason : Nat) : State :=
  let s := (s.modRet fun r => { r with footReason := reason }).modSys fun y => { y with phase := .footRom }
  ((s.timeOff).showBoot.showImages).setMode 2

/-- Steps 7 and 8. -/
def bootData (s : State) (whole : Bool) : State :=
  let s := (s.coreOn.boardLoad whole).modSys fun y => { y with phase := .dram }
  s.memBoot

/-- Steps 5 and 6 (R457): slot `k` has passed its checks. -/
def bootSlot (s : State) (k : Nat) : State :=
  let s := (s.modRet fun r => { r with tried := k }).modSys fun y => { y with verified := Arith.putBit y.verified k true }
  let s := ((s.wr R.SYS_BOOT_SLOT k).put R.SYS_BOOT_FALLBACK (k != s.sys.ret.preferred)).wr R.MGT_STAT_IMAGE k
  let s := s.showImages
  if s.sys.sectionBad then s.bootFail rWdtBoot
  else if s.sys.railBad then s.bootFail rSupply
  else s.bootData true

/-- Step 5: the slot of the attempt, and the other one where it fails. -/
def bootImage (s : State) : State :=
  let k := if s.sys.ret.fails = 2 then 1 - s.sys.ret.preferred else s.sys.ret.preferred
  let s := s.modRet fun r => { r with tried := k }
  if s.imageCheck (s.slotBytes k) none = 0 then s.bootSlot k
  else if s.imageCheck (s.slotBytes (1 - k)) none = 0 then s.bootSlot (1 - k)
  else s.footRom rNoImage

/-- Steps 3 and 4. -/
def bootRom (s : State) : State :=
  let req := s.sys.ret.footReq
  let s := s.modRet fun r => { r with footReq := false }
  if s.sys.ret.fails = 3 then s.footRom rBootLimit
  else if req then s.footRom rFootCmd
  else (s.modSys fun y => { y with phase := .lock }).timeOn

/-- PERSIST of a log record (R441). -/
def persist (r : List Nat) : List Nat :=
  match r with
  | w :: l => (w ||| 16) :: l
  | [] => []

/-- The records of the flash are replayed at the head of the log (R442). -/
def logReplay (s : State) : State :=
  s.mgt.flashLog.foldl (fun (s : State) r =>
    let s := s.bump R.MGT_LOG_SEQ_SEQ
    { s with mgt := { s.mgt with ring := trimRing 65536 (s.mgt.ring ++ [(persist r).set 1 (s.rd R.MGT_LOG_SEQ_SEQ)]) } }) s

/-- The release of a reset (R455, R520). The die temperature, and what later steps find of the rails and the image's
sections, are as measured. -/
def release (s : State) (tj : Int) (rail section_ : Bool) : State :=
  if s.sys.phase != .held then s
  else
    let s := s.modRet fun r => { r with reason := if r.trip then rThermal else r.reason, trip := false }
    let s := s.modSys fun y =>
      { y with boots := (y.boots + 1) % 65536, doneAt := y.uptime, railBad := rail, sectionBad := section_ }
    let s := ((s.setDomain dMGT true).fuseLoad.logReplay.showBoot.showImages).wrS R.MGT_TJ_TJ tj
    if 25600 ≤ tj then s.modSys fun y => { y with phase := .hot } else s.bootRom

/-- The die has cooled below 100 °C (R455 step 2). -/
def cooled (s : State) : State := if s.sys.phase = .hot then s.bootRom else s

/-- Chadihus runs. -/
def chadihus (s : State) : Bool :=
  s.sys.phase == .up || s.sys.phase == .footFw || s.sys.phase == .dram || (s.sys.phase == .lock && s.mgt.change.isSome)

/-! ### Mode changes (R430) -/

/-- What R430 asks before a change down from WATCH or RUN. -/
def modeQuiet (s : State) : Bool :=
  ((List.range 4).all fun n => s.pstate n == stIdle) && ((List.range 8).all fun g => s.rd (R.VDC_GRP_STAT_STATE g) == 0)
    && s.scoState == scoOff && s.rd R.CMP_ACTIVE_DEF == 0 && s.rd R.ARY_STAT_STATE == 0
    && s.cmd.jobs.all fun j => !live j

/-- The status that MODE_SET is refused with, OK where it is taken. -/
def modeRefusal (s : State) (target : Nat) : Nat :=
  if target = 0 || 4 < target then E_PARAM
  else if target = s.sys.mode then OK
  else if s.mgt.change.isSome then E_STATE
  else if 3 ≤ s.sys.mode && target < 3 && !s.modeQuiet then E_STATE
  else OK

/-- A change is completed: the event, the log and the job. -/
def modeDone (s : State) (old target job : Nat) : State :=
  let s := (({ s with mgt := { s.mgt with change := none } } : State).put R.PWR_STAT_BUSY false).ev R.PWR_EVENT_MODE_DONE
  (s.log 0 2 0x0010 (old * 256 + target)).jobDone job

/-- A change up fails: the device stays in FOOTING. -/
def modeFail (s : State) (status : Nat) : State :=
  match s.mgt.change with
  | none => s
  | some c =>
    let s := ({ s with mgt := { s.mgt with change := none } } : State).put R.PWR_STAT_BUSY false
    let s := if s.sys.phase = .lock || s.sys.phase = .dram then
        let s := s.coreOff
        let s := if c.time then s else s.timeOff
        s.modSys fun y => { y with phase := .footFw }
      else s
    let s := (s.withdrawHods .mode).hodsClear
    (if status = E_INTERNAL then s.log 0 4 0x00FF 0 [c.job] else s).jobFailed c.job status

/-- TIME has come up: CORE and MEM follow, and DRAM is enabled. -/
def modeData (s : State) : State := s.bootData false

/-- The 12 hods of a change up are granted. -/
def modeUp (s : State) : State :=
  match s.mgt.change with
  | none => s
  | some c =>
    let s := { s with mgt := { s.mgt with change := some { c with time := s.domOn dTIME } } }
    let s := s.jobRuns c.job
    let s := s.modSys fun y => { y with phase := .lock }
    let s := if s.domOn dTIME then s else s.timeOn
    if s.bit R.SYN_STAT_LOCK 1 then s.modeData else s

/-- MODE_SET of job `job`, past its conditions. -/
def modeSet (s : State) (target : Nat) (time : Bool) (tmo wakeS job : Nat) : State :=
  let old := s.sys.mode
  let s := s.jobRuns job
  if target = old then s.jobDone job
  else if target = 3 && old = 4 then
    let s := (s.put R.MEM_CTRL_SR_EN true).setMode 3
    ((List.finRange 4).foldl (fun (s : State) (n : Fin 4) => s.watchReturn n) s).modeDone old target job
  else if target = 4 && old = 3 then
    let s := (s.put R.MEM_CTRL_SR_EN false).setMode 4
    let s := (List.finRange 4).foldl (fun (s : State) (n : Fin 4) =>
      if s.pstate n = stRun then s.modPort n fun p => { p with switch := none } else s.wakePort n) s
    s.modeDone old target job
  else
    let s := ({ s with mgt := { s.mgt with change := some { job := job, target := target, time := time } } } : State).put R.PWR_STAT_BUSY true
    let s := s.modSys fun y => { y with wakeAfter := wakeS }
    if target < 3 then s
    else
      let s := s.modJob job fun j => { j with state := .queued, began := 0 }
      match s.requestHods { user := .mode, hods := 12, cls := 0, tmo := tmo, job := job } with
      | (s, .granted) => s.modeUp
      | (s, .queued) => s
      | (s, .refused) => s.modeFail E_POWER

/-- The domains of FOOTING or STANDBY turn off (R427, R459). -/
def modeDown (s : State) (target : Nat) (time : Bool) : State :=
  if target = 2 then
    let s := (s.coreOff).modRet fun r => { r with footReason := rMode }
    let s := if time then s else s.timeOff
    ((s.modSys fun y => { y with phase := .footFw }).showBoot.hodsClear).setMode 2
  else
    let w := s.sys.wakeAfter
    let s' := s.allOff s.sys.ret .standby
    { s' with sys := { s'.sys with uptime := s.sys.uptime, mode := 1, wakeAfter := w } }

/-- A mode change reaches its target; `failed` when a boot step of a change up has failed. -/
def modeChanged (s : State) (failed : Bool) : State :=
  match s.mgt.change with
  | none => s
  | some c =>
    if c.target < 3 then (s.modeDone s.sys.mode c.target c.job).modeDown c.target c.time
    else if s.sys.phase != .lock && s.sys.phase != .dram then s
    else if failed then s.modeFail E_INTERNAL
    else if s.sys.phase = .lock || s.memState = memTraining then s
    else
      let s := (s.modSys fun y => { y with phase := .up }).loopTry.releaseHods .mode
      ((s.setMode c.target).modeDone 2 c.target c.job).calNext

/-! ### Boot events -/

/-- PLL_C has locked in step 4. -/
def bootLocked (s : State) : State :=
  if s.sys.phase != .lock || !s.bit R.SYN_STAT_LOCK 1 then s
  else if s.mgt.change.isSome then s.modeData
  else s.bootImage

/-- Step 4 ends without a reference (R53, R455). -/
def refFail (s : State) : State :=
  if s.sys.phase != .lock then s
  else if s.mgt.change.isSome then s.modeFail E_INTERNAL
  else s.bootFail rRefFail

/-- 20 ms into step 4. -/
def lockTimeout (s : State) : State := if s.bit R.SYN_STAT_LOCK 1 then s else s.refFail

/-- Step 9. -/
def bootComplete (s : State) : State :=
  if s.sys.phase != .dram || s.mgt.change.isSome || s.memState = memTraining then s
  else
    let us := (s.sys.uptime - s.sys.doneAt) / 1250
    let s := ((s.modSys fun y => { y with phase := .up, doneAt := y.uptime }).loopTry.setMode 4).wr R.SYS_BOOT_TIME_US us
    let k := s.sys.ret.tried
    (s.log 0 1 0x0001 s.sys.ret.reason [k, s.slotWord k 8]).calNext

/-- 4 s after the release without boot complete (R458). -/
def bootWatchdog (s : State) : State :=
  if s.mgt.change.isNone && (s.sys.phase = .lock || s.sys.phase = .dram) then s.bootFail rWdtBoot else s

/-- Chadihus was not served for 1 s (R458). -/
def runWatchdog (s : State) : State :=
  if s.sys.phase != .up && s.sys.phase != .footFw && s.mgt.change.isNone then s
  else if s.sys.uptime - s.sys.doneAt < 750000000000 then s.deviceReset s.failUp rWdtRun
  else s.deviceReset s.sys.ret rWdtRun

/-- The fuse counter follows the running image (R446). -/
def svnAdvance (s : State) : State :=
  let k := s.sys.ret.tried
  let v := s.slotWord k 12 % 64
  if v ≤ s.sys.svn then s
  else
    let own := 2 ^ (s.slotWord k 16 % 4)
    let keys := (s.slotWord k 28 % 16) &&& (15 ^^^ own)
    let s := (s.modSys fun y => { y with svn := v, revoked := y.revoked ||| keys }).showBoot
    (s.log 3 2 0x0052 0 [v, keys]).ev R.MGT_EVENT_SVN

/-- 600 s in WATCH or RUN since boot complete (R446, R458). -/
def failsClear (s : State) : State :=
  if s.sys.phase != .up || s.sys.settled then s
  else
    let s := ((s.modSys fun y => { y with settled := true }).modRet fun r => { r with fails := 0 }).showBoot
    let k := s.sys.ret.tried
    let s := if k = s.sys.ret.preferred then s else (s.prefer k).log 0 1 0x0001 5 [k, s.slotWord k 8]
    s.svnAdvance

/-- A write of SYS_RST_CTRL (R467). -/
def rstCtrl (s : State) (key : Nat) (foot reset : Bool) : State :=
  if key = 0xA55A && reset && s.domOn dMGT then s.resetCmd foot else s

/-- The end of STANDBY (R431): by the AON timer, or by MS_CS_N. -/
def standbyWake (s : State) : State := if s.sys.phase = .standby then s.deviceReset s.sys.ret rStandbyWake else s

def standbyTimer (s : State) : State := if s.sys.wakeAfter = 0 then s else s.standbyWake

end Sys2Proof.Machine.State

namespace Sys2Proof.Machine
open Sys2Proof

def execPorNAssert (s : State) : Out := .next s.powerOn
def execVdda18Brownout (s : State) : Out := .next s.powerOn
def execRstNAssert (s : State) : Out := .next s.rstPin
/-- `tj`: TJ_MAX at step 2 (s24.8 °C); `rail`: step 6 finds a PMBus rail in fault; `bad`: a section of the image fails
its hash. -/
def execResetRelease (tj : Word) (rail bad : Bool) (s : State) : Out := .next (s.release tj.toInt rail bad)
def execBootLockTimeout (s : State) : Out := .next s.lockTimeout
def execBootComplete (s : State) : Out := .next s.bootComplete
def execBootWatchdog (s : State) : Out := .next s.bootWatchdog
def execRunWatchdog (s : State) : Out := .next s.runWatchdog
def execFailsClear (s : State) : Out := .next s.failsClear
def execSysRstCtrlWrite (v : Word) (s : State) : Out :=
  .next (s.rstCtrl (v.toNat / 65536) (v.toNat.testBit 1) (v.toNat.testBit 0))
def execThermalTrip (s : State) : Out := .next s.thermalTrip
def execBootThermalWaitEnd (s : State) : Out := .next s.cooled
def execModeChangeDone (failed : Bool) (s : State) : Out := .next (s.modeChanged failed)
def execStandbyWakeTimer (s : State) : Out := .next s.standbyTimer
def execStandbyWakeCs (s : State) : Out := .next s.standbyWake

end Sys2Proof.Machine
end

