-- ==== Sys2Proof/Machine/Mgt.lean ====
section
/-! DEFINITION. The governor's queue (R436 to R438), idle domains and clocks (R428, R429), the timers of Plumb (R447,
R448), sensors (R439, R440), the commit of an update (R445) and snapshots (R424). -/

namespace Sys2Proof.Machine.State
open Sys2Proof Arith

/-! ### The governor -/

/-- What a granted request lets begin. -/
def hodBegin (s : State) (r : HodReq) : State :=
  match r.user with
  | .mode => s.modeUp
  | .port n => s.startGo (Fin.ofNat 4 n)
  | .dram => s.memTrain
  | .sco => s.scoStart r.job
  | .group g => s.groupWaking (Fin.ofNat 8 g) r.job
  | .engine _ => s
  | .engines m => s.tilesGranted m r.job
  | .dts n =>
    let n : Fin 4 := Fin.ofNat 4 n
    match s.rrx[n].resumer with
    | some p => (s.dtsRun n).reply p OK 0
    | none => s.dtsRun n
  | .cal t => s.calBegin t

/-- Grants from the head of the queue while the head fits (R437). -/
def govern : Nat → State → State
  | 0, s => s
  | k + 1, s =>
    match s.hodQueue with
    | [] => s
    | r :: rest =>
      if s.hodFits r then govern k ((({ s with hodQueue := rest } : State).grantHods r.user r.hods).hodBegin r) else s

/-- The job of a request that timed out fails (R231, R413, R448). -/
def hodFail (s : State) (r : HodReq) : State :=
  match r.user with
  | .mode => s.modeFail E_POWER
  | .port n => s.startFail (Fin.ofNat 4 n) E_POWER 0
  | .dram => s.memJobEnd .failed E_POWER
  | .sco => s.jobFailed r.job E_POWER (5 * 4096)
  | .group _ => s.jobFailed r.job E_POWER
  | .engine _ => s
  | .engines _ => (s.tilesNotGranted r.job).jobFailed r.job E_POWER (s.startDetail r.job)
  | .dts n => s.dtsTimeout (Fin.ofNat 4 n)
  | .cal t => s.calEnd t 3

/-- The request of `u` reaches its timeout (R438). -/
def hodTimeout (s : State) (u : HodUser) : State :=
  match s.hodQueue.find? fun r => r.user == u with
  | none => s
  | some r =>
    let op := match s.job? r.job with
      | some j => j.op
      | none => 0
    let s := ((s.withdrawHods u).ev R.PWR_EVENT_TIMEOUT).log 1 3 0x0020 op [r.hods, r.cls]
    s.hodFail r

/-- PORTn has been IDLE for PORT_IDLE s (R428). -/
def portIdleOff (s : State) (n : Fin 4) : State :=
  let busy := s.mgt.calRun == some n.val || s.mgt.calRun == some (4 + n.val)
  if s.pstate n = stIdle && !busy then s.portTurnOff n else s

/-- Both ports of CSYk have been IDLE for CSY_IDLE s (R429). -/
def csyIdleStop (s : State) (k : Fin 2) : State :=
  if s.pstate (2 * k.val) = stIdle && s.pstate (2 * k.val + 1) = stIdle && s.bit R.SYN_CTRL_EN (3 + k.val)
  then s.synDisable (3 + k.val) else s

/-! ### Plumb's timers -/

/-- 24 h since the last pass of target `t` (R447). -/
def calDay (s : State) (t : Fin 9) : State :=
  if s.on R.MGT_CAL_CFG_AUTO && (s.mgt.calTj[t]).isSome then (s.calPend t).calNext else s

/-- 10 s after a pass of target `t` that failed not quiet. -/
def calRetried (s : State) (t : Fin 9) : State :=
  if s.mgt.calRetry.testBit t then
    (({ s with mgt := { s.mgt with calRetry := Arith.putBit s.mgt.calRetry t false } } : State).calPend t).calNext
  else s

/-- The target that runs has found no allowed tick for 1 s: it is set aside (R448). -/
def calBlocked (s : State) : State :=
  match s.mgt.calRun with
  | none => s
  | some t =>
    if s.mgt.calIn then s
    else
      let s := { s with mgt := { s.mgt with calRun := none, calStep := 0 } }
      ((s.putBit R.MGT_CAL_PEND_BLOCKED t true).releaseHods (.cal t)).calNext

/-- A blocked target is tried again after 60 s. -/
def calUnblock (s : State) (t : Fin 9) : State :=
  if s.bit R.MGT_CAL_PEND_BLOCKED t then (s.putBit R.MGT_CAL_PEND_BLOCKED t false).calNext else s

/-- CAL_STALE of target `t`: the die temperature has moved too far since its last pass (R135, R238, R252). -/
def calAged (s : State) (t : Nat) : State :=
  if t = 8 then s.put R.RSF_STAT_CAL_STALE true
  else if !s.portOn (t % 4) then s
  else if t < 4 then s.put (R.CDG_PORT_STAT_CAL_STALE t) true
  else s.put (R.RRX_PORT_STAT_CAL_STALE (t - 4)) true

/-- The temperature triggers of R447. -/
def calTemp (s : State) : State :=
  let far (t : Fin 9) : Bool := match s.mgt.calTj[t] with
    | some x => decide (256 * (s.rd R.MGT_CAL_CFG_DELTA : Int) < (s.rdS R.MGT_TJ_TJ - x).natAbs)
    | none => false
  let s := ((List.finRange 9).filter far).foldl (fun (s : State) (t : Fin 9) => s.calAged t) s
  let l : List (Fin 9) := (List.finRange 9).filter fun (t : Fin 9) => s.on R.MGT_CAL_CFG_AUTO && far t
  (l.foldl (fun (s : State) (t : Fin 9) => s.calPend t) s).calNext

/-! ### Sensors (R439, R440) -/

def senLow : Nat := 4
def senHigh : Nat := 8
def senFault : Nat := 16

/-- The flags of the last sample of sensor `id`. -/
def sensorFlags (s : State) (id : Nat) : Nat :=
  match s.mgt.sensors.find? fun x => x.id == id with
  | some x => x.flags
  | none => 0

/-- Stores a sample. -/
def sensorPut (s : State) (id value flags : Nat) : State :=
  let x : Sensor := { id := id, value := value, flags := flags, at_ := s.sys.uptime }
  let l := s.mgt.sensors
  { s with mgt := { s.mgt with sensors := l.filter (fun y => decide (y.id < id)) ++ x :: l.filter fun y => decide (id < y.id) } }

/-- A sensor that leaves its limits, or shows a fault, is reported and logged once per excursion. -/
def sensorLimit (s : State) (id value flags : Nat) : State :=
  let was := s.sensorFlags id
  let s := s.sensorPut id value flags
  if flags != 0 && was = 0 && s.chadihus then
    (s.ev R.MGT_EVENT_SENSOR).log 4 3 0x0040 id [value, flags]
  else s

/-- Nominal values of sensors 0x0010 to 0x0016 in mV (R427, R489). -/
def nominal : List Nat := [750, 900, 1800, 1050, 500, 3300, 800]

/-- LOW or HIGH of a supply of `v` (s24.8 V): more than 5 % from its nominal value. -/
def supplyFlags (v : Int) (mv : Nat) : Nat :=
  if 100000 * v < 95 * 256 * (mv : Int) then senLow else if 105 * 256 * (mv : Int) < 100000 * v then senHigh else 0

/-- The die reaches or leaves HOT (R434). -/
def hotCheck (s : State) (tj : Int) : State :=
  let hot := decide (256 * (s.rd R.PWR_TLIM_HOT : Int) ≤ tj)
  if hot = s.on R.PWR_STAT_HOT then s
  else
    let s := s.put R.PWR_STAT_HOT hot
    if hot then (s.ev R.PWR_EVENT_HOT).log 1 3 0x0021 0 [ofSigned 32 tj] else s.log 1 2 0x0022 0 [ofSigned 32 tj]

/-- The die and supply sensors are sampled: sensors 0x0001 to 0x0008, and 0x0010 to 0x0016. -/
def sensorSample (s : State) (die sup : List Int) : State :=
  if !s.domOn dMGT then s
  else
    let tj := die.foldl max (die.headD 0)
    let lim : Int := 256 * (s.rd R.PWR_TLIM_HOT : Int)
    let dieFlags (v : Int) : Nat := if lim ≤ v then senHigh else 0
    let s := (s.wrS R.MGT_TJ_TJ tj).sensorPut 0 (ofSigned 32 tj) (dieFlags tj)
    let s := (die.zip (List.range 8)).foldl (fun (s : State) (e : Int × Nat) =>
      s.sensorPut (1 + e.2) (ofSigned 32 e.1) (dieFlags e.1)) s
    let s := ((sup.zip nominal).zip (List.range 7)).foldl (fun (s : State) (e : (Int × Nat) × Nat) =>
      s.sensorLimit (0x10 + e.2) (ofSigned 32 e.1.1) (supplyFlags e.1.1 e.1.2)) s
    if s.chadihus then ((s.hotCheck tj).calTemp).memTemp else s

/-- A PMBus rail is read; a fault is logged once per excursion and cleared. -/
def pmbusPoll (s : State) (r v i t status : Nat) : State :=
  if !s.chadihus then s
  else
    let s := { s with mgt := { s.mgt with alert := false } }
    let was := s.sensorFlags (0x100 + r)
    let fl := if status = 0 then 0 else senFault
    let s := ((s.sensorPut (0x100 + r) v fl).sensorPut (0x120 + r) i fl).sensorPut (0x140 + r) t fl
    if fl = 0 then s
    else
      let s := if was = 0 then (s.log 4 4 0x0041 r [status]).ev R.MGT_EVENT_SENSOR else s
      s.emit (.clearFaults r)

/-- A regulator asserts PM_ALERT_N (R392). -/
def pmAlert (s : State) : State := if s.domOn dMGT then { s with mgt := { s.mgt with alert := true } } else s

/-- Period of a sensor in ticks, times 3; readings of the RSF are stale after 10 s. -/
def sensorStale (id : Nat) : Nat := if id < 0x100 then 3750000 else 375000000

/-- The sensors that SENSOR_READ returns: ID, flags and value (R439). -/
def sensorList (s : State) : List (Nat × Nat × Nat) :=
  let own := s.mgt.sensors.map fun x =>
    (x.id, 1 + (if sensorStale x.id < s.sys.uptime - x.at_ then 2 else 0) + x.flags, x.value)
  let rsf := (List.range 16).filterMap fun c =>
    match s.rsfReading c with
    | none => none
    | some (t, st) =>
      let old := decide (12500000000 < (s.now + 2 ^ 64 - st) % 2 ^ 64)
      some (0x200 + c, 1 + (if old then 2 else 0) + (if s.on (R.RSF_CH_RAW_BURNOUT c) then senFault else 0), ofSigned 32 t)
  if s.sys.phase = .footRom then own.filter fun x => decide (x.1 < 0x17) else own ++ rsf

/-! ### Update (R444, R445) -/

/-- Bytes of the image that is being installed; bytes not written read 0xFF. -/
def updateBytes (s : State) (u : Update) (o n : Nat) : List Nat :=
  if u.staged then Mem.reads u.cells flashFill o n else s.slotBytes u.slot o n

/-- A slot is erased. -/
def slotErase (s : State) (k : Nat) : State :=
  { s with flash := Mem.drop s.flash (slotBase k) (slotBase k + 0x00800000) }

/-- The staged image is programmed into its slot. -/
def slotProgram (s : State) (u : Update) : State :=
  if u.staged then (s.slotErase u.slot).flashPut (slotBase u.slot) (s.updateBytes u 0 u.size) else s

/-- The commit checks end (R445); `programmed` is check 5. -/
def updateVerify (s : State) (programmed : Bool) : State :=
  match s.mgt.update with
  | none => s
  | some u =>
    if u.job = 0 then s
    else
      let c := s.imageCheck (s.updateBytes u) (some u.size)
      let s := { s with mgt := { s.mgt with update := none } }
      let s := if c = 0 then s.slotProgram u else s
      let c := if c = 0 && !programmed then 5 else c
      if c = 0 then
        let s := (s.modSys fun y => { y with verified := Arith.putBit y.verified u.slot true }).showImages
        let s := (s.log 3 2 0x0050 u.slot [s.slotWord u.slot 8, s.slotWord u.slot 12]).ev R.MGT_EVENT_UPDATE
        s.jobDone u.job
      else
        let st := if c = 1 then E_PARAM else if c = 5 then E_INTERNAL else E_AUTH
        ((s.showImages).log 3 4 0x0051 c [u.slot]).jobFailed u.job st (4096 * c)

/-! ### Snapshot (R424) -/

/-- Where the copy stands: a word address in the Chadihus area with 8 MB behind it. -/
def snapBase : Nat := 0x21000000 + 4 * (Config.snapshotAt.toNat % (0x01800000 / 4 + 1))

/-- The partition is copied into the Chadihus area. -/
def snapCopy (s : State) (n : Nat) : State :=
  let lo := 0x800000 * n
  let part := s.sram.filter fun c => decide (lo ≤ c.1) && decide (c.1 < lo + 0x800000)
  let m := Mem.drop s.dram snapBase (snapBase + 0x800000)
  let m := part.foldl (fun (m : List Host.Cell) (c : Host.Cell) => Mem.write m dramFill (snapBase + (c.1 - lo)) c.2) m
  { s with dram := m }

def snapDone (s : State) : State :=
  match s.mgt.snap with
  | none => s
  | some (job, n) =>
    let s := ({ s with mgt := { s.mgt with snap := none } } : State).snapCopy n
    s.jobDone job 0 [snapBase % 2 ^ 32, snapBase / 2 ^ 32]

end Sys2Proof.Machine.State

namespace Sys2Proof.Machine
open Sys2Proof

def execHodGrant (s : State) : Out := .next (s.govern 32)
/-- `u`: who made the request that reaches its timeout. -/
def execHodTimeout (u : HodUser) (s : State) : Out := .next (s.hodTimeout u)
def execPortPowerOff (n : Fin 4) (s : State) : Out := .next (s.portIdleOff n)
def execCsyIdleStop (k : Fin 2) (s : State) : Out := .next (s.csyIdleStop k)
def execCal24hTimer (t : Fin 9) (s : State) : Out := .next (s.calDay t)
def execCalRetryTimer (t : Fin 9) (s : State) : Out := .next (s.calRetried t)
def execPlumbHodRetry (s : State) : Out := .next s.calNext
def execCalBlocked (s : State) : Out := .next s.calBlocked
def execCalBlockedRetry (t : Fin 9) (s : State) : Out := .next (s.calUnblock t)
/-- `die`: sensors 0x0001 to 0x0008 (s24.8 °C); `sup`: 0x0010 to 0x0016 (s24.8 V). -/
def execSensorSample (die : Vector Word 8) (sup : Vector Word 7) (s : State) : Out :=
  .next (s.sensorSample (die.toList.map BitVec.toInt) (sup.toList.map BitVec.toInt))
/-- `r`: rail; `v`, `i`, `t`: READ_VOUT, READ_IOUT and READ_TEMPERATURE_1 as s24.8. -/
def execPmbusPoll (r : Fin 16) (v i t : Word) (status : BitVec 16) (s : State) : Out :=
  .next (s.pmbusPoll r v.toNat i.toNat t.toNat status.toNat)
def execPmAlert (s : State) : Out := .next s.pmAlert
/-- `programmed`: the slot was programmed and read back without failure. -/
def execUpdateVerifyDone (programmed : Bool) (s : State) : Out := .next (s.updateVerify programmed)
def execSnapshotDone (s : State) : Out := .next s.snapDone

end Sys2Proof.Machine
end

