-- ==== Sys2Proof/Machine/Streams.lean ====
section
/-! DEFINITION. Streams to the host: their headers (R329), queues (R330), PCIe rings (R380, R381), datagrams (R387),
messages (R383), opening and closing (R328, R375, R421). -/

namespace Sys2Proof.Machine.State
open Sys2Proof Arith

def modStrm (s : State) (st : Fin 7) (f : Strm → Strm) : State := { s with streams := s.streams.set st (f s.streams[st]) }

/-- The bytes of a record: stream header and padded body (R329). -/
def recordBytes (st : Nat) (seq : Nat) (r : Rec) : List Nat :=
  let pad := (4 - r.body.length % 4) % 4
  bytesOfWords [st * 2 ^ 28 + r.port % 4 * 2 ^ 26 + r.rtype * 2 ^ 16, r.body.length + pad, seq % 2 ^ 32, 0,
    r.stamp % 2 ^ 32, r.stamp / 2 ^ 32, 0, 0] ++ r.body ++ List.replicate pad 0

/-! ### Queues -/

/-- The first waiting records that may enter: the oldest, or for the tile stream the oldest of each ring. -/
def waitHeads (st : Nat) (q : Strm) : List Rec :=
  if st = 1 then (List.range 4).filterMap fun e => q.waitq.find? fun w => w.lane == e else q.waitq.take 1

/-- Waiting records enter their queue while it has room (R330). -/
def drainWait (st : Fin 7) : Nat → State → State
  | 0, s => s
  | k + 1, s =>
    let q := s.streams[st]
    match (waitHeads st q).find? fun (w : Rec) => match streamRoom st with
        | none => true
        | some c => decide (streamHeld q.queue st w.lane + recBytes w ≤ c) with
    | none => s
    | some w => drainWait st k (s.modStrm st fun q => { q with queue := q.queue ++ [w], waitq := q.waitq.erase w })

/-- A record has left the queue: what waited for its room goes on, a slot of a segment is free (R308), and the levels
show it. -/
def recordGone (s : State) (st : Fin 7) (r : Rec) : State :=
  let s := drainWait st (s.streams[st]).waitq.length s
  let s := s.showLevel st
  if st = 1 then (s.putBit R.CMP_STAT_STALL r.lane false).showEng (Fin.ofNat 4 r.lane)
  else if st = 4 then s.slotFreed (Fin.ofNat 4 r.lane) r.slot
  else if st = 5 then s.showOutq r.lane
  else s

/-- The rings of the tile stream are taken round-robin among those that hold a record (R330). -/
def turnTo (st : Nat) (q : Strm) : Strm :=
  if st != 1 || q.part != 0 then q
  else
    match ((List.range 4).map fun i => (q.turn + 1 + i) % 4).find? fun e => q.queue.any fun r => r.lane == e with
    | none => q
    | some e =>
      match q.queue.find? fun r => r.lane == e with
      | none => q
      | some r => { q with turn := e, queue := r :: q.queue.erase r }

/-! ### Messages (R383) -/

/-- The last message of stream `st` lies less than COAL_US back. -/
def strSoon (s : State) (st : Fin 7) : Bool :=
  match (s.streams[st]).lastMsg with
  | some t => decide (s.sys.uptime < t + 1250 * s.rd (R.HIF_STR_CFG_COAL_US st))
  | none => false

/-- Vector STRs at the end of a record. -/
def strSignal (s : State) (st : Fin 7) : State :=
  if s.strSoon st then s.modStrm st fun q => { q with coal := true }
  else (s.modStrm st fun q => { q with coal := false, lastMsg := some s.sys.uptime }).signal st

/-- COAL_US after the last message, the message that waits is sent. -/
def strTimer (s : State) (st : Fin 7) : State :=
  if (s.streams[st]).coal then (s.modStrm st fun q => { q with coal := false, lastMsg := some s.sys.uptime }).signal st else s

/-! ### Closing (R328, R375, R421) -/

/-- Stream `st` is closed: what it still held is discarded and counted. -/
def streamShut (s : State) (st : Fin 7) : State :=
  let q := s.streams[st]
  let l := q.queue ++ q.waitq
  let s := (s.modStrm st fun _ => strmInit).put (R.CMP_STR_STAT_OPEN st) false
  let s := (s.count (R.CMP_STR_DISCARD_COUNT st) l.length).showLevel st
  l.foldl (fun (s : State) r => s.recordGone st r) s

/-- STREAM_CLOSE: a record being sent is finished first. -/
def streamClose (s : State) (st : Fin 7) : State :=
  let q := s.streams[st]
  if q.part = 0 then s.streamShut st
  else
    let l := q.queue.drop 1 ++ q.waitq
    let s := s.modStrm st fun q => { q with queue := q.queue.take 1, waitq := [], closing := true }
    let s := s.count (R.CMP_STR_DISCARD_COUNT st) l.length
    l.foldl (fun (s : State) r => s.recordGone st r) s

/-- STREAM_OPEN with both counts at 0 (R381). -/
def streamOpen (s : State) (st : Fin 7) (dest m addr udp : Nat) (ipv6 : Bool) : State :=
  let s := s.modStrm st fun _ => { strmInit with dest := dest, ethM := m, addr := addr, udp := udp, ipv6 := ipv6 }
  ((s.wr (R.HIF_STR_RD_VALUE st) 0).put (R.CMP_STR_STAT_OPEN st) true).showLevel st

/-- Closes every stream to PCIe; a record being written is abandoned (R375). -/
def pcieStreamsShut (s : State) : State :=
  let l : List (Fin 7) := (List.finRange 7).filter fun (st : Fin 7) => (s.streams[st]).dest == 1
  l.foldl (fun (s : State) st => s.streamShut st) s

/-! ### Sending -/

/-- The record in hand of stream `st` has left. -/
def recordSent (s : State) (st : Fin 7) (r : Rec) : State :=
  let s := s.modStrm st fun q => { q with seq := (q.seq + 1) % 2 ^ 32, queue := q.queue.drop 1, part := 0 }
  let s := s.wr (R.CMP_STR_SEQ_SEQ st) (s.streams[st]).seq
  let s := if (s.streams[st]).dest = 1 then s.strSignal st else s
  let s := s.recordGone st r
  if (s.streams[st]).closing then s.streamShut st else s

/-- Writes `l` into the ring at count `w`, going on from its end to its start. -/
def ringWrite (s : State) (base size w : Nat) (l : List Nat) : State :=
  let at_ := w % size
  let k := size - at_
  let s := s.emit (.hostWrite (base + at_) (l.take k))
  if k < l.length then s.emit (.hostWrite base (l.drop k)) else s

/-- Writes `l` and the write count, at least every 64 KB (R380). -/
def ringPieces (st : Fin 7) : Nat → List Nat → State → State
  | 0, _, s => s
  | k + 1, l, s =>
    if l.isEmpty then s
    else
      let q := s.streams[st]
      let piece := l.take 65536
      let s := s.ringWrite (s.rd (R.HIF_STR_BASE_VALUE st)) (2 ^ s.rd (R.HIF_STR_CFG_SIZE st)) q.written piece
      let w := (q.written + piece.length) % 2 ^ 64
      let s := s.emit (.hostWrite (s.rd (R.HIF_STR_WADDR_VALUE st)) (leBytes 8 w))
      ringPieces st k (l.drop 65536) (s.modStrm st fun q => { q with written := w, part := q.part + piece.length })

/-- As many bytes of the record in hand as the ring has room for are written (R380). -/
def pcieSend (s : State) (st : Fin 7) : State :=
  if !s.pcieUp then s
  else
    let s := s.modStrm st (turnTo st)
    let q := s.streams[st]
    match q.queue with
    | [] => s
    | r :: _ =>
      let l := (recordBytes st (q.seq + 1) r).drop q.part
      let size := 2 ^ s.rd (R.HIF_STR_CFG_SIZE st)
      let room := size - (q.written + 2 ^ 64 - s.rd (R.HIF_STR_RD_VALUE st)) % 2 ^ 64
      let s := ringPieces st (l.length / 65536 + 1) (l.take room) s
      if l.length ≤ room then s.recordSent st r else s

/-- Payload bytes of a stream datagram (R387). -/
def fragBytes (s : State) (q : Strm) : Nat :=
  (s.rd (R.HIF_ETH_CFG_MTU q.ethM) - (if q.ipv6 then 40 else 20) - 24) / 4 * 4

/-- The datagrams of a record from byte `ofs` on. -/
def datagrams (st seq f total : Nat) : Nat → Nat → List Nat → List (List Nat)
  | 0, _, _ => []
  | k + 1, frag, l =>
    if l.isEmpty then []
    else
      let last := decide (l.length ≤ f)
      (bytesOfWords [st * 2 ^ 28 + ofBool (frag == 0) * 2 ^ 27 + ofBool last * 2 ^ 26 + frag % 65536, seq % 2 ^ 32,
        f * frag, total] ++ l.take f) :: datagrams st seq f total k (frag + 1) (l.drop f)

/-- The stream that Ethernet port `m` takes next: round-robin among those with a record (R387). -/
def ethNext (s : State) (m : Fin 2) : Option (Fin 7) :=
  let l : List (Fin 7) := (List.range 7).map fun i => Fin.ofNat 7 (s.hif.ethTurn[m] + 1 + i)
  l.find? fun (st : Fin 7) => (s.streams[st]).dest == 2 && (s.streams[st]).ethM == m.val && !(s.streams[st]).queue.isEmpty

/-- Ticks that HIF_ETHm_RATE gives to `n` bytes of stream datagrams (R387). -/
def paceTicks (s : State) (m : Fin 2) (n : Nat) : Nat := ceilDiv (n * 125) (s.rd (R.HIF_ETH_RATE_LIMIT m))

/-- The whole record is sent as datagrams, but while a PAUSE (R384) or the port's rate (R387) holds the port. -/
def ethSend (s : State) (st : Fin 7) : State :=
  let m : Fin 2 := Fin.ofNat 2 (s.streams[st]).ethM
  if !s.ethUp m || s.ethNext m != some st || decide (s.sys.uptime < s.hif.pause[m])
      || decide (s.sys.uptime < s.hif.paced[m]) then s
  else
    let s := s.modStrm st (turnTo st)
    let q := s.streams[st]
    match q.queue with
    | [] => s
    | r :: _ =>
      let l := recordBytes st (q.seq + 1) r
      let ds := datagrams st (q.seq + 1) (s.fragBytes q) l.length (l.length + 1) 0 l
      let s := ds.foldl (fun (s : State) d => s.emit (.datagram m q.addr q.udp d)) s
      let s := s.count (R.HIF_ETH_TXOK_COUNT m) ds.length
      let t := s.sys.uptime + s.paceTicks m (ds.map List.length).sum
      let s := { s with hif := { s.hif with ethTurn := s.hif.ethTurn.set m st.val, paced := s.hif.paced.set m t } }
      s.recordSent st r

/-- HIF serves stream `st`. -/
def recordSend (s : State) (st : Fin 7) : State :=
  let d := (s.streams[st]).dest
  if d = 1 then s.pcieSend st else if d = 2 then s.ethSend st else s

end Sys2Proof.Machine.State

namespace Sys2Proof.Machine
open Sys2Proof

def execStreamRecordSend (st : Fin 7) (s : State) : Out := .next (s.recordSend st)
/-- `rd`: the host's read count. -/
def execStrRdWrite (st : Fin 7) (rd : DWord) (s : State) : Out :=
  .next (if st = 0 then s else s.gate 0x340110 fun s => s.wr (R.HIF_STR_RD_VALUE st) rd.toNat)
def execStrCoalesceTimer (st : Fin 7) (s : State) : Out := .next (s.strTimer st)

end Sys2Proof.Machine
end

