-- ==== Sys2Proof/Machine/SynRows.lean ====
section
/-! DEFINITION. The commands and events of the clock synthesis (R47 to R72), with what follows a lock or its loss in
the boot (R455), the port starts (R429) and DRAM (R341). -/

namespace Sys2Proof.Machine.State
open Sys2Proof Arith

/-- Starts that wait for the carrier synthesiser `p` wait for its band search too: 2.1 ms in all (R429). -/
def searchWait (s : State) (p : Nat) : State :=
  (List.finRange 4).foldl (fun (s : State) (n : Fin 4) =>
    if 3 + csyOf n = p then s.modPort n fun q => { q with lockBy := q.lockBy.map fun t => t + 2500000 } else s) s

/-- After an event of synthesiser `p`: a search that firmware has begun extends the waits, PLL_M's lock concerns DRAM,
and waiting starts go on. -/
def synFollow (was s : State) (p : Nat) : State :=
  let began := !was.on (R.SYN_PLL_STAT_SEARCH_BUSY p) && s.on (R.SYN_PLL_STAT_SEARCH_BUSY p)
  let s := if began && 3 ≤ p then s.searchWait p else s
  let s := if p = 2 && was.bit R.SYN_STAT_LOCK 2 && !s.bit R.SYN_STAT_LOCK 2 then s.memLockLoss else s
  s.advanceAll

/-- What a lock lets go on. -/
def lockFollow (s : State) (p : Nat) : State :=
  let s := if p = 1 && s.bit R.SYN_STAT_LOCK 1 then s.bootLocked else s
  let s := if p = 2 && s.bit R.SYN_STAT_LOCK 2 then s.memRelock else s
  s.advanceAll

/-- A search of PLL_S or PLL_C in boot step 4 that finds no band fails the attempt (R53). -/
def searchFollow (s : State) (p : Nat) (found : Bool) : State :=
  let s := if !found && p < 2 then s.refFail else s
  s.advanceAll

def offSyn : Nat := 0x40000

end Sys2Proof.Machine.State

namespace Sys2Proof.Machine
open Sys2Proof State

def execSynEnable (p : Fin 5) (s : State) : Out :=
  .next (s.gate offSyn fun s => synFollow s (s.synEnable p false) p)
def execSynDisable (p : Fin 5) (s : State) : Out := .next (s.gate offSyn fun s => synFollow s (s.synDisable p) p)
def execRefModeWrite (m : BitVec 2) (s : State) : Out := .next (s.gate offSyn fun s => s.refModeWrite m.toNat)
/-- `err`: the phase error in units of 3.125 ps ÷ 256 of the last detector cycle. -/
def execLockDeclared (p : Fin 5) (err : Measured) (s : State) : Out :=
  .next (if s.mayLock p err then (s.lockDeclared p err).lockFollow p else s)
def execLockLoss (p : Fin 5) (err : Measured) (s : State) : Out := .next (synFollow s (s.lockLoss p err) p)
def execBandFail (p : Fin 5) (s : State) : Out := .next (synFollow s (s.rangeEnd p) p)
def execBandSearch (p : Fin 5) (s : State) : Out := .next (s.gate offSyn fun s => synFollow s (s.bandSearch p) p)
/-- `found`: the best band, none where no band is usable. -/
def execBandSearchDone (p : Fin 5) (found : Option (BitVec 6)) (s : State) : Out :=
  .next (if s.on (R.SYN_PLL_STAT_SEARCH_BUSY p) then (s.searchDone p found).searchFollow p found.isSome else s)
def execOcxoRdyRise (s : State) : Out := 
  let s := s.modSys fun y => { y with ocxo := true }
  .next (if s.domOn dTIME then s.ocxoRise.advanceAll else s)
def execOcxoRdyFall (s : State) : Out := 
  let s := s.modSys fun y => { y with ocxo := false }
  .next (if s.domOn dTIME then s.ocxoFall else s)
def execCsyCommit (k : Fin 2) (s : State) : Out := .next (s.gate offSyn fun s => (s.csyCommit k).1)
def execPhaseEpochWrite (e : DWord) (s : State) : Out := .next (s.gate offSyn fun s => s.phaseEpoch e.toNat)
/-- `rem`: what a slew in progress has left. -/
def execRefLoss (rem : Measured) (s : State) : Out :=
  .next (if s.domOn dTIME then synFollow s (s.refLoss rem) 0 else s)
/-- `jump`: the jump measured on the returning reference. -/
def execRefReturn (jump : Measured) (s : State) : Out :=
  .next (if s.domOn dTIME then synFollow s (s.refReturn jump) 0 else s)
def execSlewDone (s : State) : Out := .next s.slewDone

end Sys2Proof.Machine
end

