-- ==== Sys2Proof/Machine/Bar0.lean ====
section
/-! DEFINITION. Accesses to the register space and to BAR2 (R5 to R11, R29, R39 to R46, R461, R511), and the rules by
which the registers of each block accept a write. -/

namespace Sys2Proof.Machine.State
open Sys2Proof Arith

/-! ### Storing a write by access type (R5) -/

/-- A field takes the bits `v` of a write. -/
def storeField (s : State) (f : Field) (v : Nat) : State :=
  match f.acc with
  | .rw => s.wr f (f.norm.apply v)
  | .w1c => s.wr f (s.rd f &&& (2 ^ f.width - 1 - v))
  | .w1cAll => if v = 0 then s else s.wr f 0
  | .ro | .wo | .rws => s

/-- Every field of a register takes its bits of `v`; a write to an event register signals its vector again (R383). -/
def store (s : State) (h : Hit) (v : Nat) : State :=
  (h.reg.fields.foldl (fun (s : State) f => s.storeField (f.shift h.d) (slice v (f.lo h.reg.base) f.width)) s).evWritten
    (h.reg.base + h.d)

/-- The bits of field `f` in the 32-bit word `v`. -/
def cut (v : Nat) (f : Field) : Nat := slice v (f.key % 32) f.width
def cutOn (v : Nat) (f : Field) : Bool := cut v f != 0

/-- The word `v` with the bits of `f` as they stand. -/
def hold (s : State) (v : Nat) (f : Field) : Nat := v - cut v f * 2 ^ (f.key % 32) + s.rd f * 2 ^ (f.key % 32)

/-- A discarded write sets a reject flag (R511). -/
def storeUnless (s : State) (bad : Bool) (reject : Field) (h : Hit) (v : Nat) : State :=
  if bad then s.ev reject else s.store h v

/-- The indices of a register instance. -/
def dimIdx : List (Nat × Nat) → Nat → List Nat
  | [], _ => []
  | (st, k) :: l, d => let i := min (k - 1) (d / st); i :: dimIdx l (d - i * st)

/-- Port `n` is not IDLE. -/
def busyPort (s : State) (n : Nat) : Bool := s.pstate n != stIdle

/-! ### The rules of each block -/

/-- SYS and PWR (R434, R435, R467). -/
def writeSys (s : State) (h : Hit) (v : Nat) : State :=
  if h.reg.base = 0x204 then
    s.rstCtrl (cut v R.SYS_RST_CTRL_KEY) (cutOn v R.SYS_RST_CTRL_FOOT) (cutOn v R.SYS_RST_CTRL_RESET)
  else if h.reg.base = 0x10000 then
    s.storeUnless (decide (max 1 (min 256 (cut v R.PWR_BUDGET_BUDGET)) < s.granted)) R.PWR_EVENT_CFG_REJECT h v
  else if h.reg.base = 0x10014 then
    let s := s.store h v
    if s.chadihus then s.hotCheck (s.rdS R.MGT_TJ_TJ) else s
  else s.store h v

/-- EN of SYN_CTRL takes the mask `m`. -/
def writeEn (s : State) (m : Nat) : State :=
  (List.range 5).foldl (fun (s : State) p =>
    if m.testBit p = s.bit R.SYN_CTRL_EN p then s
    else if m.testBit p then synFollow s (s.synEnable p false) p
    else synFollow s (s.synDisable p) p) s

/-- SYN (R52, R54, R57, R64, R70). -/
def writeSyn (s : State) (h : Hit) (n k v : Nat) : State :=
  let b := h.reg.base
  if b = 0x40000 then
    if s.refModeBad (cut v R.SYN_CTRL_REF_MODE) then s.ev R.SYN_EVENT_CFG_REJECT
    else
      let s := s.store h (s.hold v R.SYN_CTRL_EN)
      let s := s.wr R.SYN_CTRL_SLEW_RATE (max 1 (min 100 (cut v R.SYN_CTRL_SLEW_RATE)))
      (s.writeEn (cut v R.SYN_CTRL_EN)).evalTq
  else if b = 0x40018 then s.phaseEpoch v
  else if 0x40100 ≤ b && b ≤ 0x40180 && b % 32 = 0 then
    let p := (b - 0x40100) / 32
    let go := cutOn v (R.SYN_PLL_CFG_SEARCH p)
    if go && s.bit R.SYN_CTRL_EN p then s.ev R.SYN_EVENT_CFG_REJECT
    else
      let s := s.store h v
      let s := if p = 2 then s else s.wr (R.SYN_PLL_CFG_OP p) 0
      if go then synFollow s (s.bandSearch p) p else s
  else if 0x40200 ≤ b && b < 0x40300 then (s.store h v).bandTouched n k
  else if b = 0x41000 then
    let go := cutOn v (R.SYN_CSY_CTRL_COMMIT n)
    if go && s.csyServes n then s.ev R.SYN_EVENT_SLOT_REJECT
    else
      let s := s.store h v
      if go then (s.csyCommit n).1 else s
  else s.store h v

/-- TBU and TDC (R75, R79, R80, R87, R89, R92). -/
def writeTbu (s : State) (h : Hit) (n v : Nat) : State :=
  let b := h.reg.base
  let u := Fin.ofNat 8 n
  if b = 0x50000 then (s.store h v).evalTq.refoutNow
  else if b = 0x50028 then
    s.epochWrite (cut v R.TBU_EPOCH_CTRL_ACTION) (cutOn v R.TBU_EPOCH_CTRL_ON_PPS)
      (cutOn v R.TBU_EPOCH_CTRL_DISARM) (cut v R.TBU_EPOCH_CTRL_SRC)
  else if b = 0x50040 then s.slewNow.timeAdjust (toSigned 32 v)
  else if b = 0x51000 then
    let was := s.on (R.TDC_CFG_EN n)
    let s := s.store h (s.hold v (R.TDC_CFG_EN n))
    if cutOn v (R.TDC_CFG_EN n) = was then s else if was then s.tdcDisable u else s.tdcEnable u
  else if b = 0x51010 then
    let s := s.store h v
    if cutOn v (R.TDC_STATCFG_CLR n) then s.tdcClear u else s
  else if b = 0x51014 then if cutOn v (R.TDC_SW_FIRE n) then s.tdcFire u else s
  else s.store h v

/-- LDR, PPE and RMD (R97, R102, R107, R109, R111 to R113, R118). -/
def writeLaunch (s : State) (h : Hit) (n k v : Nat) : State :=
  let b := h.reg.base
  let m := Fin.ofNat 4 n
  if b = 0x80004 then s.biasWrite m (cut v (R.LDR_BIAS_CODE n)) (cut v (R.LDR_BIAS_SLEW n))
  else if b = 0x81000 || b = 0x82000 || b = 0x82004 then s.storeUnless (s.busyPort n) (R.PPE_EVENT_STORE_REJECT n) h v
  else if 0x83000 ≤ b && b < 0x83200 then
    if k = s.route m then
      if s.busyPort n then s.ev (R.PPE_EVENT_STORE_REJECT n) else (s.store h v).showVerified m
    else s.store h v
  else if b = 0x83200 then s.routeWrite m (cut v (R.RMD_ROUTE_SEL_SEL n))
  else if b = 0x90000 then (s.store h (s.hold v R.RMD_SCAN_CTRL_EN)).scanEnable (cutOn v R.RMD_SCAN_CTRL_EN)
  else if b = 0x90004 then
    let was := s.on R.RMD_ILK_CTRL_SW_STOP
    let b := cutOn v R.RMD_ILK_CTRL_SW_STOP
    let s := s.store h (s.hold v R.RMD_ILK_CTRL_SW_STOP)
    let s := if b = was then s else s.swStop b
    let s := if cutOn v R.RMD_ILK_CTRL_CLEAR then s.ilkCtrlClear else s
    s.showIlk
  else if b = 0x90100 then (s.store h (s.hold v (R.RMD_ELEM_FORCE n))).elemForce n (cut v (R.RMD_ELEM_FORCE n))
  else s.store h v

/-- CDG and CPL (R128, R167). -/
def writePipe (s : State) (h : Hit) (n k v : Nat) : State :=
  let b := h.reg.base
  if b = 0xC1100 then
    if s.busyPort n then s.ev R.CDG_EVENT_CFG_REJECT else (s.store h v).laneCfgWritten (Fin.ofNat 4 n) k
  else if b = 0x100000 || b = 0x100200 then s.storeUnless (s.busyPort n) (R.CPL_EVENT_CFG_REJECT n) h v
  else if b = 0x100100 then
    s.storeUnless (s.busyPort n && k == s.route (Fin.ofNat 4 n)) (R.CPL_EVENT_CFG_REJECT n) h v
  else if b = 0xC0000 then
    (List.finRange 4).foldl (fun (s : State) (m : Fin 4) => s.showQuiet m) (s.store h v)
  else s.store h v

/-- ZON, FDC and EVE (R169, R183, R199, R204, R208, R213, R518). -/
def writeZone (s : State) (h : Hit) (n v : Nat) : State :=
  let b := h.reg.base
  if b < 0x160000 then s.storeUnless (s.zon.busy != 0) R.ZON_EVENT_WRITE_REJECT h v
  else if b = 0x160000 then s.zonCtrl (cutOn v R.ZON_CTRL_COMMIT) (cutOn v R.ZON_CTRL_DISCARD)
  else if b = 0x160100 then s.zonNgWrite (Fin.ofNat 4 n) (cut v (R.ZON_PORT_NG_NG n))
  else if b = 0x180000 then
    let s := s.store h v
    if cutOn v (R.FDC_CTRL_SYNC n) then s.fdcSync (Fin.ofNat 4 n) else s
  else if 0x180100 ≤ b && b < 0x1A0000 then s.storeUnless (s.busyPort n) (R.FDC_EVENT_CFG_REJECT n) h v
  else if b = 0x1A0010 then s.wakeCancel (cut v R.EVE_WAKE_CANCEL)
  else if b = 0x1A0100 then
    s.storeUnless ((List.range 4).any s.busyPort) R.EVE_EVENT_CFG_REJECT h v
  else if b = 0x1A1000 then (s.store h v).tsetCommit n
  else s.store h v

/-- RRX and RSF (R235, R252 to R254). -/
def writeSense (s : State) (h : Hit) (n v : Nat) : State :=
  let b := h.reg.base
  if 0x1C1000 ≤ b && b < 0x1C1040 && b != 0x1C1014 && b != 0x1C1018 && b != 0x1C101C then
    let s' := s.storeUnless (rrxBusy s.rrx[Fin.ofNat 4 n]) R.RRX_EVENT_CFG_REJECT h v
    if b = 0x1C1000 && !rrxBusy s.rrx[Fin.ofNat 4 n] then s'.rrxModeWrite (Fin.ofNat 4 n) else s'
  else if b = 0x1C0000 then
    (List.finRange 4).foldl (fun (s : State) (m : Fin 4) => s.showRamanQuiet m) (s.store h v)
  else if b = 0x1E0000 then
    let was := s.on R.RSF_CTRL_EN
    let s := (s.store h (s.hold v R.RSF_CTRL_EN)).rsfHold
    let s := if cutOn v R.RSF_CTRL_EN = was then s else if was then s.rsfDisable else s.rsfEnable
    if cutOn v R.RSF_CTRL_SELFCAL then s.selfcalWrite else s
  else if 0x1E0100 ≤ b && b ≤ 0x1E0110 then (s.store h v).modRsf fun r => { r with dirty := true }
  else s.store h v

/-- VDC and ACQ (R288, R294, R296, R299, R300, R308, R311). -/
def writeCapture (s : State) (h : Hit) (n v : Nat) : State :=
  let b := h.reg.base
  let k := Fin.ofNat 4 n
  if b = 0x201000 || b = 0x201004 || b = 0x201008 then
    s.storeUnless (s.gruns (s.rd (R.VDC_BIND_CORE n) / 8)) R.VDC_EVENT_CFG_REJECT h v
  else if b = 0x240000 then (s.store h v).showPanic
  else if b = 0x24000C then s.swTrig (cut v R.ACQ_SWTRIG_FIRE)
  else if b = 0x240010 then s.seqCtrl (cutOn v R.ACQ_SEQ_CTRL_EN) (cut v R.ACQ_SEQ_CTRL_START)
  else if (0x240020 ≤ b && b ≤ 0x24002C) || b = 0x240100 || b = 0x240200 || b = 0x240204 then
    s.storeUnless (s.on R.ACQ_SEQ_CTRL_EN) R.ACQ_EVENT_CFG_REJECT h v
  else if 0x241000 ≤ b && b ≤ 0x241014 then s.storeUnless (s.cstate k != cIdle) R.ACQ_EVENT_CFG_REJECT h v
  else if b = 0x241018 then
    let s := if cutOn v (R.ACQ_CH_CTRL_ARM n) then (s.arm k 0).1 else s
    if cutOn v (R.ACQ_CH_CTRL_DISARM n) then s.chDisarm k else s
  else if b = 0x241030 then s.freeWrite k (cut v (R.ACQ_CH_FREE_SLOT n))
  else s.store h v

/-- CMP, MEM, SCO and ARY (R327, R336, R341, R368, R371, R487). -/
def writeStore (s : State) (h : Hit) (n v : Nat) : State :=
  let b := h.reg.base
  if b = 0x28000C then s.cmpFlush v
  else if 0x281000 ≤ b && b ≤ 0x281018 then s.storeUnless (s.defOn n) R.CMP_EVENT_CFG_REJECT h v
  else if b = 0x2C0000 then
    let s := s.store h v
    if cutOn v R.MEM_CTRL_RETRAIN then s.memCommand 0 0 else s
  else if b = 0x2C0010 then
    if s.memState = memOff || s.memState = memDegraded then
      s.memCfg (cut v R.MEM_DRAM_CFG_DENSITY) (cut v R.MEM_DRAM_CFG_RANKS) (cutOn v R.MEM_DRAM_CFG_ECC_EN)
    else s.ev R.MEM_EVENT_CFG_REJECT
  else if b = 0x300000 then
    let s := if cutOn v R.SCO_CTRL_COMMIT then s.scoCommit else s
    if cutOn v R.SCO_CTRL_TCOMMIT then s.scoTcommit else s
  else if b = 0x300018 || (0x300020 ≤ b && b ≤ 0x30002C) then
    s.storeUnless (s.scoState != scoOff) R.SCO_EVENT_CFG_REJECT h v
  else if b = 0x380000 then
    s.storeUnless (s.rd R.ARY_STAT_STATE != 0 && cut v R.ARY_CTRL_ETH != s.rd R.ARY_CTRL_ETH) R.ARY_EVENT_CFG_REJECT h v
  else if b = 0x380004 || b = 0x380008 then
    s.storeUnless (s.rd R.ARY_STAT_STATE != 0) R.ARY_EVENT_CFG_REJECT h v
  else s.store h v

/-- The completions that are held, when the ring goes out of use: discarded and counted (R375). -/
def heldDrop (s : State) : State :=
  s.hif.held.foldl (fun (s : State) c => s.completionLost c) { s with hif := { s.hif with held := [] } }

/-- An event bit of HIF, whose registers need CORE. -/
def hifEv (s : State) (f : Field) : State := if s.domOn dCORE then s.ev f else s

/-- The link of port `m` comes up, on a port in use, or goes down (R388). -/
def ethLink (s : State) (m : Fin 2) (up : Bool) : State :=
  if up = s.ethUp m || (up && !s.on (R.HIF_ETH_CFG_EN m)) then s
  else if m.val = 0 then (s.put R.HIF_STAT_ETH0_UP up).hifEv R.HIF_EVENT_ETH0_LINK
  else (s.put R.HIF_STAT_ETH1_UP up).hifEv R.HIF_EVENT_ETH1_LINK

/-- HIF (R374, R379, R381, R384, R394). A port that goes out of use has no link. -/
def writeHif (s : State) (h : Hit) (n v : Nat) : State :=
  let b := h.reg.base
  if b = 0x340010 then s.storeUnless (s.on R.HIF_SQ_CFG_EN) R.HIF_EVENT_CFG_REJECT h v
  else if b = 0x340028 then s.storeUnless (s.on R.HIF_CQ_CFG_EN) R.HIF_EVENT_CFG_REJECT h v
  else if b = 0x340018 then
    let en := cutOn v R.HIF_SQ_CFG_EN
    if s.on R.HIF_SQ_CFG_EN && en then s.ev R.HIF_EVENT_CFG_REJECT
    else
      let s := s.store h v
      if en then (s.wr R.HIF_SQ_TAIL_INDEX 0).wr R.HIF_SQ_HEAD_INDEX 0 else s
  else if b = 0x340030 then
    let en := cutOn v R.HIF_CQ_CFG_EN
    if s.on R.HIF_CQ_CFG_EN && en then s.ev R.HIF_EVENT_CFG_REJECT
    else
      let s := s.store h v
      if en then
        let s := (s.wr R.HIF_CQ_HEAD_INDEX 0).wr R.HIF_CQ_TAIL_INDEX 0
        { s with hif := { s.hif with phase := true, cqNew := 0 } }
      else s.heldDrop
  else if b = 0x340034 then (s.store h v).drainHeld 192
  else if b = 0x340120 || b = 0x340128 || b = 0x340138 then
    s.storeUnless (s.streams[Fin.ofNat 7 (n + 1)].dest != 0) R.HIF_EVENT_CFG_REJECT h v
  else if b = 0x341000 then
    if s.on (R.HIF_ETH_CFG_EN n) && cutOn v (R.HIF_ETH_CFG_EN n) then s.ev R.HIF_EVENT_CFG_REJECT
    else
      let s := s.store h v
      let s := if s.rd (R.HIF_ETH_CFG_FEC n) = 2 && !s.on (R.HIF_ETH_CFG_SPEED n) then s.wr (R.HIF_ETH_CFG_FEC n) 0 else s
      if s.on (R.HIF_ETH_CFG_EN n) then s else s.ethLink (Fin.ofNat 2 n) false
  else if b = 0x34800C then
    let s := s.store h v
    if !s.on (R.HIF_MSIX_MASK n) && s.bit (R.HIF_PBA_PENDING (n / 32)) (n % 32) then
      (s.putBit (R.HIF_PBA_PENDING (n / 32)) (n % 32) false).signal n
    else s
  else s.store h v

/-- A write of the register `h`, 64-bit registers whole. -/
def writeReg (s : State) (h : Hit) (v : Nat) : State :=
  let b := h.reg.base
  let ix := dimIdx h.reg.dims h.d
  let n := ix.getD 0 0
  let k := ix.getD 1 0
  if b < 0x20000 then s.writeSys h v
  else if b < 0x40000 then s.store h v
  else if b < 0x50000 then s.writeSyn h n k v
  else if b < 0x80000 then s.writeTbu h n v
  else if b < 0xC0000 then s.writeLaunch h n k v
  else if b < 0x140000 then s.writePipe h n k v
  else if b < 0x1C0000 then s.writeZone h n v
  else if b < 0x200000 then s.writeSense h n v
  else if b < 0x280000 then s.writeCapture h n v
  else if b < 0x340000 then s.writeStore h n v
  else if b < 0x380000 then s.writeHif h n v
  else s.writeStore h n v

/-! ### BAR0 -/

/-- A write of the low word of a 64-bit register goes to its buffer (R11). -/
def lowWrite (s : State) (off v : Nat) : State := { s with wbuf := Bank.put s.wbuf off v 0 }

/-- The flag of the rule that discards a write of the low word of a 64-bit register, as it would one of the high word:
each 32-bit write is discarded by itself (R511). -/
def lowReject (s : State) (h : Hit) (n k : Nat) : Option Field :=
  let b := h.reg.base
  if b = 0x40018 then (if s.anyPortShows then some R.SYN_EVENT_CFG_REJECT else none)
  else if b = 0x83000 || b = 0x83008 then
    if k = s.route n && s.busyPort n then some (R.PPE_EVENT_STORE_REJECT n) else none
  else if b = 0x340010 then (if s.on R.HIF_SQ_CFG_EN then some R.HIF_EVENT_CFG_REJECT else none)
  else if b = 0x340028 then (if s.on R.HIF_CQ_CFG_EN then some R.HIF_EVENT_CFG_REJECT else none)
  else if b = 0x340120 || b = 0x340128 then
    if s.streams[Fin.ofNat 7 (n + 1)].dest != 0 then some R.HIF_EVENT_CFG_REJECT else none
  else none

/-- A write of the high word commits both words together (R11). -/
def highWrite (s : State) (h : Hit) (off v : Nat) : State :=
  s.writeReg h (v * 2 ^ 32 + Bank.get s.wbuf (off - 4) 0)

/-- The register at `off` that is decoded and whose block answers, for a 32-bit access; none when the access ends here,
with the state it leaves (R9, R10, R29). An access of the wrong size or alignment sets BAD_ACCESS alone, also where the
block's domain is off (DESIGN CHOICE, log entry 82). -/
def decodeAccess (s : State) (off : Nat) (sized : Bool) : Option Hit × State :=
  if !sized || off % 4 != 0 then (none, s.ev R.SYS_GSTAT_BAD_ACCESS)
  else
    match domainOf off with
    | none => (none, s)
    | some d => if s.domOn d || retainedAt off then (regAt off, s) else (none, s.ev R.SYS_GSTAT_PD_ACCESS)

/-- A write of `v` at a BAR0 offset, from whichever interface. -/
def bar0Write (s : State) (off : Nat) (sized : Bool) (v : Nat) : State :=
  match s.decodeAccess off sized with
  | (none, s) => s
  | (some h, s) =>
    if h.reg.wide then
      if h.hi then s.highWrite h off v
      else
        let ix := dimIdx h.reg.dims h.d
        match s.lowReject h (ix.getD 0 0) (ix.getD 1 0) with
        | some f => s.ev f
        | none => s.lowWrite off v
    else s.writeReg h v

/-- The state with the fields of the register at `b` that follow something else as they read now. -/
def shown (s : State) (b n : Nat) : State :=
  if b = 4 then
    let ports (k : Nat) : Nat := ((List.finRange 4).map fun m => if s.portShows m = k then 2 ^ m.val else 0).sum
    ((((((((s.put R.SYS_GSTAT_PLL_S_LOCK (s.bit R.SYN_STAT_LOCK 0)).put R.SYS_GSTAT_PLL_C_LOCK
      (s.bit R.SYN_STAT_LOCK 1)).put R.SYS_GSTAT_PLL_M_LOCK (s.bit R.SYN_STAT_LOCK 2)).put R.SYS_GSTAT_CSY0_LOCK
      (s.bit R.SYN_STAT_LOCK 3)).put R.SYS_GSTAT_CSY1_LOCK (s.bit R.SYN_STAT_LOCK 4)).put R.SYS_GSTAT_ILK_CLEAR
      s.ilkClear).wr R.SYS_GSTAT_PORT_RUN (ports 1)).wr R.SYS_GSTAT_PORT_WATCH (ports 2)).wr R.SYS_GSTAT_MODE s.sys.mode
  else if b = 0x1000C then s.wr R.PWR_DOMAIN_ON s.sys.domains
  else if b = 0x40014 then if s.on R.SYN_STAT_HOLDOVER then s.wr R.SYN_HOLD_TIME_MS s.holdMs else s
  else if b = 0x50010 then s.wr R.TBU_STAMP_COUNT s.now
  else if b = 0x200100 then
    let cores (p : DCore → Bool) : Nat :=
      ((List.range 8).map fun k => if p s.vdc.cores[Fin.ofNat 64 (8 * n + k)] then 2 ^ k else 0).sum
    (s.wr (R.VDC_GRP_STAT_HALTED n) (cores fun k => k.halted && k.ran)).wr (R.VDC_GRP_STAT_WAITING n)
      (cores fun k => k.waiting.isSome)
  else if b = 0x204000 || b = 0x204004 then
    let k := s.vdc.cores[Fin.ofNat 64 n]
    (((((((s.put (R.VDC_CORE_STAT_HALTED n) k.halted).put (R.VDC_CORE_STAT_WAITING n) k.waiting.isSome).put
      (R.VDC_CORE_STAT_OVH n) (Dsp.flag k Dsp.flOVH)).put (R.VDC_CORE_STAT_XBUSY n) k.xfer.isSome).wr
      (R.VDC_CORE_STAT_FAULT n) k.fault).wr (R.VDC_CORE_STAT_ENTRY n) k.entry).wr (R.VDC_CORE_STAT_PC n) k.pc).wr
      (R.VDC_CORE_AOV_AOV n) k.aov.toNat
  else s

/-- The value of a register. -/
def regValue (s : State) (h : Hit) : Nat :=
  (h.reg.fields.map fun f => s.rd (f.shift h.d) * 2 ^ f.lo h.reg.base).sum

/-- Footing mode, as the ROM or Chadihus serves it (R459). -/
def footing (s : State) : Bool := s.sys.phase == .footRom || s.sys.phase == .footFw

/-- A read of the register `h` at `off`: its data, and what the read does. -/
def readReg (s : State) (h : Hit) (off : Nat) : Nat × State :=
  let b := h.reg.base
  let n := (dimIdx h.reg.dims h.d).getD 0 0
  let v := (s.shown b n).regValue h
  if b = 4 && s.footing then (0, s)
  else if b = 0x40010 then (s.slewNow.regValue h, s.slewNow)
  else if b = 0x1E0124 || b = 0x1E0128 || b = 0x1E0130 || b = 0x1E0138 then (Bank.get s.shadow off 0, s)
  else if b = 0x1E0120 then (v, s.rsfRawRead n)
  else if b = 0x1E0134 then (v, s.rsfGoodRead n)
  else if b = 0x5102C then (v, s.tdcPop (Fin.ofNat 8 n))
  else if h.reg.wide then
    if h.hi then (Bank.get s.shadow (off - 4) 0, s)
    else (v % 2 ^ 32, { s with shadow := Bank.put s.shadow off (v / 2 ^ 32) 0 })
  else (v, s)

/-- A read at a BAR0 offset, from whichever interface. -/
def bar0Read (s : State) (off : Nat) (sized : Bool) : Nat × State :=
  match s.decodeAccess off sized with
  | (none, s) => (0, s)
  | (some h, s) => s.readReg h off

/-- What the endpoint does with an access to a BAR: until boot complete and in footing mode reads give 0 and writes are
discarded (R41, R461), and in D3hot nothing is decoded (R374). -/
inductive Decode where
  | serve | zero | none
  deriving DecidableEq

def pcieDecode (s : State) : Decode :=
  if s.on R.HIF_STAT_D3HOT then .none else if s.sys.phase == .up then .serve else .zero

def pcieWrite (s : State) (off : Nat) (sized : Bool) (v : Nat) : State :=
  if s.pcieDecode = .serve then s.bar0Write off sized v else s

def pcieRead (s : State) (off : Nat) (sized : Bool) : State :=
  match s.pcieDecode with
  | .none => s
  | .zero => s.emit (.bar0 0)
  | .serve =>
    let (v, s) := s.bar0Read off sized
    s.emit (.bar0 v)

/-- The low word of a 64-bit register, or its high word, lies at `off`. -/
def wideAt (off : Nat) (hi : Bool) : Bool :=
  match regAt off with
  | some h => h.reg.wide && h.hi == hi
  | none => false

/-! ### BAR2 (R43 to R46, R332, R333, R338) -/

/-- What a BAR2 offset shows: nothing, on-chip memory, DRAM, or DRAM beyond the capacity. -/
inductive Place where
  | empty
  | sram (a : Nat)
  | dram (a : Nat)
  | beyond
  deriving DecidableEq

def bar2Place (s : State) (off : Nat) : Place :=
  if off < 0x04000000 then (if s.domOn dMEM then .sram off else .empty)
  else if off < 0x05000000 then
    let c := (off - 0x04000000) / 0x40000
    if (off - 0x04000000) % 0x40000 < 0x28000 && s.domOn (dDSP (c / 8)) then .sram off else .empty
  else if off < 0x20000000 then .empty
  else
    let a := s.rd (R.SYS_BAR2_PAGE_PAGE ((off - 0x20000000) / 0x4000000)) * 0x4000000 + off % 0x4000000
    if s.degraded || s.capacity ≤ a then .beyond else .dram a

/-- A RAW or unit slot that channel `k` fills holds the on-chip offset `a`. -/
def slotFills (s : State) (k : Fin 4) (a : Nat) : Bool :=
  let lo := acqBase + (s.chRegion k).1 + s.rd (R.ACQ_CH_STAT_SLOT k) * s.rd (R.ACQ_CH_STRIDE_VALUE k)
  !s.on (R.ACQ_CH_CFG0_MEM k) && s.cstate k != cIdle && s.cstate k != cFull && s.cstate k != cSuspended
    && decide (lo ≤ a) && decide (a < lo + s.rd (R.ACQ_CH_STRIDE_VALUE k))

/-- Data at an on-chip offset that the running block has not made coherent (R44), or that an owner keeps there in a
form that the model does not hold byte for byte: it reads as a free value. -/
def sramOpen (s : State) (a : Nat) : Bool :=
  if a < 0x02000000 then s.portShows (Fin.ofNat 4 (a / 0x800000)) != 0
  else if a < 0x03000000 then (List.finRange 4).any fun k => s.slotFills k a
  else if a < 0x04000000 then
    if 0x03FC0000 ≤ a && a < 0x03FF0000 then false
    else if 0x03DC0000 ≤ a && a < 0x03EC0000 || 0x03FF0000 ≤ a then true
    else s.sys.bufUsed
  else s.gkernel ((a - 0x04000000) / 0x40000 / 8)

/-- The same of a DRAM address: every area but those of VDC, of ACQ and of the last snapshot. -/
def dramOpen (s : State) (a : Nat) : Bool :=
  if a < 0x19000000 then s.sys.bufUsed
  else if 0x21000000 ≤ a && a < 0x23000000 then !(decide (snapBase ≤ a) && decide (a < snapBase + 0x800000))
  else false

/-- One byte of a read. -/
def placeByte (s : State) (p : Place) : Nat × State :=
  match p with
  | .empty => (0, s)
  | .beyond => (0, s.ev R.SYS_GSTAT_BAR2_RANGE)
  | .sram a =>
    if s.sramOpen a then
      let (x, s) := s.free
      (x % 256, s)
    else (ofLeBytes (s.sramGet a 1), s)
  | .dram a =>
    if s.dramOpen a then
      let (x, s) := s.free
      (x % 256, s)
    else (ofLeBytes (s.dramGet a 1), s)

/-- The bytes of a read from `off` on; `f` says what lies where. -/
def bar2Bytes (f : State → Nat → Place) : Nat → State → Nat → List Nat → List Nat × State
  | 0, s, _, l => (l.reverse, s)
  | n + 1, s, off, l =>
    let (b, s) := s.placeByte (f s off)
    bar2Bytes f n s (off + 1) (b :: l)

/-- What the codes of the memory behind a BAR2 read from `off` show: the memory and the address within it (R351). -/
def bar2Ecc (s : State) (off : Nat) (e : Ecc) : State :=
  match s.bar2Place off with
  | .sram a =>
    let (m, b) := if a < 0x02000000 then (0, 0) else if a < 0x03000000 then (1, 0x02000000)
      else if a < 0x04000000 then (2, 0x03000000) else (3, 0x04000000)
    s.eccSeen m reqBAR2 e fun i => a - b + i
  | .dram a => s.eccSeen 4 reqBAR2 e fun i => a + i
  | _ => s

/-- A write there is denied (R44). -/
def bar2Denied (s : State) (a : Nat) : Bool :=
  if a < 0x02000000 then s.portShows (Fin.ofNat 4 (a / 0x800000)) != 0
  else if a < 0x03000000 then s.rd R.ACQ_STAT_ARMED != 0
  else if a < 0x04000000 then false
  else s.gkernel ((a - 0x04000000) / 0x40000 / 8)

/-- A write of the bytes `l` to a place: it lies within one memory. -/
def placePut (s : State) (p : Place) (l : List Nat) : State :=
  match p with
  | .empty => s
  | .beyond => s.ev R.SYS_GSTAT_BAR2_RANGE
  | .sram a => if s.bar2Denied a then s.ev R.SYS_GSTAT_BAR2_DENIED else s.sramPut a l
  | .dram a => s.dramPut a l

/-- The shapes of R44: an access of 2, 4 or 8 bytes is naturally aligned, and a burst of another length does not cross a
64-byte boundary. -/
def bar2Shape (off n : Nat) : Bool :=
  decide (1 ≤ n) && decide (off % 64 + n ≤ 64) && ((n != 2 && n != 4 && n != 8) || off % n == 0)

end Sys2Proof.Machine.State

namespace Sys2Proof.Machine
open Sys2Proof

/-- A 32-bit BAR0 write, or one of another size (`sized` false), over PCIe. -/
def execRegisterWrite (off : BitVec 24) (sized : Bool) (v : Word) (s : State) : Out :=
  .next (s.pcieWrite off.toNat sized v.toNat)

/-- A 32-bit BAR0 read, or one of another size. It also stands for reads of registers that are not 64-bit. -/
def execLowWordRead (off : BitVec 24) (sized : Bool) (s : State) : Out := .next (s.pcieRead off.toNat sized)

def execLowWordWrite (off : BitVec 24) (v : Word) (s : State) : Out :=
  .next (if State.wideAt off.toNat false then s.pcieWrite off.toNat true v.toNat else s)

def execHighWordWrite (off : BitVec 24) (v : Word) (s : State) : Out :=
  .next (if State.wideAt off.toNat true then s.pcieWrite off.toNat true v.toNat else s)

/-- A BAR2 read of `n` bytes; `ecc`: what the codes of the memory show. -/
def execBar2Read (off : BitVec 30) (n : BitVec 7) (ecc : Ecc) (s : State) : Out :=
  if State.bar2Shape off.toNat n.toNat then
    match s.pcieDecode with
    | .none => .next s
    | .zero => .next (s.emit (.bar2 (List.replicate n.toNat 0)))
    | .serve =>
      let s := s.bar2Ecc off.toNat ecc
      let (l, s) := State.bar2Bytes State.bar2Place n.toNat s off.toNat []
      .next (s.emit (.bar2 l))
  else .fault (.illFormed "BAR2_READ")

def execBar2Write (off : BitVec 30) (l : List Byte) (s : State) : Out :=
  if State.bar2Shape off.toNat l.length then
    .next (if s.pcieDecode = .serve then s.placePut (s.bar2Place off.toNat) (l.map BitVec.toNat) else s)
  else .fault (.illFormed "BAR2_WRITE")

end Sys2Proof.Machine
end

