-- ==== Sys2Proof/Machine/Dsp.lean ====
section
/-! DEFINITION. The instructions of a DSP core, one operation each (R263, R267 to R274, R279 to R282). Every one of them
runs when the core issues the instruction at its PC and that instruction is it (`coreOp`). -/

namespace Sys2Proof.Machine.Dsp
open Sys2Proof Arith State

/-! ### Fields of the main operation (R265) -/

def target (w : Nat) : Nat := slice w 44 12
def ctrlS (w : Nat) : Nat := slice w 40 4
def macA (w : Nat) : Nat := slice w 55 2
def macV (w : Nat) : Nat := slice w 51 4
def macB (w : Nat) : Nat := slice w 47 4
def macK (w : Nat) : Nat := slice w 46 5
def fD (w : Nat) : Nat := slice w 52 4
def fA (w : Nat) : Nat := slice w 48 4
def fB (w : Nat) : Nat := slice w 44 4
def imm4 (w : Nat) : Nat := slice w 40 4
def imm8 (w : Nat) : Nat := slice w 40 8

/-- The product of the halves that a MAC-class word names, in lane `i` (R268). -/
def product (k : DCore) (w : Nat) (i : Fin 8) : Int :=
  half (vreg k (macV w)) (w.testBit 46) i * half (vreg k (macB w)) (w.testBit 45) i

/-- The signed value of lane `i` of an accumulator. -/
def lane (k : DCore) (a : Nat) (i : Fin 8) : Int := ((areg k a)[i]).toInt

/-! ### Control (R267) -/

def nop (k : DCore) (_ : Nat) : Eff := { core := k }

/-- Whether a BR is taken; `v` decides for a condition that is not listed (log entry 3). -/
def taken (v : Nat) (k : DCore) (w : Nat) : Bool := (condition k (ctrlS w)).getD (v.testBit 0)

def br (v : Nat) (k : DCore) (w : Nat) : Eff :=
  if taken v k w then { core := k, jump := some (target w), cycles := 3 } else { core := k }

def call (k : DCore) (w : Nat) : Eff :=
  if 8 ≤ k.calls.length then { core := k, fault := some 3 }
  else { core := { k with calls := (k.pc + 1) % 4096 :: k.calls }, jump := some (target w), cycles := 3 }

def ret (k : DCore) (_ : Nat) : Eff :=
  match k.calls with
  | [] => { core := k, fault := some 3 }
  | pc :: r => { core := { k with calls := r }, jump := some pc, cycles := 3 }

def loop (k : DCore) (w : Nat) : Eff :=
  let n := (sreg k (ctrlS w)).toNat
  if n = 0 then { core := k, jump := some (target w + 1) }
  else if 4 ≤ k.loops.length then { core := k, fault := some 4 }
  else { core := { k with loops := ⟨k.pc + 1, target w, n⟩ :: k.loops }, jump := some (k.pc + 1) }

def halt (k : DCore) (_ : Nat) : Eff := { core := { k with halted := true }, stay := true }
def sync (k : DCore) (_ : Nat) : Eff := { core := { k with sync := true }, stay := true }

/-! ### Accumulators (R268 to R271) -/

def mpy (k : DCore) (w : Nat) : Eff :=
  { core := accAll (aovClear k (macA w)) (macA w) (product k w), accW := some (macA w) }

def mac (k : DCore) (w : Nat) : Eff :=
  { core := accAll k (macA w) fun i => lane k (macA w) i + product k w i, accW := some (macA w) }

def msu (k : DCore) (w : Nat) : Eff :=
  { core := accAll k (macA w) fun i => lane k (macA w) i - product k w i, accW := some (macA w) }

def acc (k : DCore) (w : Nat) : Eff :=
  { core := accAll k (macA w) fun i => lane k (macA w) i + ((vreg k (macV w))[i]).toInt
    acc := some (macA w), accW := some (macA w) }

def clra (k : DCore) (w : Nat) : Eff :=
  { core := setA (aovClear k (macA w)) (macA w) (Vector.replicate 8 0#40), accW := some (macA w) }

def asra (k : DCore) (w : Nat) : Eff :=
  { core := setA k (macA w) (Vector.ofFn fun (i : Fin 8) => BitVec.ofInt 40 (lane k (macA w) i / (2 ^ macK w : Nat)))
    acc := some (macA w), accW := some (macA w) }

/-- The first lane of `a` whose AOV is set. -/
def aovFirst (k : DCore) (a : Nat) : Option Nat := (List.range 8).find? fun i => k.aov.getLsbD (8 * a + i)

def accsum (k : DCore) (w : Nat) : Eff :=
  let a := macA w
  let x := ((List.finRange 8).map (lane k a)).sum
  let d := setA (aovClear k a) a (Vector.replicate 8 0#40)
  let d := match aovFirst k a with
    | some i =>
      { d with aov := BitVec.ofNat 32 (Arith.putBit d.aov.toNat (8 * a) true)
               ovs := BitVec.ofNat 32 (Arith.putBit d.ovs.toNat (8 * a) (k.ovs.getLsbD (8 * a + i))) }
    | none => d
  { core := accLane d a 0 x, cycles := 4, acc := some a, accW := some a }

/-- The saturating transfer of every lane. -/
def transfer (k : DCore) (w : Nat) : Vector (BitVec 32) 8 :=
  Vector.ofFn fun (i : Fin 8) => transferLane k (macA w) (macK w) i

def movaS (k : DCore) (w : Nat) : Eff :=
  { core := setV (aovClear k (macA w)) (macV w) (transfer k w), acc := some (macA w) }

def movaW (k : DCore) (w : Nat) : Eff :=
  { core := setV k (macV w) (Vector.ofFn fun (i : Fin 8) =>
      BitVec.ofInt 32 (lane k (macA w) i / (2 ^ macK w : Nat)))
    acc := some (macA w) }

def vsta (c : Fin 64) (k : DCore) (w : Nat) : Eff :=
  let i := if w.testBit 44 then 4 else 0
  let a := (k.p[(Fin.ofNat 8 i)]).toNat
  if a % 32 != 0 then { core := k, fault := some 2 }
  else
    { core := stepPointer (aovClear k (macA w)) i 2 32, acc := some (macA w)
      store := some ((if w.testBit 44 then yBase c else xBase c) + a, bytesOf (transfer k w)) }

/-! ### Vector ALU (R267) -/

def vec2 (f : BitVec 32 → BitVec 32 → BitVec 32) (k : DCore) (w : Nat) : Eff :=
  { core := setV k (fD w) (map2 f (vreg k (fA w)) (vreg k (fB w))) }

def vec1 (f : Nat → BitVec 32 → BitVec 32) (k : DCore) (w : Nat) : Eff :=
  { core := setV k (fD w) (map1 (f (imm4 w)) (vreg k (fA w))) }

def vadds (a b : BitVec 32) : BitVec 32 := sat32 (a.toInt + b.toInt)
def vsubs (a b : BitVec 32) : BitVec 32 := sat32 (a.toInt - b.toInt)
def vabs (_ : Nat) (a : BitVec 32) : BitVec 32 := sat32 a.toInt.natAbs
def vasr (n : Nat) (a : BitVec 32) : BitVec 32 := a.sshiftRight n
def vlsr (n : Nat) (a : BitVec 32) : BitVec 32 := a >>> n
def vshl (n : Nat) (a : BitVec 32) : BitVec 32 := a <<< n
def vmin (a b : BitVec 32) : BitVec 32 := if a.toInt ≤ b.toInt then a else b
def vmax (a b : BitVec 32) : BitVec 32 := if b.toInt ≤ a.toInt then a else b

def vbc (k : DCore) (w : Nat) : Eff := { core := setV k (fD w) (Vector.replicate 8 (sreg k (fA w))) }

def vext (k : DCore) (w : Nat) : Eff :=
  { core := setS k (fD w) ((vreg k (fA w))[(Fin.ofNat 8 (imm4 w))]) }

def vorr (k : DCore) (w : Nat) : Eff :=
  { core := setS k (fD w) ((vreg k (fA w)).toList.foldl (· ||| ·) 0#32) }

/-! ### Search (R273, R274) -/

def srchA (w : Nat) : Nat := slice w 54 4
def srchB (w : Nat) : Nat := slice w 50 4
def srchE (w : Nat) : Nat := slice w 46 4

def noIndex : BitVec 32 := 0xFFFFFFFF#32

def srchInit (k : DCore) (w : Nat) : Eff :=
  { core := { k with sc := sreg k (srchA w), sn := sreg k (srchB w), si := Vector.replicate 8 noIndex
                     sb := Vector.replicate 8 0#32, rule := none } }

/-- `a` replaces `b` under search op `o`: 1 SMAX, 2 SMIN, 3 SMAXU, 4 SMINU. -/
def better (o : Nat) (a b : BitVec 32) : Bool :=
  if o = 1 then decide (b.toInt < a.toInt) else if o = 2 then decide (a.toInt < b.toInt)
  else if o = 3 then decide (b.toNat < a.toNat) else decide (a.toNat < b.toNat)

/-- Lane `i` takes part in a search instruction and replaces its best. -/
def searchTakes (k : DCore) (o : Nat) (v : Vector (BitVec 32) 8) (i : Fin 8) : Bool :=
  decide (k.sc.toNat + i.val < k.sn.toNat) && (k.si[i] == noIndex || better o v[i] k.sb[i])

def search (o : Nat) (k : DCore) (w : Nat) : Eff :=
  let v := vreg k (srchA w)
  { core := { k with
      sb := Vector.ofFn fun (i : Fin 8) => if searchTakes k o v i then v[i] else k.sb[i]
      si := Vector.ofFn fun (i : Fin 8) => if searchTakes k o v i then k.sc + BitVec.ofNat 32 i.val else k.si[i]
      sc := k.sc + 8#32, rule := some o } }

/-- The extreme of the lanes under rule `o`, and its smallest index. -/
def foldLanes (o : Nat) : List (BitVec 32 × BitVec 32) → Option (BitVec 32 × BitVec 32)
  | [] => none
  | (v, i) :: r =>
    match foldLanes o r with
    | none => some (v, i)
    | some (b, j) =>
      if better o v b then some (v, i) else if v == b then some (v, if i.toNat ≤ j.toNat then i else j) else some (b, j)

def sfold (k : DCore) (w : Nat) : Eff :=
  let l := ((List.finRange 8).map fun i => (k.sb[i], k.si[i])).filter fun e => e.2 != noIndex
  let r := match k.rule with
    | some o => foldLanes o l
    | none => none
  match r with
  | some (v, i) => { core := setFlag (setS (setS k (srchB w) v) (srchE w) i) flNF false, cycles := 4 }
  | none => { core := setFlag (setS (setS k (srchB w) 0#32) (srchE w) noIndex) flNF true, cycles := 4 }

/-! ### Scalar ALU (R267) -/

def addTo (k : DCore) (d : Nat) (a b : BitVec 32) : Eff :=
  { core := setZNCV (setS k d (a + b)) (a + b) (addCarry a b) (overflows 32 (a.toInt + b.toInt)) }

def subTo (k : DCore) (d : Nat) (a b : BitVec 32) : Eff :=
  { core := setZNCV (setS k d (a - b)) (a - b) (subCarry a b) (overflows 32 (a.toInt - b.toInt)) }

/-- An op that sets Z and N and clears C and V. -/
def scalar (f : BitVec 32 → BitVec 32 → BitVec 32) (k : DCore) (w : Nat) : Eff :=
  let r := f (sreg k (fA w)) (sreg k (imm4 w))
  { core := setZNCV (setS k (fD w) r) r false false }

def add (k : DCore) (w : Nat) : Eff := addTo k (fD w) (sreg k (fA w)) (sreg k (imm4 w))
def sub (k : DCore) (w : Nat) : Eff := subTo k (fD w) (sreg k (fA w)) (sreg k (imm4 w))
def addi (k : DCore) (w : Nat) : Eff := addTo k (fD w) (sreg k (fA w)) (BitVec.ofNat 32 (imm8 w))
def subi (k : DCore) (w : Nat) : Eff := subTo k (fD w) (sreg k (fA w)) (BitVec.ofNat 32 (imm8 w))
def shl (a b : BitVec 32) : BitVec 32 := a <<< (b.toNat % 32)
def asr (a b : BitVec 32) : BitVec 32 := a.sshiftRight (b.toNat % 32)
def lsr (a b : BitVec 32) : BitVec 32 := a >>> (b.toNat % 32)

/-! ### Long (R263) -/

def special (w : Nat) : Nat := slice w 32 6

def ldi (k : DCore) (w : Nat) : Eff := { core := setS k (fD w) (BitVec.ofNat 32 w) }

/-- The value of special register `n` of core `c` at stamp `now`; none for a number that is not listed. A modifier is an
s16 and is read sign-extended (log entry 20). -/
def readSpecial (now : Nat) (c : Fin 64) (k : DCore) (n : Nat) : Option (BitVec 32) :=
  let i : Fin 8 := Fin.ofNat 8 n
  if n < 8 then some ((k.p[i]).setWidth 32)
  else if n < 16 then some ((k.m[i]).signExtend 32)
  else if n < 24 then some ((k.l[i]).setWidth 32)
  else if n < 32 then some ((k.b[i]).setWidth 32)
  else if n = 32 then some (k.am.setWidth 32)
  else if n < 37 then some ((k.iwp[(Fin.ofNat 4 (n - 33))]).setWidth 32)
  else if n < 41 then some ((k.irp[(Fin.ofNat 4 (n - 37))]).setWidth 32)
  else if n = 41 then some (BitVec.ofNat 32 now)
  else if n = 42 then some k.stampH
  else if n = 43 then some (BitVec.ofNat 32 c.val)
  else if n = 44 then some k.xloc
  else if n = 45 then some k.xrem
  else if n = 46 then some k.xlen
  else if n = 47 then some (BitVec.ofNat 32 (2 * ofBool k.xerr + ofBool k.xfer.isSome))
  else if n = 48 then some (k.fl.setWidth 32)
  else if n = 49 then some k.sc
  else if n = 50 then some k.sn
  else none

/-- A read of STAMPL latches STAMPH. -/
def mfs (now v : Nat) (c : Fin 64) (k : DCore) (w : Nat) : Eff :=
  let k' := if special w = 41 then { k with stampH := BitVec.ofNat 32 (now / 2 ^ 32) } else k
  { core := setS k' (fD w) ((readSpecial now c k (special w)).getD (BitVec.ofNat 32 v)) }

/-- A write of a special register; IRP0 to IRP3 are written beside the core (R277). -/
def writeSpecial (k : DCore) (n : Nat) (x : BitVec 32) : Option DCore :=
  let i : Fin 8 := Fin.ofNat 8 n
  let h : BitVec 16 := x.setWidth 16
  if n < 8 then some { k with p := k.p.set i h }
  else if n < 16 then some { k with m := k.m.set i h }
  else if n < 24 then some { k with l := k.l.set i h }
  else if n < 32 then some { k with b := k.b.set i h }
  else if n = 32 then some { k with am := h }
  else if 37 ≤ n && n < 41 then some k
  else if n = 44 then some { k with xloc := BitVec.ofNat 32 (x.toNat % 2 ^ 17) }
  else if n = 45 then some { k with xrem := x }
  else if n = 46 then some { k with xlen := x }
  else if n = 48 then
    some { k with fl := BitVec.ofNat 8 (x.toNat % 32 + (if x.getLsbD 7 then 0 else k.fl.toNat / 128 * 128)) }
  else if n = 49 then some { k with sc := x }
  else if n = 50 then some { k with sn := x }
  else none

def mts (k : DCore) (w : Nat) : Eff :=
  match writeSpecial k (special w) (sreg k (fD w)) with
  | some d => { core := d }
  | none => { core := k, fault := some 1 }

/-! ### Input and output (R279 to R282) -/

/-- WAIT goes on at once when `go`. -/
def wait (go : Nat → Bool) (k : DCore) (w : Nat) : Eff :=
  if go (imm4 w) then { core := k } else { core := { k with waiting := some (imm4 w) }, stay := true }

def out (k : DCore) (w : Nat) : Eff :=
  let a := (sreg k (fD w)).toNat
  if a % 32 != 0 then { core := k, fault := some 2 }
  else
    { core := { k with out := some ⟨a % 65536, 16 * imm8 w, (sreg k (fA w)).toNat % 65536, false⟩ }, stay := true
      cycles := 1 + (imm8 w + 1) / 2 }

/-- XFER to or from the remote address; `degraded` when DRAM is disabled. -/
def xfer (dest degraded : Bool) (k : DCore) (_ : Nat) : Eff :=
  let rem := 32 * k.xrem.toNat
  let len := k.xlen.toNat
  if !xferRange rem len then { core := k, fault := some 6 }
  else if degraded && 0x04000000 ≤ rem then { core := { k with xerr := true } }
  else
    { core := { k with xerr := false, xfer := some ⟨dest, k.xloc.getLsbD 16, k.xloc.toNat % 65536, rem, len⟩ } }

end Sys2Proof.Machine.Dsp

namespace Sys2Proof.Machine.State
open Sys2Proof Arith

/-- Nothing beside the core. -/
def noPost (_ : DCore) (_ : Nat) (s : State) : State := s

/-- The free value of a BR condition or special register that is not listed has been taken. -/
def freePost (listed : DCore → Nat → Bool) (k : DCore) (w : Nat) (s : State) : State :=
  if listed k w then s else s.free.2

/-- A TRIG of group `g` with `code` (R281): presented to the inputs of SRC 2, or merged into the last one within 16
cycles of the previous TRIG: then its new codes reach the inputs that the earlier ones did not match, with the first stamp. -/
def trig (s : State) (g : Fin 8) (code : Nat) : State :=
  let d := s.vdc.groups[g]
  let m (i x : Nat) : Bool := s.rd (R.ACQ_TIN_CODE i) &&& x != 0
  let merge := match d.trigRaw with
    | some r => decide (s.tbu.raw ≤ r + 20)
    | none => false
  if merge then
    (s.modGroup g fun x => { x with trigRaw := some s.tbu.raw, trigCode := d.trigCode ||| code }).presentSrc 2 (some g.val)
      (fun i => m i code && !m i d.trigCode) d.trigStamp
  else
    (s.modGroup g fun x => { x with trigRaw := some s.tbu.raw, trigStamp := s.now, trigCode := code }).presentSrc 2
      (some g.val) (fun i => m i code) s.now

/-- An XFER while one is in flight stalls: the instruction does not issue (R282). -/
def xferOp (s : State) (c : Fin 64) (o : Nat) : State :=
  if (s.vdc.cores[c]).xfer.isSome && Dsp.isOp (s.coreWord c) 6 o then s
  else s.coreOp c 6 o (Dsp.xfer (o == 3) s.degraded) noPost

end Sys2Proof.Machine.State

namespace Sys2Proof.Machine
open Sys2Proof Arith

def execCtrlNop (c : Fin 64) (s : State) : Out := .next (s.coreOp c 0 0 Dsp.nop State.noPost)
def execCall (c : Fin 64) (s : State) : Out := .next (s.coreOp c 0 2 Dsp.call State.noPost)
def execRet (c : Fin 64) (s : State) : Out := .next (s.coreOp c 0 3 Dsp.ret State.noPost)
def execLoop (c : Fin 64) (s : State) : Out := .next (s.coreOp c 0 4 Dsp.loop State.noPost)
def execHalt (c : Fin 64) (s : State) : Out := .next (s.coreOp c 0 5 Dsp.halt State.noPost)
def execSync (c : Fin 64) (s : State) : Out := .next (s.coreOp c 0 6 Dsp.sync State.noPost)
def execMpy (c : Fin 64) (s : State) : Out := .next (s.coreOp c 1 0 Dsp.mpy State.noPost)
def execMac (c : Fin 64) (s : State) : Out := .next (s.coreOp c 1 1 Dsp.mac State.noPost)
def execMsu (c : Fin 64) (s : State) : Out := .next (s.coreOp c 1 2 Dsp.msu State.noPost)
def execAcc (c : Fin 64) (s : State) : Out := .next (s.coreOp c 1 3 Dsp.acc State.noPost)
def execClra (c : Fin 64) (s : State) : Out := .next (s.coreOp c 1 4 Dsp.clra State.noPost)
def execAsra (c : Fin 64) (s : State) : Out := .next (s.coreOp c 1 5 Dsp.asra State.noPost)
def execAccsum (c : Fin 64) (s : State) : Out := .next (s.coreOp c 1 6 Dsp.accsum State.noPost)
def execMovaS (c : Fin 64) (s : State) : Out := .next (s.coreOp c 1 7 Dsp.movaS State.noPost)
def execMovaW (c : Fin 64) (s : State) : Out := .next (s.coreOp c 1 8 Dsp.movaW State.noPost)
def execVstaS (c : Fin 64) (s : State) : Out := .next (s.coreOp c 1 9 (Dsp.vsta c) State.noPost)
def execVadd (c : Fin 64) (s : State) : Out := .next (s.coreOp c 2 0 (Dsp.vec2 (· + ·)) State.noPost)
def execVsub (c : Fin 64) (s : State) : Out := .next (s.coreOp c 2 1 (Dsp.vec2 (· - ·)) State.noPost)
def execVadds (c : Fin 64) (s : State) : Out := .next (s.coreOp c 2 2 (Dsp.vec2 Dsp.vadds) State.noPost)
def execVsubs (c : Fin 64) (s : State) : Out := .next (s.coreOp c 2 3 (Dsp.vec2 Dsp.vsubs) State.noPost)
def execVabs (c : Fin 64) (s : State) : Out := .next (s.coreOp c 2 4 (Dsp.vec1 Dsp.vabs) State.noPost)
def execVand (c : Fin 64) (s : State) : Out := .next (s.coreOp c 2 5 (Dsp.vec2 (· &&& ·)) State.noPost)
def execVor (c : Fin 64) (s : State) : Out := .next (s.coreOp c 2 6 (Dsp.vec2 (· ||| ·)) State.noPost)
def execVxor (c : Fin 64) (s : State) : Out := .next (s.coreOp c 2 7 (Dsp.vec2 (· ^^^ ·)) State.noPost)
def execVasr (c : Fin 64) (s : State) : Out := .next (s.coreOp c 2 8 (Dsp.vec1 Dsp.vasr) State.noPost)
def execVlsr (c : Fin 64) (s : State) : Out := .next (s.coreOp c 2 9 (Dsp.vec1 Dsp.vlsr) State.noPost)
def execVshl (c : Fin 64) (s : State) : Out := .next (s.coreOp c 2 10 (Dsp.vec1 Dsp.vshl) State.noPost)
def execVmin (c : Fin 64) (s : State) : Out := .next (s.coreOp c 2 11 (Dsp.vec2 Dsp.vmin) State.noPost)
def execVmax (c : Fin 64) (s : State) : Out := .next (s.coreOp c 2 12 (Dsp.vec2 Dsp.vmax) State.noPost)
def execVbc (c : Fin 64) (s : State) : Out := .next (s.coreOp c 2 13 Dsp.vbc State.noPost)
def execVext (c : Fin 64) (s : State) : Out := .next (s.coreOp c 2 14 Dsp.vext State.noPost)
def execVorr (c : Fin 64) (s : State) : Out := .next (s.coreOp c 2 15 Dsp.vorr State.noPost)
def execSrchInit (c : Fin 64) (s : State) : Out := .next (s.coreOp c 3 0 Dsp.srchInit State.noPost)
def execSmax (c : Fin 64) (s : State) : Out := .next (s.coreOp c 3 1 (Dsp.search 1) State.noPost)
def execSmin (c : Fin 64) (s : State) : Out := .next (s.coreOp c 3 2 (Dsp.search 2) State.noPost)
def execSmaxu (c : Fin 64) (s : State) : Out := .next (s.coreOp c 3 3 (Dsp.search 3) State.noPost)
def execSminu (c : Fin 64) (s : State) : Out := .next (s.coreOp c 3 4 (Dsp.search 4) State.noPost)
def execSfold (c : Fin 64) (s : State) : Out := .next (s.coreOp c 3 5 Dsp.sfold State.noPost)
def execAdd (c : Fin 64) (s : State) : Out := .next (s.coreOp c 4 0 Dsp.add State.noPost)
def execSub (c : Fin 64) (s : State) : Out := .next (s.coreOp c 4 1 Dsp.sub State.noPost)
def execAnd (c : Fin 64) (s : State) : Out := .next (s.coreOp c 4 2 (Dsp.scalar (· &&& ·)) State.noPost)
def execOr (c : Fin 64) (s : State) : Out := .next (s.coreOp c 4 3 (Dsp.scalar (· ||| ·)) State.noPost)
def execXor (c : Fin 64) (s : State) : Out := .next (s.coreOp c 4 4 (Dsp.scalar (· ^^^ ·)) State.noPost)
def execShl (c : Fin 64) (s : State) : Out := .next (s.coreOp c 4 5 (Dsp.scalar Dsp.shl) State.noPost)
def execAsr (c : Fin 64) (s : State) : Out := .next (s.coreOp c 4 6 (Dsp.scalar Dsp.asr) State.noPost)
def execLsr (c : Fin 64) (s : State) : Out := .next (s.coreOp c 4 7 (Dsp.scalar Dsp.lsr) State.noPost)
def execMul (c : Fin 64) (s : State) : Out := .next (s.coreOp c 4 8 (Dsp.scalar (· * ·)) State.noPost)
def execAddi (c : Fin 64) (s : State) : Out := .next (s.coreOp c 4 9 Dsp.addi State.noPost)
def execSubi (c : Fin 64) (s : State) : Out := .next (s.coreOp c 4 10 Dsp.subi State.noPost)
def execLdi (c : Fin 64) (s : State) : Out := .next (s.coreOp c 5 0 Dsp.ldi State.noPost)
def execOut (c : Fin 64) (s : State) : Out := .next (s.coreOp c 6 1 Dsp.out fun _ _ t => t.outIssue c)

def execBr (c : Fin 64) (s : State) : Out :=
  .next (s.coreOp c 0 1 (Dsp.br s.free.1) (State.freePost fun k w => (Dsp.condition k (Dsp.ctrlS w)).isSome))

def execMfs (c : Fin 64) (s : State) : Out :=
  .next (s.coreOp c 5 1 (Dsp.mfs s.now s.free.1 c) (State.freePost fun k w => (Dsp.readSpecial 0 c k (Dsp.special w)).isSome))

def execMts (c : Fin 64) (s : State) : Out :=
  .next (s.coreOp c 5 2 Dsp.mts fun k w t =>
    let n := Dsp.special w
    if 37 ≤ n && n < 41 then t.irpWrite c (Fin.ofNat 4 (n - 37)) (Dsp.sreg k (Dsp.fD w)).toNat else t)

def execWait (c : Fin 64) (s : State) : Out :=
  .next (s.coreOp c 6 0
    (Dsp.wait fun m => s.anyInput c m && s.gstate (State.groupOf c) == State.gRunning) State.noPost)

def execTrig (c : Fin 64) (s : State) : Out :=
  .next (s.coreOp c 6 2 Dsp.nop fun _ w t => t.trig (State.groupOf c) (Dsp.imm4 w))

def execXferTo (c : Fin 64) (s : State) : Out := .next (s.xferOp c 3)
def execXferFrom (c : Fin 64) (s : State) : Out := .next (s.xferOp c 4)

end Sys2Proof.Machine
end

