-- ==== Sys2Proof/Machine/Command.lean ====
section
/-! DEFINITION. Command packets: the catalogue's marks (R415), the parameter conventions (R415), tags and places (R400,
R401), and the jobs that commands make (R407). -/

namespace Sys2Proof.Machine.State
open Sys2Proof Arith

/-! ### The catalogue (R415 to R424) -/

/-- The opcodes of the catalogue. -/
def opcodes : List Nat :=
  [0x100, 0x101, 0x102, 0x103, 0x104, 0x105, 0x106, 0x107, 0x200, 0x201, 0x202, 0x203, 0x204, 0x205, 0x206, 0x207, 0x208,
   0x209, 0x20A, 0x20B, 0x20C, 0x20D, 0x210, 0x300, 0x301, 0x302, 0x303, 0x304, 0x305, 0x306, 0x307, 0x310, 0x311, 0x312]
  ++ [0x400, 0x401, 0x402, 0x500, 0x501, 0x502, 0x503, 0x504, 0x600, 0x601, 0x602, 0x603, 0x604, 0x605, 0x606, 0x700, 0x701,
   0x702, 0x703, 0x704, 0x705, 0x706, 0x707, 0x708, 0x709, 0x70A, 0x800, 0x801, 0x802, 0x803, 0x804, 0x805, 0x900, 0x901,
   0x902]

/-- Opcodes marked U. -/
def urgentOps : List Nat := [0x102, 0x301, 0x306, 0x307, 0x500, 0x501, 0x502, 0x503]

/-- Opcodes marked F. -/
def footOps : List Nat :=
  [0x100, 0x101, 0x102, 0x105, 0x107, 0x503, 0x504, 0x700, 0x701, 0x702, 0x704, 0x705, 0x706, 0x707, 0x708, 0x709, 0x900]

/-- The job-control opcodes, which carry a handle. -/
def jobOps : List Nat := [0x500, 0x501, 0x502, 0x503]

/-- The opcode is served in the present mode: all in WATCH and RUN, those marked F in FOOTING, none before boot
complete. -/
def serves (s : State) (op : Nat) : Bool :=
  if 3 ≤ s.sys.mode then true else s.sys.mode == 2 && footOps.contains op

/-! ### Parameters (R415) -/

/-- Parameter word `i`. -/
def par (p : Packet) (i : Nat) : Nat := p.words.getD i 0

/-- The index of the first word with a bit outside its mask. -/
def reservedBit : List Nat → List Nat → Nat → Option Nat
  | w :: ws, m :: ms, i => if w ||| m = m then reservedBit ws ms (i + 1) else some i
  | _, _, _ => none

/-- Every bit of a word. -/
def whole : Nat := 0xFFFFFFFF

/-- Runs `f` when the packet has one parameter word for each mask and no reserved bit is 1. -/
def params (s : State) (p : Packet) (masks : List Nat) (f : State → State) : State :=
  if p.words.length != masks.length then s.reply p E_PARAM 0
  else
    match reservedBit p.words masks 0 with
    | some i => s.reply p E_PARAM i
    | none => f s

/-- The same with `lo` to `hi` further words behind those of the masks. -/
def paramsTail (s : State) (p : Packet) (masks : List Nat) (lo hi : Nat) (f : State → State) : State :=
  let k := p.words.length - masks.length
  if p.words.length < masks.length + lo || hi < k then s.reply p E_PARAM 0
  else
    match reservedBit (p.words.take masks.length) masks 0 with
    | some i => s.reply p E_PARAM i
    | none => f s

/-- A 64-bit value from words `i` and `i` + 1. -/
def par64 (p : Packet) (i : Nat) : Nat := par p i + par p (i + 1) * 2 ^ 32

/-- An address in words `i` to `i` + 3: IPv4 in the first, IPv6 with the most significant word first. -/
def parAddr (p : Packet) (i : Nat) (ipv6 : Bool) : Nat :=
  if ipv6 then par p i * 2 ^ 96 + par p (i + 1) * 2 ^ 64 + par p (i + 2) * 2 ^ 32 + par p (i + 3) else par p i

/-- The masks of the four words of an address. -/
def addrMasks (ipv6 : Bool) : List Nat := if ipv6 then [whole, whole, whole, whole] else [whole, 0, 0, 0]

/-- Bit `i` of a parameter word. -/
def parBit (p : Packet) (i b : Nat) : Bool := (par p i).testBit b

/-- The port or channel that a field names. -/
def parPort (p : Packet) (i : Nat) : Fin 4 := Fin.ofNat 4 (par p i)

/-! ### Writing registers from parameters -/

/-- The bits of the register at `off` that a write stores, as a mask, and their values. -/
def rwMask (off : Nat) : Nat :=
  match regAt off with
  | none => 0
  | some h => (h.reg.fields.map fun f => if f.acc = .rw then (2 ^ f.width - 1) * 2 ^ f.lo h.reg.base else 0).sum

def rwValue (s : State) (off : Nat) : Nat :=
  match regAt off with
  | none => 0
  | some h => (h.reg.fields.map fun f => if f.acc = .rw then s.rd (f.shift h.d) * 2 ^ f.lo h.reg.base else 0).sum

/-- Writes parameter words to registers in order: (word index, offset, value). -/
def writeWords (s : State) (l : List (Nat × Nat × Nat)) : State :=
  l.foldl (fun (s : State) (e : Nat × Nat × Nat) => s.bar0Write e.2.1 true e.2.2) s

/-- The lowest index of a word that is not stored as it was written (W_CLAMPED). -/
def clampedAt (s : State) (l : List (Nat × Nat × Nat)) : Option Nat :=
  l.foldl (fun (a : Option Nat) (e : Nat × Nat × Nat) =>
    if s.rwValue e.2.1 = e.2.2 &&& rwMask e.2.1 then a
    else match a with
      | some i => some (min i e.1)
      | none => some e.1) none

/-- The reply to a command whose words were stored: OK, or W_CLAMPED. -/
def replyStored (s : State) (p : Packet) (l : List (Nat × Nat × Nat)) : State :=
  match s.clampedAt l with
  | some i => s.reply p W_CLAMPED i
  | none => s.reply p OK 0

/-- The BAR0 offset of the register of a field. -/
def offOf (f : Field) : Nat := f.key / 32 * 4

/-! ### Jobs (R407, R408) -/

/-- Makes a job of type `typ` for a command that has passed its checks, replies ACCEPTED, and goes on with its handle;
E_BUSY when the table has no room for an unfinished job. -/
def makeJob (s : State) (p : Packet) (typ : Nat) (st : JobState) (f : State → Nat → State) : State :=
  if !s.jobRoom then s.reply p E_BUSY 0
  else
    let (s, h) := s.newJob p typ st
    f (s.reply p ACCEPTED 0 h) h

/-- An unfinished job of type `typ` for which `f` holds. -/
def hasJob (s : State) (typ : Nat) (f : Job → Bool) : Bool := s.cmd.jobs.any fun j => live j && j.typ == typ && f j

end Sys2Proof.Machine.State
end

