-- ==== Sys2Proof/Machine/Configure.lean ====
section
/-! DEFINITION. The system and configuration opcodes (R416, R417). -/

namespace Sys2Proof.Machine.State
open Sys2Proof Arith

/-! ### System (R416) -/

def cmdNop (p : Packet) (s : State) : State := s.params p [] fun s => s.reply p OK 0

def cmdIdentify (p : Packet) (s : State) : State :=
  s.params p [] fun s =>
    let rom := s.sys.phase == .footRom
    let die := Config.dieNumber.toNat
    s.reply p OK 0 0
      [(s.bar0Read 0 true).1, if rom then 0 else 0x00030000, die % 2 ^ 32, die / 2 ^ 32,
        if rom then s.sys.ret.tried else s.rd R.MGT_STAT_IMAGE]

def cmdStatus (p : Packet) (s : State) : State :=
  s.params p [] fun s =>
    let ports := ((List.range 4).map fun n => s.pstate n * 2 ^ (4 * n)).sum
    let jobs := (s.cmd.jobs.filter live).length
    let flight := s.cmd.open_.length + s.cmd.waiting.length
    s.reply p OK 0 0
      [(s.bar0Read 4 true).1, if s.sys.phase = .footRom then 0 else ports, jobs + flight * 2 ^ 8,
        if s.sys.phase = .footRom then 4 + 4 * 2 ^ 16 else s.granted + s.rd R.PWR_BUDGET_BUDGET * 2 ^ 16, s.rd R.TBU_STAT_TQ, s.sys.mode]

/-- Reads `n` words from `off` on, in order. -/
def readWords : Nat → State → Nat → List Nat → List Nat × State
  | 0, s, _, l => (l.reverse, s)
  | n + 1, s, off, l =>
    let (v, s) := s.bar0Read off true
    readWords n s (off + 4) (v :: l)

/-- The words at `off` to be read or written lie in BAR0. -/
def bar0Range (off n most : Nat) : Bool :=
  off % 4 == 0 && decide (1 ≤ n) && decide (n ≤ most) && decide (off + 4 * n ≤ 0x1000000)

def cmdRegRead (p : Packet) (s : State) : State :=
  s.params p [whole, whole] fun s =>
    if bar0Range (par p 0) (par p 1) 256 then
      let (l, s) := readWords (par p 1) s (par p 0) []
      s.reply p OK 0 0 l
    else s.reply p E_PARAM 0

def cmdRegWrite (p : Packet) (s : State) : State :=
  s.paramsTail p [whole, whole] 1 1018 fun s =>
    let l := p.words.drop 2
    if bar0Range (par p 0) (par p 1) 1018 && par p 1 == l.length then
      let s := (l.zip (List.range l.length)).foldl (fun (s : State) (e : Nat × Nat) =>
        s.bar0Write (par p 0 + 4 * e.2) true e.1) s
      s.reply p OK 0
    else s.reply p E_PARAM 0

/-- What SPACE 1 shows at a DRAM byte address. -/
def dramPlace (s : State) (a : Nat) : Place := if s.degraded || s.capacity ≤ a then .beyond else .dram a

/-- ADDR of MEM_READ and MEM_WRITE, with SPACE as its bit 63. -/
def memAddr (p : Packet) : Nat := par64 p 0 % 2 ^ 63
def memSpace (p : Packet) : Bool := parBit p 1 31

/-- What lies at an address of the command's SPACE. -/
def memPlace (p : Packet) (s : State) (a : Nat) : Place := if memSpace p then s.dramPlace a else s.bar2Place a

def cmdMemRead (p : Packet) (s : State) : State :=
  s.params p [whole, whole, whole] fun s =>
    let a := memAddr p
    let n := par p 2
    if a % 4 != 0 || n % 4 != 0 || n < 4 || 65536 < n then s.reply p E_PARAM 0
    else if s.footing then
      if !memSpace p then s.reply p E_STATE 0
      else s.reply p OK 0 0 (wordsOfBytes (s.flashGet a n))
    else if !memSpace p && 0x40000000 < a + n then s.reply p E_PARAM 0
    else
      let (l, s) := bar2Bytes (memPlace p) n s a []
      s.reply p OK 0 0 (wordsOfBytes l)

/-- R44 discards a write there. -/
def placeDenied (s : State) (x : Place) : Bool :=
  match x with
  | .sram a => s.bar2Denied a
  | _ => false

def cmdMemWrite (p : Packet) (s : State) : State :=
  s.paramsTail p [whole, whole] 1 1017 fun s =>
    let a := memAddr p
    let l := p.words.drop 2
    let at_ (i : Nat) : Place := memPlace p s (a + 4 * i)
    if a % 4 != 0 || (!memSpace p && 0x40000000 < a + 4 * l.length) then s.reply p E_PARAM 0
    else if (List.range l.length).any fun i => s.placeDenied (at_ i) then s.reply p E_STATE 0
    else
      let s := (l.zip (List.range l.length)).foldl (fun (s : State) (e : Nat × Nat) =>
        s.placePut (at_ e.2) (leBytes 4 e.1)) s
      s.reply p OK 0

/-- The key of RESET and UPDATE_ACTIVATE. -/
def resetKey : Nat := 0xA55A

def cmdReset (p : Packet) (s : State) : State :=
  s.params p [1, whole] fun s =>
    if par p 1 != resetKey then s.reply p E_PARAM 1 else (s.reply p OK 0).resetCmd (parBit p 0 0)

/-! ### Configuration (R417) -/

def cmdPatternCheck (p : Packet) (s : State) : State :=
  s.params p [0xF13] fun s =>
    let n := parPort p 0
    let (t, c) := s.patCheckShow n (parBit p 0 4) (s.rtt n (slice (par p 0) 8 4))
    let s := if s.portOn n then t else s
    match c with
    | none => s.reply p OK 0 0 [0]
    | some c => s.reply p c.2.2 (checkDetail c) 0 [c.2.2 * 2 ^ 16 + checkDetail c]

def cmdRouteSelect (p : Packet) (s : State) : State :=
  s.params p [0xF03] fun s =>
    let n := parPort p 0
    let i := slice (par p 0) 8 4
    let st := s.routeRefusal n i
    if st != OK then (s.routeReject n).reply p st 0
    else s.makeJob p 3 .running fun s h => s.routeTake n i h

/-- The first shadow slot of CSYk that fails R56, and the first profile. -/
def csyFirstBad (s : State) (k : Nat) : Nat × Nat :=
  let en (j : Nat) : Bool := s.on (R.SYN_CSY_SLOT_EN k j)
  let f (j : Nat) : Nat := s.rd (R.SYN_CSY_SLOT_FTW k j)
  let out (j q : Nat) : Bool :=
    inBand (f j) && (!inBand (f j + (s.csyChirp k q).1 * 2 ^ 16) || !inBand (f j + (s.csyChirp k q).2 * 2 ^ 16))
  let slot := (List.range 8).find? fun j => en j && (!inBand (f j) || (List.range 8).any (fun i =>
    i != j && en i && !spaced [f i, f j]) || (List.range 8).any (out j))
  let prof := (List.range 8).find? fun q =>
    decide (12 * 2 ^ 32 < 1000 * (s.csyChirp k q).1.natAbs) || decide (12 * 2 ^ 32 < 1000 * (s.csyChirp k q).2.natAbs)
      || s.rd (R.SYN_CSY_CHIRP2_SHAPE k q) == 3 || (List.range 8).any fun j => en j && out j q
  (slot.getD 15, prof.getD 15)

def cmdSlotCommit (p : Packet) (s : State) : State :=
  s.params p [1] fun s =>
    let k := par p 0 % 2
    let (slot, prof) := s.csyFirstBad k
    match s.csyCommit k with
    | (s, 0) => s.reply p OK 0
    | (s, 1) => s.reply p E_PARAM (slot + 16 * prof)
    | (s, _) => s.reply p E_STATE 0

/-- A command that ZON ends when BUSY falls: it waits there, or is refused while BUSY is 1. -/
def zonWait (s : State) (p : Packet) (f : State → State) : State :=
  if s.zon.busy != 0 then (f s).reply p E_ZONE_BUSY 0
  else f { s with zon := { s.zon with waiter := some p } }

def cmdZoneCommit (p : Packet) (s : State) : State :=
  s.params p [] fun s => s.zonWait p fun s => s.zonCtrl true false

def cmdZoneDiscard (p : Packet) (s : State) : State :=
  s.params p [] fun s => s.zonWait p fun s => s.zonCtrl false true

def cmdGroupIndex (p : Packet) (s : State) : State :=
  s.params p [3, 0xFFFFFF] fun s =>
    let n := parPort p 0
    if s.pstate n = stIdle && s.zon.busy = 0 then
      ({ s with zon := { s.zon with waiter := some p } } : State).zonNgWrite n (par p 1)
    else (s.zonNgWrite n (par p 1)).reply p E_STATE 0

def cmdFilterProfile (p : Packet) (s : State) : State :=
  let n := par p 0 % 4
  let q := slice (par p 0) 8 4
  let offs : List Nat := [offOf (R.FDC_PROF_CFG0_EN n q), offOf (R.FDC_PROF_CFG1_G1 n q), offOf (R.FDC_PROF_OUT_OUT_PERIOD n q)]
    ++ (List.range 32).map (fun w => offOf (R.FDC_C2_C_EVEN n q w)) ++ (List.range 256).map fun w => offOf (R.FDC_RS_H_EVEN n q w)
  s.params p (0xF03 :: offs.map rwMask) fun s =>
    let l := (offs.zip (List.range offs.length)).map fun (e : Nat × Nat) => (e.2 + 1, e.1, par p (e.2 + 1))
    if s.busyPort n then (s.ev (R.FDC_EVENT_CFG_REJECT n)).reply p E_FILTER_RUNNING 0
    else (s.writeWords l).replyStored p l

def cmdDetectorProfile (p : Packet) (s : State) : State :=
  let off := offOf (R.EVE_DCFG_W (par p 0 % 16))
  s.params p [0xF, rwMask off] fun s =>
    let l := [(1, off, par p 1)]
    if (List.range 4).any s.busyPort then (s.ev R.EVE_EVENT_CFG_REJECT).reply p E_FILTER_RUNNING 0
    else (s.writeWords l).replyStored p l

def cmdThresholdSet (p : Packet) (s : State) : State :=
  let i := par p 0 % 256
  let off (w : Nat) : Nat := offOf (R.EVE_TSET_EN i) + 4 * w
  s.params p (0xFF :: (List.range 7).map fun w => rwMask (off w)) fun s =>
    let l := ([1, 2, 3, 4, 5, 6, 0].map fun w => (w + 1, off w, par p (w + 1)))
    (s.writeWords l).replyStored p l

def cmdBiasSet (p : Packet) (s : State) : State :=
  s.params p [3, 0x7FFFFFFF] fun s =>
    let n := parPort p 0
    let slew := slice (par p 1) 16 15
    let st := s.pstate n
    let s := s.biasWrite n (par p 1 % 65536) slew
    if 1 ≤ st && st ≤ 5 then s.reply p W_DEFERRED 0
    else if s.rd (R.LDR_BIAS_SLEW n) != slew then s.reply p W_CLAMPED 1
    else s.reply p OK 0

/-- TIME_SET of a load or step: through TBU_EPOCH_SET or TBU_STEP and ACTION. -/
def timeAction (s : State) (p : Packet) (load onPps ptp : Bool) : State :=
  let f := if load then R.TBU_EPOCH_SET_VALUE else R.TBU_STEP_DELTA
  if s.on R.TBU_STAT_ACT_ARMED then s.reply p E_BUSY 0
  else
    let s := s.wr f (par64 p 1)
    let bad := !onPps && s.stepRejected (actionDelta load (par64 p 1) s.tickCount)
    let s := s.epochWrite (if load then 1 else 2) onPps false (if ptp then 2 else 1)
    s.reply p (if bad then E_STATE else if onPps then W_DEFERRED else OK) 0

def cmdTimeSet (p : Packet) (s : State) : State :=
  s.params p [0x113, whole, whole] fun s =>
    let a := par p 0 % 4
    if a = 0 then s.reply p E_PARAM 0
    else if a = 3 then
      let x := toSigned 32 (par p 1)
      let s := s.slewNow
      let bad := s.on R.SYN_STAT_HOLDOVER || decide ((s.rd R.SYN_CTRL_SLEW_LIMIT * 3200000 : Int) < (s.rdS R.SYN_SLEW_REM_REM + x).natAbs)
      (s.timeAdjust x).reply p (if bad then E_STATE else OK) 0
    else s.timeAction p (a == 1) (parBit p 0 4) (parBit p 0 8)

def cmdNetConfig (p : Packet) (s : State) : State :=
  let v6 := parBit p 0 1
  s.params p ([0xFFFFF7, whole] ++ addrMasks v6 ++ addrMasks v6) fun s =>
    if (if v6 then 128 else 32) < slice (par p 0) 16 8 then s.reply p E_PARAM 0
    else
      let s := s.reply p OK 0
      { s with hif := { s.hif with net := s.hif.net.set (Fin.ofNat 2 (par p 0)) p.words } }

def cmdPtpConfig (p : Packet) (s : State) : State :=
  s.params p [0x7F0F, whole, whole, whole, whole] fun s =>
    if !s.on (R.HIF_ETH_CFG_EN (slice (par p 0) 1 1)) then s.reply p E_STATE 0
    else
      let h := { s.hif with ptp := p.words, ptpState := par p 0 % 2, ptpMaster := false }
      ({ s with hif := h } : State).reply p OK 0

def cmdPtpStatus (p : Packet) (s : State) : State :=
  s.params p [] fun s =>
    let h := s.hif
    s.reply p OK 0 0 [h.ptpState, ofSigned 32 h.ptpOffset, h.ptpDelay, h.ptpGm % 2 ^ 32, h.ptpGm / 2 ^ 32]

def cmdKernelLoad (p : Packet) (s : State) : State :=
  s.params p [0xFF07, 1, whole, whole] fun s =>
    let g := Fin.ofNat 8 (par p 0)
    let mask := slice (par p 0) 8 8
    if par64 p 2 % 32 != 0 then s.reply p E_PARAM 2
    else
      match s.loadCheck g mask (parBit p 1 0) (par64 p 2) with
      | (_, _, some i) => s.loadBegin g mask i p
      | (st, k, none) => s.reply p st (k * 4096)

end Sys2Proof.Machine.State
end

