-- ==== Sys2Proof/Machine/Manage.lean ====
section
/-! DEFINITION. The stream, management, array and diagnostic opcodes (R421 to R424, R430, R444 to R446, R460). -/

namespace Sys2Proof.Machine.State
open Sys2Proof Arith

/-! ### Streams (R421) -/

/-- The stream that a parameter word names; none for 0 and 7 to 15. -/
def parStream (p : Packet) : Option (Fin 7) :=
  let k := par p 0 % 16
  if k = 0 || 7 ≤ k then none else some (Fin.ofNat 7 k)

def cmdStreamOpen (p : Packet) (s : State) : State :=
  let dest := slice (par p 0) 4 2
  let v6 := parBit p 0 6
  s.params p ([0x7F, 0xFFFF] ++ addrMasks (v6 && dest != 0)) fun s =>
    match parStream p with
    | none => s.reply p E_PARAM 0
    | some st =>
      if dest = 3 || (dest = 0 && (par p 1 != 0 || par p 2 != 0)) then s.reply p E_PARAM 0
      else if s.streams[st].dest != 0 then s.reply p E_STATE 0
      else if dest = 0 then
        if s.rd (R.HIF_STR_BASE_VALUE st) = 0 || s.rd (R.HIF_STR_WADDR_VALUE st) = 0 then s.reply p E_PARAM 0
        else (s.streamOpen st 1 0 0 0 false).reply p OK 0
      else if !s.on (R.HIF_ETH_CFG_EN (dest - 1)) then s.reply p E_STATE 0
      else (s.streamOpen st 2 (dest - 1) (parAddr p 2 v6) (par p 1) v6).reply p OK 0

def cmdStreamClose (p : Packet) (s : State) : State :=
  s.params p [0xF] fun s =>
    match parStream p with
    | none => s.reply p E_PARAM 0
    | some st =>
      if s.streams[st].dest = 0 || s.streams[st].closing then s.reply p E_STATE 0
      else (s.streamClose st).reply p OK 0

def cmdTileStart (p : Packet) (s : State) : State :=
  s.params p [whole, 0xFFFF] fun s =>
    let (st, d) := s.tileCheck (par p 0)
    if st != OK then s.reply p st d
    else s.makeJob p 9 .queued fun s h => s.tilesBegin (par p 0) (par p 1) h

def cmdTileStop (p : Packet) (s : State) : State :=
  s.params p [whole] fun s =>
    if (bitsOf 32 (par p 0)).all s.defOn then s.makeJob p 9 .running fun s h => s.tilesStop (par p 0) h
    else s.reply p E_STATE 0

def cmdTileFlush (p : Packet) (s : State) : State :=
  s.params p [whole] fun s => (s.cmpFlush (par p 0)).reply p OK 0

def cmdScoStart (p : Packet) (s : State) : State :=
  s.params p [0xFFFF] fun s =>
    let (st, k) := s.scoCheck
    if st != OK then s.reply p st (k * 4096)
    else
      s.makeJob p 10 .queued fun s h =>
        match s.requestHods { user := .sco, hods := 1, cls := 0, tmo := par p 0, job := h } with
        | (s, .granted) => s.scoStart h
        | (s, .queued) => s
        | (s, .refused) => s.jobFailed h E_POWER (5 * 4096)

def cmdScoStop (p : Packet) (s : State) : State :=
  s.params p [] fun s =>
    if s.scoState = scoRun then s.makeJob p 10 .running fun s h => s.scoStop h else s.reply p E_STATE 0

/-! ### Management (R422) -/

def cmdModeSet (p : Packet) (s : State) : State :=
  s.params p [0x17, 0xFFFF, whole] fun s =>
    let target := par p 0 % 8
    let st := s.modeRefusal target
    if st != OK then s.reply p st 0
    else
      s.makeJob p 13 .running fun s h =>
        if s.sys.phase = .footRom && 3 ≤ target then s.resetCmd false
        else s.modeSet target (parBit p 0 4) (par p 1) (par p 2) h

def cmdSensorRead (p : Packet) (s : State) : State :=
  s.params p [] fun s =>
    let l := s.sensorList
    s.reply p OK 0 0 (l.length :: l.flatMap fun e => [e.1 * 2 ^ 16 + e.2.1, e.2.2])

/-- SEQ of a log record. -/
def recSeq (r : List Nat) : Nat := r.getD 1 0

/-- The log records held, oldest first: those of the DRAM ring that the MGT ring has overwritten, and the MGT ring
(R442). -/
def logHeld (s : State) : List (List Nat) :=
  match s.mgt.ring with
  | [] => s.mgt.dramRing
  | r :: l => s.mgt.dramRing.filter (fun x => decide (recSeq x < recSeq r)) ++ r :: l

/-- Whole records up to a byte limit. -/
def logTake : List (List Nat) → Nat → List Nat
  | [], _ => []
  | r :: l, k => if 4 * r.length ≤ k then r ++ logTake l (k - 4 * r.length) else []

def cmdLogRead (p : Packet) (s : State) : State :=
  s.params p [whole, whole] fun s =>
    if par p 1 < 64 || 65536 < par p 1 then s.reply p E_PARAM 0
    else s.reply p OK 0 0 (logTake (s.logHeld.filter fun r => decide (par p 0 ≤ recSeq r)) (par p 1))

def cmdLogClear (p : Packet) (s : State) : State :=
  s.params p [] fun s => ({ s with mgt := { s.mgt with ring := [], dramRing := [] } } : State).reply p OK 0

/-- The slot that runs; none in ROM footing. -/
def runningSlot (s : State) : Option Nat := if s.sys.phase = .footRom then none else some s.sys.ret.tried

def cmdUpdateBegin (p : Packet) (s : State) : State :=
  s.params p [whole, 1] fun s =>
    let k := par p 1 % 2
    if s.mgt.update.isSome then s.reply p E_STATE 0
    else if 0x800000 < par p 0 then s.reply p E_PARAM 0
    else if s.runningSlot = some k then s.reply p E_STATE 0
    else
      let u : Update := { slot := k, size := par p 0, staged := s.dramUp, cells := [], job := 0 }
      let s := (s.modSys fun y => { y with verified := Arith.putBit y.verified k false }).showImages
      let s := if u.staged then s else s.slotErase k
      ({ s with mgt := { s.mgt with update := some u } } : State).reply p OK 0

def cmdUpdateData (p : Packet) (s : State) : State :=
  s.paramsTail p [whole] 1 1018 fun s =>
    let o := par p 0
    let l := bytesOfWords (p.words.drop 1)
    match s.mgt.update with
    | none => s.reply p E_STATE 0
    | some u =>
      if u.job != 0 then s.reply p E_STATE 0
      else if o % 4 != 0 || u.size < o + l.length then s.reply p E_PARAM 0
      else
        let s := if u.staged then
            { s with mgt := { s.mgt with update := some { u with cells := Mem.writes flashFill u.cells o l } } }
          else s.flashPut (slotBase u.slot + o) l
        s.reply p OK 0

def cmdUpdateCommit (p : Packet) (s : State) : State :=
  s.params p [] fun s =>
    match s.mgt.update with
    | none => s.reply p E_STATE 0
    | some u =>
      if u.job != 0 then s.reply p E_STATE 0
      else s.makeJob p 12 .running fun s h => { s with mgt := { s.mgt with update := some { u with job := h } } }

/-- The slot may be activated: it holds a verified image whose SVN is not below the fuse counter (R446). -/
def mayActivate (s : State) (k : Nat) : Bool := s.sys.verified.testBit k && decide (s.sys.svn ≤ s.slotWord k 12)

/-- Makes slot `k` the preferred one, clears FAILS and resets the device. -/
def activate (s : State) (k : Nat) : State :=
  let s := s.prefer k
  s.deviceReset { s.sys.ret with fails := 0 } rActivate

def cmdUpdateActivate (p : Packet) (s : State) : State :=
  s.params p [1, whole] fun s =>
    let k := par p 0 % 2
    if par p 1 != resetKey then s.reply p E_PARAM 1
    else if !s.mayActivate k then s.reply p E_AUTH 0
    else (s.reply p OK 0).activate k

/-- A read of `n` bytes, padded to whole words. -/
def padWords (l : List Nat) (n : Nat) : List Nat :=
  let l := (l ++ List.replicate n 0).take n
  wordsOfBytes (l ++ List.replicate ((4 - n % 4) % 4) 0)

def cmdI2cXfer (p : Packet) (s : State) : State :=
  let w := slice (par p 0) 16 8
  let r := slice (par p 0) 24 8
  s.paramsTail p [0xFFFF017F] ((w + 3) / 4) ((w + 3) / 4) fun s =>
    if 252 < w then s.reply p E_PARAM 0
    else
      let s := s.emit (.i2c 0 (par p 0 % 128) ((bytesOfWords (p.words.drop 1)).take w))
      match p.bus with
      | .data l => s.reply p OK 0 0 (padWords l r)
      | .nak i => s.reply p E_PARAM i
      | .pec => s.reply p E_PARAM 0xFFFF
      | .timeout => s.reply p E_TIMEOUT 0

def cmdHodQuery (p : Packet) (s : State) : State :=
  s.params p [] fun s =>
    if s.sys.phase = .footRom then s.reply p OK 0 0 [4, 4, s.hodQueue.length]
    else s.reply p OK 0 0 [s.rd R.PWR_BUDGET_BUDGET, s.granted, s.hodQueue.length]

def cmdBudgetSet (p : Packet) (s : State) : State :=
  s.params p [0x1FF] fun s =>
    let v := max 1 (min 256 (par p 0))
    if v < s.granted then (s.ev R.PWR_EVENT_CFG_REJECT).reply p E_STATE 0
    else (s.wr R.PWR_BUDGET_BUDGET v).reply p (if v = par p 0 then OK else W_CLAMPED) 0

/-! ### The array (R423, R470) -/

def cmdArrayJoin (p : Packet) (s : State) : State :=
  let net := s.hif.net[s.aryEth]
  let v6 := (net.headD 0).testBit 1
  s.params p ([0x3FFF] ++ addrMasks v6 ++ [0xFFFF]) fun s =>
    let master := parBit p 0 12
    let addr := parAddr p 1 v6
    let own := (net.drop 2).take 4
    if s.aryState != aryOff then s.reply p E_STATE (1 * 4096)
    else if !s.on (R.HIF_ETH_CFG_EN s.aryEth) || own.all (fun w => w == 0) || par p 5 = 0 || (!master && addr = 0)
        || (master && addr != 0) then s.reply p E_PARAM (2 * 4096)
    else if !s.aryTimeOk (parBit p 0 13) then s.reply p E_ARRAY_TIME (3 * 4096)
    else s.makeJob p 14 .queued fun s h => s.aryJoin (par p 0 % 4096) master (parBit p 0 13) addr (par p 5) h

/-- The device has joined. -/
def aryIn (s : State) : Bool := s.aryState == ARY_JOINED || s.aryState == ARY_ORPHAN

def cmdArrayLeave (p : Packet) (s : State) : State :=
  s.params p [] fun s =>
    if s.aryIn then (s.aryLeaveWith false .done OK 0).reply p OK 0 else s.reply p E_STATE 0

def cmdArrayStatus (p : Packet) (s : State) : State :=
  s.params p [] fun s =>
    s.reply p OK 0 0
      [s.ary.id + s.rd R.ARY_STAT_MASTER * 2 ^ 12 + ofBool s.aryIn * 2 ^ 13,
        if s.aryMaster then s.ary.roster.length else 0]

/-- Only a master goes on: E_ARRAY_ROLE on a member, E_STATE when the device is OFF. -/
def asMaster (s : State) (p : Packet) (f : State → State) : State :=
  if s.aryState = aryOff then s.reply p E_STATE 0
  else if !s.aryMaster then s.reply p E_ARRAY_ROLE 0
  else f s

def cmdArrayArm (p : Packet) (s : State) : State :=
  s.params p [0xF] fun s => s.asMaster p fun s =>
    if s.on R.ARY_STAT_ARMED then s.reply p E_STATE 0
    else s.makeJob p 14 .running fun s h => s.aryArm (par p 0) h

def cmdArrayDisarm (p : Packet) (s : State) : State :=
  s.params p [] fun s => s.asMaster p fun s =>
    if s.on R.ARY_STAT_ARMED && !s.ary.disarming then (s.reply p OK 0).aryDisarm else s.reply p E_STATE 0

def cmdArrayFire (p : Packet) (s : State) : State :=
  s.params p [whole, whole] fun s =>
    if s.aryIn then (s.aryFire (par64 p 0) 2 0).reply p OK 0 else s.reply p E_STATE 0

/-! ### Diagnostics (R424) -/

def cmdEcho (p : Packet) (s : State) : State := s.reply p OK 0 0 p.words

def cmdSnapshot (p : Packet) (s : State) : State :=
  s.params p [3] fun s =>
    if s.degraded then s.reply p E_DRAM 0
    else if s.mgt.snap.isSome then s.reply p E_BUSY 0
    else s.makeJob p 15 .running fun s h => { s with mgt := { s.mgt with snap := some (h, par p 0) } }

def cmdDramRetrain (p : Packet) (s : State) : State :=
  s.params p [0xFFFF] fun s =>
    let st := s.memState
    if st = memTraining || st = memRetraining || s.memWaits then s.reply p E_STATE 0
    else s.makeJob p 11 .queued fun s h => s.memCommand h (par p 0)

end Sys2Proof.Machine.State
end

