-- ==== Sys2Proof/Machine/Operate.lean ====
section
/-! DEFINITION. The acquisition, calibration and job-control opcodes (R411, R412, R418 to R420). -/

namespace Sys2Proof.Machine.State
open Sys2Proof Arith

/-! ### Ports -/

/-- PORTn and its carrier synthesiser turn on at the dispatch of a port start (R428, R429): the raw tick at which the
wait for lock ends, where one is needed. -/
def startClocks (s : State) (n : Fin 4) : State × Option Nat :=
  let s := s.portTurnOn n
  let k := 3 + csyOf n
  if s.bit R.SYN_CTRL_EN k then (s, none)
  else (synFollow s (s.synEnable k true) k, some (s.tbu.raw + 125000))

def cmdPortStart (p : Packet) (s : State) : State :=
  s.params p [0x103, 0xFFFF] fun s =>
    let n := parPort p 0
    let watch := parBit p 0 8 || s.sys.mode == 3
    let (s, lockBy) := s.startClocks n
    let st := s.pstate n
    if !(st = stIdle || st = stHalted) then s.reply p E_STATE 0
    else if s.faults n != 0 then s.reply p E_INTERLOCK 0
    else
      match if s.released n then s.startChecks n lockBy.isSome else none with
      | some (code, d) => (if st = stHalted then s.portDown n stIdle else s).reply p code d
      | none => s.makeJob p 1 .queued fun s h => s.startBegin n watch (par p 1) h lockBy

def cmdPortStop (p : Packet) (s : State) : State :=
  s.params p [3] fun s =>
    let n := parPort p 0
    if s.pstate n = stIdle then s.reply p E_STATE 0
    else if s.pstate n = stStarting then (s.startCancel n).reply p OK 0
    else s.makeJob p 2 .running fun s h => s.portStop n h

/-! ### DTS jobs, captures, triggers -/

def cmdDtsStart (p : Packet) (s : State) : State :=
  s.params p [0x33, whole, 0xFFFF] fun s =>
    let n := parPort p 0
    match s.dtsCheck n (par p 1) with
    | some (k, st) => s.reply p st (k * 4096)
    | none =>
      s.makeJob p 4 .queued fun s h =>
        match s.dtsMake n h (par p 1) (parBit p 0 4) (parBit p 0 5) (par p 2) with
        | (s, .refused) => (s.rrxEnd n rjFailed).jobFailed h E_POWER (6 * 4096)
        | (s, _) => s

def cmdAcqArm (p : Packet) (s : State) : State :=
  s.params p [3] fun s =>
    let k := parPort p 0
    if s.ary.chans.testBit k && !s.aryMaster then s.reply p E_STATE 0
    else
      let (st, c) := s.armCheck k
      if c != 0 then ((s.arm k 0).1).reply p st (c * 4096)
      else s.makeJob p 5 .running fun s h => (s.arm k h).1

def cmdAcqStop (p : Packet) (s : State) : State :=
  s.params p [3] fun s =>
    let k := parPort p 0
    if s.chLive k then (s.chDisarm k).reply p OK 0 else s.reply p E_STATE 0

def cmdAcqTrigger (p : Packet) (s : State) : State :=
  s.params p [0xFFFF] fun s => (s.swTrig (par p 0)).reply p OK 0

/-! ### The interlock -/

def cmdIlkStop (p : Packet) (s : State) : State :=
  s.params p [1] fun s =>
    let b := parBit p 0 0
    let s := (if s.on R.RMD_ILK_CTRL_SW_STOP = b then s else s.swStop b).showIlk
    s.reply p OK 0 0 [(s.bar0Read (offOf R.RMD_ILK_STAT_LOOP) true).1]

def cmdIlkClear (p : Packet) (s : State) : State :=
  s.params p [] fun s => (s.modRmd fun m => { m with clearWait := m.clearWait ++ [p] }).ilkCtrlClear

/-! ### DSP groups -/

def cmdGroupWake (p : Packet) (s : State) : State :=
  s.params p [7, 0xFFFF] fun s =>
    let g := Fin.ofNat 8 (par p 0)
    if s.gstate g != gOff then s.reply p E_STATE 0
    else if s.hasJob 6 fun j => j.words.headD 0 == par p 0 then s.reply p E_BUSY 0
    else
      s.makeJob p 6 .queued fun s h =>
        match s.requestHods { user := .group g, hods := 5, cls := 1, tmo := par p 1, job := h } with
        | (s, .granted) => s.groupWaking g h
        | (s, .queued) => s
        | (s, .refused) => s.jobFailed h E_POWER

def cmdGroupSleep (p : Packet) (s : State) : State :=
  s.params p [7] fun s =>
    let g := Fin.ofNat 8 (par p 0)
    if s.gstate g = gIdle then (s.groupSleep g).reply p OK 0 else s.reply p E_STATE 0

def cmdKernelRun (p : Packet) (s : State) : State :=
  s.params p [0xFF07] fun s =>
    let g := Fin.ofNat 8 (par p 0)
    let mask := slice (par p 0) 8 8
    let (st, d) := s.runCheck g mask
    if st != OK then s.reply p st d else s.makeJob p 7 .running fun s h => s.runBegin g mask h

/-! ### Calibration (R419, R448) -/

def cmdCalRun (p : Packet) (s : State) : State :=
  s.params p [0x1FF, 0xFFFF] fun s =>
    let m := par p 0
    if m = 0 then s.reply p E_PARAM 0
    else
      s.makeJob p 8 .queued fun s h =>
        let j : CalJob := { job := h, mask := m, passed := 0, quiet := 0, other := 0, power := 0, tmo := par p 1, held := false }
        let s := { s with mgt := { s.mgt with calJobs := s.mgt.calJobs ++ [j] } }
        let s := (bitsOf 9 m).foldl (fun (s : State) t => s.calPend t) s
        match s.mgt.calRun with
        | some t => if m.testBit t then s.jobRuns h else s
        | none => s.calNext

def cmdCalStatus (p : Packet) (s : State) : State :=
  s.params p [] fun s =>
    let port (n : Nat) : Nat := s.rd (R.CDG_PORT_STAT_CAL_STALE n) * 4 + s.rd (R.CDG_PORT_STAT_CAL_RESULT n)
    let raman (n : Nat) : Nat := s.rd (R.RRX_PORT_STAT_CAL_STALE n) * 4 + s.rd (R.RRX_PORT_STAT_CAL_RESULT n)
    let word (f : Nat → Nat) : Nat := ((List.range 4).map fun n => f n * 2 ^ (4 * n)).sum
    s.reply p OK 0 0 [word port + word raman * 2 ^ 16, s.rd R.RSF_STAT_CAL_STALE * 4 + s.rd R.RSF_STAT_CAL_RESULT]

def cmdCalSchedule (p : Packet) (s : State) : State :=
  s.params p [0xFF01] fun s =>
    let d := slice (par p 0) 8 8
    let v := R.MGT_CAL_CFG_DELTA.norm.apply d
    let s := (s.put R.MGT_CAL_CFG_AUTO (parBit p 0 0)).wr R.MGT_CAL_CFG_DELTA v
    s.reply p (if v = d then OK else W_CLAMPED) 0

/-! ### Job control (R411, R412) -/

/-- The port, channel or group that a job's first parameter word names. -/
def jobUnit (j : Job) : Nat := j.words.headD 0

/-- Runs `f` on the job that the packet names while it is not final: E_PARAM for an unknown handle, E_STATE for a job
that has ended. -/
def control (p : Packet) (s : State) (f : Job → State → State) : State :=
  s.params p [] fun s =>
    match s.job? p.job with
    | none => s.reply p E_PARAM 1
    | some j => if live j then f j s else s.reply p E_STATE 0

/-- The targets of a CAL_RUN job that Plumb runs or waits for are left; the pass ends as Abandoned (R412, R449). -/
def calRelease (s : State) (h : Nat) : State :=
  match s.mgt.calJobs.find? fun j => j.job == h with
  | none => s
  | some j => (bitsOf 9 j.mask).foldl (fun (s : State) t => s.calLeave t) s

/-- Holds a CAL_RUN job, or lets it go on. -/
def calHold (s : State) (h : Nat) (held : Bool) : State :=
  { s with mgt := { s.mgt with calJobs := s.mgt.calJobs.map fun j => if j.job = h then { j with held := held } else j } }

def cmdSuspend (p : Packet) (s : State) : State :=
  control p s fun j s =>
    if j.state != .running then s.reply p E_STATE 0
    else
      let h := handle j
      let n := Fin.ofNat 4 (jobUnit j)
      let g := Fin.ofNat 8 (jobUnit j)
      if j.typ = 4 then if s.rrx[n].suspending then s.reply p E_STATE 0 else (s.reply p OK 0).dtsSuspend n
      else if j.typ = 5 then
        if s.rd (R.ACQ_CH_JOB_VALUE n) = h && s.chLive n && !s.acq.ch[n].draining then (s.reply p OK 0).chSuspend n
        else s.reply p E_STATE 0
      else if j.typ = 7 then if s.gstate g = gRunning then (s.reply p OK 0).runSuspend g else s.reply p E_STATE 0
      else if j.typ = 8 then (((s.reply p OK 0).calHold h true).calRelease h).jobSuspended h
      else s.reply p E_STATE 0

def cmdResume (p : Packet) (s : State) : State :=
  control p s fun j s =>
    if j.state != .suspended then s.reply p E_STATE 0
    else
      let h := handle j
      let n := Fin.ofNat 4 (jobUnit j)
      if j.typ = 4 then
        if !s.rrx[n].long then (s.reply p OK 0).dtsRun n
        else
          let tmo := j.words.getD 2 0
          let s := s.modRrx n fun r => { r with state := rjQueued, resuming := true, resumer := some p }
          let s := s.modJob h fun j => { j with state := .queued }
          match s.requestHods { user := .dts n, hods := 2, cls := 1, tmo := tmo, job := h } with
          | (s, .granted) => (s.dtsRun n).reply p OK 0
          | (s, .queued) => s.showRrx n
          | (s, .refused) => s.dtsTimeout n
      else if j.typ = 5 then (s.reply p OK 0).chResume n
      else if j.typ = 7 then (s.reply p OK 0).runResume (Fin.ofNat 8 (jobUnit j))
      else if j.typ = 8 then (((s.reply p OK 0).calHold h false).jobRuns h).calNext
      else s.reply p E_STATE 0

/-- A mode change that waits for its hods is withdrawn. -/
def modeWithdraw (s : State) : State :=
  (({ s with mgt := { s.mgt with change := none } } : State).put R.PWR_STAT_BUSY false).withdrawHods .mode

/-- What CANCEL does to job `j` (R412); none where its kind does not permit it in its state. -/
def jobCancel (s : State) (j : Job) : Option (State → State) :=
  let h := handle j
  let n := Fin.ofNat 4 (jobUnit j)
  let g := Fin.ofNat 8 (jobUnit j)
  let queued := j.state == .queued
  if j.typ = 1 then some fun s => s.startCancel n
  else if j.typ = 4 then
    some fun s =>
      let s := match s.rrx[n].resumer with
        | some q => s.reply q E_STATE 0
        | none => s
      s.dtsCancel n
  else if j.typ = 5 then if s.rd (R.ACQ_CH_JOB_VALUE n) = h && s.chLive n then some fun s => s.chCancel n else none
  else if j.typ = 6 then if queued then some fun s => (s.withdrawHods (.group g)).jobCancelled h else none
  else if j.typ = 7 then some fun s => s.runCancel g
  else if j.typ = 8 then
    some fun s =>
      let s := (s.calHold h true).calRelease h
      let s := { s with mgt := { s.mgt with calJobs := s.mgt.calJobs.filter fun e => e.job != h } }
      (s.jobCancelled h).calNext
  else if j.typ = 9 then if queued && j.op = 0x602 then some fun s => (s.tilesNotGranted h).jobCancelled h else none
  else if j.typ = 10 then if queued && j.op = 0x605 then some fun s => (s.withdrawHods .sco).jobCancelled h else none
  else if j.typ = 12 then
    some fun s => ({ s with mgt := { s.mgt with update := none } } : State).jobCancelled h
  else if j.typ = 13 then if queued then some fun s => s.modeWithdraw.jobCancelled h else none
  else if j.typ = 14 then
    if s.ary.joinJob = h then some fun s => s.aryJoinCancel
    else if s.ary.armJob = h then some fun s => s.aryArmCancel
    else none
  else if j.typ = 15 then some fun s => ({ s with mgt := { s.mgt with snap := none } } : State).jobCancelled h
  else none

def cmdCancel (p : Packet) (s : State) : State :=
  control p s fun j s =>
    match s.jobCancel j with
    | some f => f (s.reply p OK 0)
    | none => s.reply p E_STATE 0

/-- The code of a job's state in QUERY. -/
def jobCode (st : JobState) : Nat :=
  match st with
  | .queued => 0
  | .running => 1
  | .suspended => 2
  | .done => 3
  | .cancelled => 4
  | .failed => 5

def cmdQuery (p : Packet) (s : State) : State :=
  s.params p [] fun s =>
    match s.job? p.job with
    | none => s.reply p E_PARAM 1
    | some j =>
      let fin := !live j
      let ended := if fin then j.ended else 0
      s.reply p OK 0 0
        [j.typ * 2 ^ 28 + jobCode j.state * 2 ^ 25 + j.op, if fin then j.status + j.detail % 65536 * 2 ^ 16 else 0,
          j.made % 2 ^ 32, j.made / 2 ^ 32, ended % 2 ^ 32, ended / 2 ^ 32, j.progress]

def cmdJobList (p : Packet) (s : State) : State :=
  s.params p [] fun s =>
    let l := (s.cmd.jobs.filter live ++ s.cmd.jobs.filter fun j => !live j).map handle
    s.reply p OK 0 0 (l.length :: l)

end Sys2Proof.Machine.State
end

