-- ==== Sys2Proof/Machine/Service.lean ====
section
/-! DEFINITION. The command processor: the checks on every packet (R399), places and order (R400 to R402), FENCE and
URGENT (R404, R405), and the dispatch of every opcode of the catalogue (R416 to R424). -/

namespace Sys2Proof.Machine.State
open Sys2Proof Arith

/-- Runs the command of packet `p` (R416 to R424). -/
def run (p : Packet) : State → State :=
  match p.op with
  | 0x100 => cmdNop p
  | 0x101 => cmdIdentify p
  | 0x102 => cmdStatus p
  | 0x103 => cmdRegRead p
  | 0x104 => cmdRegWrite p
  | 0x105 => cmdMemRead p
  | 0x106 => cmdMemWrite p
  | 0x107 => cmdReset p
  | 0x200 => cmdPatternCheck p
  | 0x201 => cmdRouteSelect p
  | 0x202 => cmdSlotCommit p
  | 0x203 => cmdZoneCommit p
  | 0x204 => cmdZoneDiscard p
  | 0x205 => cmdGroupIndex p
  | 0x206 => cmdFilterProfile p
  | 0x207 => cmdDetectorProfile p
  | 0x208 => cmdThresholdSet p
  | 0x209 => cmdBiasSet p
  | 0x20A => cmdTimeSet p
  | 0x20B => cmdNetConfig p
  | 0x20C => cmdPtpConfig p
  | 0x20D => cmdPtpStatus p
  | 0x210 => cmdKernelLoad p
  | 0x300 => cmdPortStart p
  | 0x301 => cmdPortStop p
  | 0x302 => cmdDtsStart p
  | 0x303 => cmdAcqArm p
  | 0x304 => cmdAcqStop p
  | 0x305 => cmdAcqTrigger p
  | 0x306 => cmdIlkStop p
  | 0x307 => cmdIlkClear p
  | 0x310 => cmdGroupWake p
  | 0x311 => cmdGroupSleep p
  | 0x312 => cmdKernelRun p
  | 0x400 => cmdCalRun p
  | 0x401 => cmdCalStatus p
  | 0x402 => cmdCalSchedule p
  | 0x500 => cmdSuspend p
  | 0x501 => cmdResume p
  | 0x502 => cmdCancel p
  | 0x503 => cmdQuery p
  | 0x504 => cmdJobList p
  | 0x600 => cmdStreamOpen p
  | 0x601 => cmdStreamClose p
  | 0x602 => cmdTileStart p
  | 0x603 => cmdTileStop p
  | 0x604 => cmdTileFlush p
  | 0x605 => cmdScoStart p
  | 0x606 => cmdScoStop p
  | 0x700 => cmdModeSet p
  | 0x701 => cmdSensorRead p
  | 0x702 => cmdLogRead p
  | 0x703 => cmdLogClear p
  | 0x704 => cmdUpdateBegin p
  | 0x705 => cmdUpdateData p
  | 0x706 => cmdUpdateCommit p
  | 0x707 => cmdUpdateActivate p
  | 0x708 => cmdI2cXfer p
  | 0x709 => cmdHodQuery p
  | 0x70A => cmdBudgetSet p
  | 0x800 => cmdArrayJoin p
  | 0x801 => cmdArrayLeave p
  | 0x802 => cmdArrayStatus p
  | 0x803 => cmdArrayArm p
  | 0x804 => cmdArrayDisarm p
  | 0x805 => cmdArrayFire p
  | 0x900 => cmdEcho p
  | 0x901 => cmdSnapshot p
  | 0x902 => cmdDramRetrain p
  | _ => fun s => s.reply p E_OPCODE 0

/-! ### The checks of R399 -/

/-- The interface of a requester reaches the command processor: PCIe and Ethernet after boot complete, the SPI slave and
the console in every mode but STANDBY (R41, R426, R459, R461). -/
def reaches (s : State) (q : Requester) : Bool :=
  match q with
  | .pcie | .eth _ _ _ => s.sys.phase == .up
  | .spi | .console => !(s.sys.phase == .held || s.sys.phase == .tripped || s.sys.phase == .standby)
  | .firmware => false

/-- Commands in flight (R401). -/
def inFlight (s : State) : Nat := s.cmd.open_.length + s.cmd.waiting.length

/-- The tag of `p` is in flight for its requester (R400). -/
def tagUsed (s : State) (p : Packet) : Bool :=
  (s.cmd.open_ ++ s.cmd.waiting).any fun e => e.2.req == p.req && e.2.tag == p.tag

/-- The first of the checks 3 to 9 that the packet fails: its number and status. -/
def packetCheck (s : State) (p : Packet) : Option (Nat × Nat) :=
  if 127 < p.tag then some (3, E_TAG)
  else if s.tagUsed p then some (4, E_TAG)
  else if !opcodes.contains p.op then some (5, E_OPCODE)
  else if p.rsv != 0 || (p.urgent && !urgentOps.contains p.op) then some (6, E_PARAM)
  else if !s.serves p.op then some (7, E_STATE)
  else if (p.job = 0) = jobOps.contains p.op then some (8, E_PARAM)
  else if (if p.urgent then 128 else 120) ≤ s.inFlight then some (9, E_BUSY)
  else none

/-! ### Dispatch (R402, R404, R405) -/

/-- A job of the kinds that settle when they run has settled (R412). -/
def jobSettled (j : Job) : Bool :=
  if j.typ = 4 || j.typ = 5 || j.typ = 7 || j.typ = 14 then j.state != .queued else !live j

/-- Every earlier command of the requester has its reply, and the jobs of those commands have settled. -/
def settled (s : State) (q : Requester) (arr : Nat) : Bool :=
  (s.cmd.open_.all fun e => !(e.2.req == q && decide (e.1 < arr)))
    && s.cmd.jobs.all fun j => !(j.req == q && decide (j.arr < arr)) || jobSettled j

/-- Dispatches the packet that arrived as number `arr`. -/
def dispatch (s : State) (arr : Nat) (p : Packet) : State :=
  run p { s with cmd := { s.cmd with arr := arr, open_ := s.cmd.open_ ++ [(arr, p)] } }

/-- A packet that has passed its checks is dispatched, or waits under FENCE or behind a fenced command. -/
def arrive (s : State) (p : Packet) : State :=
  let arr := s.cmd.arrivals + 1
  let s := { s with cmd := { s.cmd with arrivals := arr } }
  if p.urgent then s.dispatch arr p
  else if (s.cmd.waiting.any fun e => e.2.req == p.req) || (p.fence && !s.settled p.req arr) then
    { s with cmd := { s.cmd with waiting := s.cmd.waiting ++ [(arr, p)] } }
  else s.dispatch arr p

/-- A packet is handed to the command processor. A packet over PCIe without a place is not fetched (R401). -/
def accept (s : State) (p : Packet) : State :=
  match s.packetCheck p with
  | some (9, st) => if p.req = .pcie then s else s.answer p st (0xF000 + 9)
  | some (k, st) => s.answer p st (0xF000 + k)
  | none => s.arrive p

/-- A command datagram is discarded (R385). -/
def datagramBad (s : State) (m : Fin 2) : State := (s.count (R.HIF_ETH_CMDBAD_COUNT m)).ev R.HIF_EVENT_ETH_CMD_ERR

/-- The packet is discarded since 8 replies wait (R390). HIF shows it while its domain is on. -/
def spiOverflow (s : State) : State :=
  let s := { s with hif := { s.hif with spiOvf := true } }
  if s.domOn dCORE then s.ev R.HIF_EVENT_SPI_OVF else s

/-- The reply that is kept for a retransmitted datagram (R386). -/
def keptReply (s : State) (p : Packet) : Option Reply :=
  (s.cmd.kept.find? fun (e : Requester × Nat × Nat × Reply) => e.1 == p.req && e.2.1 == p.tag && e.2.2.1 == p.seq).map
    fun (e : Requester × Nat × Nat × Reply) => e.2.2.2

/-- An interface hands over a packet whose CRC it has found right; `bad`: it fails check 2 (R399). A descriptor's
packet that fails it does not come here (R377). -/
def handIn (s : State) (p : Packet) (bad : Bool) : State :=
  match p.req with
  | .pcie => if bad then s else s.accept p
  | .eth m a u =>
    if bad then s.datagramBad m
    else
      match s.keptReply p with
      | some r => s.udpSend m a u (bytesOfWords (replyHeader r ++ r.result))
      | none => s.accept p
  | .spi =>
    if 8 ≤ s.hif.spi.length then s.spiOverflow
    else if bad then s.answer p E_PARAM 0xF002
    else s.accept p
  | .console => if bad then s.answer p E_PARAM 0xF002 else s.accept p
  | .firmware => s

/-- A packet with the opcode of its row reaches the device. -/
def take (s : State) (op : Nat) (p : Packet) : State :=
  if s.reaches p.req then
    s.handIn { p with op := op, words := p.words.map fun w => w % 2 ^ 32 } (decide (1020 < p.words.length))
  else s

/-- The packet numbered `arr` may be dispatched now. -/
def ready (s : State) (e : Nat × Packet) : Bool :=
  (s.cmd.waiting.all fun x => !(x.2.req == e.2.req && decide (x.1 < e.1))) && (!e.2.fence || s.settled e.2.req e.1)

/-- The waiting packets whose commands have settled are dispatched, in order of arrival. -/
def fenceRelease (s : State) : State :=
  s.cmd.waiting.foldl (fun (s : State) (e : Nat × Packet) =>
    if s.ready e && s.cmd.waiting.any (fun x => x.1 == e.1) then
      let s := { s with cmd := { s.cmd with waiting := s.cmd.waiting.filter fun x => x.1 != e.1 } }
      s.dispatch e.1 e.2
    else s) s

end Sys2Proof.Machine.State

namespace Sys2Proof.Machine
open Sys2Proof

def execFenceRelease (s : State) : Out := .next s.fenceRelease
def execNop (p : Packet) (s : State) : Out := .next (s.take 0x100 p)
def execIdentify (p : Packet) (s : State) : Out := .next (s.take 0x101 p)
def execStatus (p : Packet) (s : State) : Out := .next (s.take 0x102 p)
def execRegRead (p : Packet) (s : State) : Out := .next (s.take 0x103 p)
def execRegWrite (p : Packet) (s : State) : Out := .next (s.take 0x104 p)
def execMemRead (p : Packet) (s : State) : Out := .next (s.take 0x105 p)
def execMemWrite (p : Packet) (s : State) : Out := .next (s.take 0x106 p)
def execReset (p : Packet) (s : State) : Out := .next (s.take 0x107 p)
def execPatternCheck (p : Packet) (s : State) : Out := .next (s.take 0x200 p)
def execRouteSelect (p : Packet) (s : State) : Out := .next (s.take 0x201 p)
def execSlotCommit (p : Packet) (s : State) : Out := .next (s.take 0x202 p)
def execZoneCommit (p : Packet) (s : State) : Out := .next (s.take 0x203 p)
def execZoneDiscard (p : Packet) (s : State) : Out := .next (s.take 0x204 p)
def execGroupIndex (p : Packet) (s : State) : Out := .next (s.take 0x205 p)
def execFilterProfile (p : Packet) (s : State) : Out := .next (s.take 0x206 p)
def execDetectorProfile (p : Packet) (s : State) : Out := .next (s.take 0x207 p)
def execThresholdSet (p : Packet) (s : State) : Out := .next (s.take 0x208 p)
def execBiasSet (p : Packet) (s : State) : Out := .next (s.take 0x209 p)
def execTimeSet (p : Packet) (s : State) : Out := .next (s.take 0x20A p)
def execNetConfig (p : Packet) (s : State) : Out := .next (s.take 0x20B p)
def execPtpConfig (p : Packet) (s : State) : Out := .next (s.take 0x20C p)
def execPtpStatus (p : Packet) (s : State) : Out := .next (s.take 0x20D p)
def execKernelLoad (p : Packet) (s : State) : Out := .next (s.take 0x210 p)
def execPortStart (p : Packet) (s : State) : Out := .next (s.take 0x300 p)
def execPortStop (p : Packet) (s : State) : Out := .next (s.take 0x301 p)
def execDtsStart (p : Packet) (s : State) : Out := .next (s.take 0x302 p)
def execAcqArm (p : Packet) (s : State) : Out := .next (s.take 0x303 p)
def execAcqStop (p : Packet) (s : State) : Out := .next (s.take 0x304 p)
def execAcqTrigger (p : Packet) (s : State) : Out := .next (s.take 0x305 p)
def execIlkStop (p : Packet) (s : State) : Out := .next (s.take 0x306 p)
def execIlkClear (p : Packet) (s : State) : Out := .next (s.take 0x307 p)
def execGroupWake (p : Packet) (s : State) : Out := .next (s.take 0x310 p)
def execGroupSleep (p : Packet) (s : State) : Out := .next (s.take 0x311 p)
def execKernelRun (p : Packet) (s : State) : Out := .next (s.take 0x312 p)
def execCalRun (p : Packet) (s : State) : Out := .next (s.take 0x400 p)
def execCalStatus (p : Packet) (s : State) : Out := .next (s.take 0x401 p)
def execCalSchedule (p : Packet) (s : State) : Out := .next (s.take 0x402 p)
def execSuspend (p : Packet) (s : State) : Out := .next (s.take 0x500 p)
def execResume (p : Packet) (s : State) : Out := .next (s.take 0x501 p)
def execCancel (p : Packet) (s : State) : Out := .next (s.take 0x502 p)
def execQuery (p : Packet) (s : State) : Out := .next (s.take 0x503 p)
def execJobList (p : Packet) (s : State) : Out := .next (s.take 0x504 p)
def execStreamOpen (p : Packet) (s : State) : Out := .next (s.take 0x600 p)
def execStreamClose (p : Packet) (s : State) : Out := .next (s.take 0x601 p)
def execTileStart (p : Packet) (s : State) : Out := .next (s.take 0x602 p)
def execTileStop (p : Packet) (s : State) : Out := .next (s.take 0x603 p)
def execTileFlush (p : Packet) (s : State) : Out := .next (s.take 0x604 p)
def execScoStart (p : Packet) (s : State) : Out := .next (s.take 0x605 p)
def execScoStop (p : Packet) (s : State) : Out := .next (s.take 0x606 p)
def execModeSet (p : Packet) (s : State) : Out := .next (s.take 0x700 p)
def execSensorRead (p : Packet) (s : State) : Out := .next (s.take 0x701 p)
def execLogRead (p : Packet) (s : State) : Out := .next (s.take 0x702 p)
def execLogClear (p : Packet) (s : State) : Out := .next (s.take 0x703 p)
def execUpdateBegin (p : Packet) (s : State) : Out := .next (s.take 0x704 p)
def execUpdateData (p : Packet) (s : State) : Out := .next (s.take 0x705 p)
def execUpdateCommit (p : Packet) (s : State) : Out := .next (s.take 0x706 p)
def execUpdateActivate (p : Packet) (s : State) : Out := .next (s.take 0x707 p)
def execI2cXfer (p : Packet) (s : State) : Out := .next (s.take 0x708 p)
def execHodQuery (p : Packet) (s : State) : Out := .next (s.take 0x709 p)
def execBudgetSet (p : Packet) (s : State) : Out := .next (s.take 0x70A p)
def execArrayJoin (p : Packet) (s : State) : Out := .next (s.take 0x800 p)
def execArrayLeave (p : Packet) (s : State) : Out := .next (s.take 0x801 p)
def execArrayStatus (p : Packet) (s : State) : Out := .next (s.take 0x802 p)
def execArrayArm (p : Packet) (s : State) : Out := .next (s.take 0x803 p)
def execArrayDisarm (p : Packet) (s : State) : Out := .next (s.take 0x804 p)
def execArrayFire (p : Packet) (s : State) : Out := .next (s.take 0x805 p)
def execEcho (p : Packet) (s : State) : Out := .next (s.take 0x900 p)
def execSnapshot (p : Packet) (s : State) : Out := .next (s.take 0x901 p)
def execDramRetrain (p : Packet) (s : State) : Out := .next (s.take 0x902 p)

end Sys2Proof.Machine
end

