-- ==== Sys2Proof/Machine/Hif.lean ====
section
/-! DEFINITION. HIF: the command rings and power states of the PCIe endpoint (R373 to R379, R383), frames and datagrams
(R384 to R389, R84, R85), the SPI slave (R390), the UART console (R391, R463) and the test port (R393, R495). -/

namespace Sys2Proof.Machine.State
open Sys2Proof Arith

def modHif (s : State) (f : Hif → Hif) : State := { s with hif := f s.hif }

/-! ### Packets as bytes (R395, R396) -/

/-- PLEN of the packet `l`. -/
def plenOf (l : List Nat) : Nat := ofLeBytes ((l.drop 4).take 2)

/-- Check 1: the packet is as long as its header, and word 3 is the CRC of the header's first words and PLEN bytes. -/
def packetCrc (l : List Nat) : Bool :=
  decide (16 ≤ l.length) && crc32 (l.take 12 ++ (l.drop 16).take (plenOf l)) == ofLeBytes ((l.drop 12).take 4)

/-- Check 2 fails. -/
def packetLength (l : List Nat) : Bool :=
  plenOf l % 4 != 0 || decide (4080 < plenOf l) || plenOf l + 16 != l.length

/-- The packet that the bytes `l` spell. -/
def packetOf (q : Requester) (l : List Nat) (rcap result : Nat) (bus : BusEnd) : Packet :=
  let h := wordsOfBytes (l.take 16)
  let w := h.getD 0 0
  { req := q, op := w % 65536, tag := slice w 16 8, fence := w.testBit 24, notify := w.testBit 25, urgent := w.testBit 26
    seq := slice (h.getD 1 0) 16 16, job := h.getD 2 0, words := wordsOfBytes (l.drop 16), rcap := rcap, result := result
    rsv := slice w 27 5, bus := bus }

/-! ### The command rings (R376 to R379) -/

/-- The failure completion of a descriptor: opcode 0, tag 0xFF, the submission index in the detail (R377). -/
def descFail (s : State) (i : Nat) : State :=
  (s.ev R.HIF_EVENT_DESC_ERR).sendCompletion ⟨⟨0, 0xFF, 0, E_PARAM, i, 0, s.now, []⟩, 0, 0, false⟩

/-- The fields of a descriptor are not such that it is fetched: LENGTH out of range, or an address not aligned. -/
def descBad (d : Vector Word 8) : Bool :=
  let n := d[2].toNat % 8192
  decide (n < 16) || decide (4096 < n) || n % 4 != 0 || d[0].toNat % 16 != 0 || d[4].toNat % 16 != 0

/-- The device fetches: the ring is in use and holds a descriptor, the endpoint makes DMA, and the store of held
completions has room (R374, R379). -/
def sqFetches (s : State) : Bool :=
  s.sys.phase == .up && s.pcieUp && s.on R.HIF_SQ_CFG_EN && s.rd R.HIF_SQ_HEAD_INDEX != s.rd R.HIF_SQ_TAIL_INDEX
    && decide (s.hif.held.length < 64)

/-- HEAD passes a descriptor. -/
def sqAdvance (s : State) : State :=
  s.wr R.HIF_SQ_HEAD_INDEX ((s.rd R.HIF_SQ_HEAD_INDEX + 1) % ringEntries (s.rd R.HIF_SQ_CFG_SIZE))

/-- The descriptor `d` at HEAD and its packet `l` are read; `dma`: one of the reads fails. -/
def descFetch (s : State) (d : Vector Word 8) (l : List Nat) (dma : Bool) (bus : BusEnd) : State :=
  let i := s.rd R.HIF_SQ_HEAD_INDEX
  if !s.sqFetches then s
  else if dma then (s.sqAdvance.ev R.HIF_EVENT_DMA_ERR).descFail i
  else if descBad d || (s.on R.HIF_SQ_CFG_CRC_EN && !packetCrc l) || packetLength l then s.sqAdvance.descFail i
  else
    let p := packetOf .pcie l d[3].toNat (d[4].toNat + d[5].toNat * 2 ^ 32) bus
    match s.packetCheck p with
    | some (9, _) => s
    | _ => s.sqAdvance.accept p

/-- COAL_US after the first entry that is not yet signalled (R383). -/
def cqTimer (s : State) : State :=
  if s.hif.cqNew = 0 then s else (s.modHif fun h => { h with cqNew := 0 }).signal 0

/-! ### Link and power states (R373 to R375) -/

/-- The link trains: it needs the device out of reset and of STANDBY. -/
def linkUp (s : State) (speed width : Nat) : State :=
  if s.sys.phase = .held || s.sys.phase = .tripped || s.sys.phase = .standby || s.on R.HIF_STAT_LINK_UP then s
  else ((s.put R.HIF_STAT_LINK_UP true).wr R.HIF_STAT_SPEED speed).wr R.HIF_STAT_WIDTH width

/-- What HIF does on a link-down or a function level reset: the rings go out of use, the streams to PCIe close, every
vector is masked, the function is in D0 again, and the commands already fetched end with their completions discarded. -/
def hifReset (s : State) : State :=
  let s := ((s.put R.HIF_SQ_CFG_EN false).put R.HIF_CQ_CFG_EN false).heldDrop
  let s := (s.pcieStreamsShut.put R.HIF_STAT_D3HOT false).modHif fun h => { h with cutoff := s.cmd.arrivals }
  (List.range 64).foldl (fun (s : State) v => s.put (R.HIF_MSIX_MASK v) true) s

def linkDown (s : State) : State :=
  if s.on R.HIF_STAT_LINK_UP then (s.put R.HIF_STAT_LINK_UP false).hifReset.hifEv R.HIF_EVENT_PCIE_LINK else s

def flr (s : State) : State :=
  if s.on R.HIF_STAT_LINK_UP then s.hifReset.hifEv R.HIF_EVENT_FLR else s

/-- A vector that is pending and not masked is sent. -/
def msixSend (s : State) (v : Nat) : State :=
  if s.bit (R.HIF_PBA_PENDING (v / 32)) (v % 32) && !s.on (R.HIF_MSIX_MASK v)
  then (s.putBit (R.HIF_PBA_PENDING (v / 32)) (v % 32) false).signal v else s

/-- The return to D0: vectors that fired are sent, and the rings go on. -/
def d0Return (s : State) : State :=
  if s.on R.HIF_STAT_D3HOT then
    ((List.range 64).foldl (fun (s : State) v => s.msixSend v) (s.put R.HIF_STAT_D3HOT false)).drainHeld 192
  else s

/-! ### Ethernet -/

/-- A command datagram of address `a` and UDP port `u` on port `m` (R385); `frag`: it is an IP fragment. Without an
address from NET_CONFIG none is addressed to the port. -/
def cmdDatagram (s : State) (m : Fin 2) (a u : Nat) (l : List Nat) (frag : Bool) (bus : BusEnd) : State :=
  s.ethIn m fun s =>
    if s.hif.net[m].isEmpty then s.count (R.HIF_ETH_DISCARD_COUNT m)
    else if frag || packetLength l || !packetCrc l then s.datagramBad m
    else if s.reaches (.eth m a u) then s.handIn (packetOf (.eth m a u) l 0 0 bus) false
    else s

/-- The PTP clock runs on port `m` (R389). -/
def ptpOn (s : State) (m : Fin 2) : Bool := (s.hif.ptp.headD 0) % 4 == 1 + 2 * m.val

/-- The ingress timestamp of a message whose timestamp point is at the present tick (R84). -/
def ptpIngress (s : State) (m : Fin 2) : Nat :=
  (s.now + 2 ^ 64 - latTicks (s.rd (R.TBU_PTP_LAT_INGRESS m))) % 2 ^ 64

def ptpEgress (s : State) (m : Fin 2) : Nat := (s.now + latTicks (s.rd (R.TBU_PTP_LAT_EGRESS m))) % 2 ^ 64

/-- EPOCH_SRC shows the epoch of PTP. -/
def ptpEpoch (s : State) : Bool := s.rd R.TBU_STAT_EPOCH_SRC == 2

/-- The servo corrects time by `x` units of 3.125 ps (R80): a load with SRC PTP sets the first epoch, a correction within
SLEW_LIMIT is an adjustment, and one beyond it a step. While an action is armed it loads and steps nothing (R79). -/
def ptpCorrect (s : State) (x : Int) : State :=
  let ticks := roundDiv x 256
  let armed := s.on R.TBU_STAT_ACT_ARMED
  if !s.ptpEpoch then
    if armed then s
    else (s.wr R.TBU_EPOCH_SET_VALUE (((s.tickCount : Int) + ticks) % (2 ^ 64 : Nat)).toNat).epochWrite 1 false false 2
  else if (x.natAbs : Int) ≤ s.rd R.SYN_CTRL_SLEW_LIMIT * 3200000 then s.slewNow.timeAdjust x
  else if armed then s
  else (s.wr R.TBU_STEP_DELTA (ofSigned 64 ticks)).epochWrite 2 false false (s.rd R.TBU_EPOCH_CTRL_SRC)

/-- Whether the port is in the master state when it is to be (`m`): it takes that state only with an epoch of PTP (R85). -/
def ptpTakes (s : State) (m : Bool) : Bool := m && (s.hif.ptpMaster || s.ptpEpoch)

/-- A PTP message arrives: an event message is stamped for Chadihus (R84), the servo shows what it made of the message,
and corrects time. -/
def ptpFrame (s : State) (m : Fin 2) (e : Option (Fin 4)) (st ofs delay gm : Nat) (corr : Option Int) (master : Bool) :
    State :=
  let rx := match e with
    | some k => s.hif.ptpRx.set k (s.ptpIngress m)
    | none => s.hif.ptpRx
  let s := s.modHif fun h => { h with
    ptpRx := rx, ptpState := st, ptpOffset := toSigned 32 ofs, ptpDelay := delay, ptpGm := gm
    ptpMaster := s.ptpTakes master }
  match corr with
  | some x => s.ptpCorrect x
  | none => s

/-- An Ethernet frame arrives (R384). -/
def ethFrame (s : State) (m : Fin 2) (f : EthFrame) : State :=
  match f with
  | .bad => if s.on (R.HIF_ETH_CFG_EN m) && s.ethUp m then s.count (R.HIF_ETH_RXBAD_COUNT m) else s
  | .ask kind l => s.ethIn m fun s => (s.emit (.frame m kind (l.map BitVec.toNat))).count (R.HIF_ETH_TXOK_COUNT m)
  | .pause q => s.ethIn m fun s =>
    if s.on (R.HIF_ETH_CFG_PAUSE_EN m) then
      let t := ceilDiv (q.toNat * (if s.on (R.HIF_ETH_CFG_SPEED m) then 256 else 640)) 10
      s.modHif fun h => { h with pause := h.pause.set m (s.sys.uptime + t) }
    else s
  | .ptp e st ofs d gm c master => s.ethIn m fun s =>
    if s.ptpOn m then s.ptpFrame m e st.val ofs.toNat d.toNat gm.toNat (c.map BitVec.toInt) master
    else s.count (R.HIF_ETH_DISCARD_COUNT m)
  | .other => s.ethIn m fun s => s.count (R.HIF_ETH_DISCARD_COUNT m)

/-- A timestamp as PTP messages carry it: seconds, nanoseconds, and what is added to correctionField (R85). -/
def ptpStamp (t : Nat) : List Nat :=
  let (sec, ns, frac) := ptpTime t
  leBytes 6 sec ++ leBytes 4 ns ++ leBytes 8 frac

/-- The time `t` from a request to its response, in units of 2^−16 ns (R85). -/
def ptpTurn (t : Nat) : List Nat := leBytes 8 (roundDiv ((t * 4 * 65536 : Nat) : Int) 5).toNat

/-- The PTP messages that leave for an event message of type `k` stamped at `t`, after a request stamped at `req` (R85):
in one-step operation a Sync carries its origin and a Pdelay_Resp the time since its request; otherwise a Pdelay_Resp
carries requestReceiptTimestamp and the follow-up the time at which the message left. -/
def ptpMessages (k : Fin 4) (one : Bool) (t req : Nat) : List (String × List Nat) :=
  if k = 0 then
    if one then [("Sync", ptpStamp t)] else [("Sync", []), ("Follow_Up", ptpStamp t)]
  else if k = 3 then
    if one then [("Pdelay_Resp", ptpTurn ((t + 2 ^ 64 - req) % 2 ^ 64))]
    else [("Pdelay_Resp", ptpStamp req), ("Pdelay_Resp_Follow_Up", ptpStamp t)]
  else [(if k = 1 then "Delay_Req" else "Pdelay_Req", [])]

/-- An event message of type `k` leaves (R84, R85): its stamp goes to Chadihus. One-step operation needs the epoch of
PTP, and a Sync the master state. -/
def ptpSend (s : State) (m : Fin 2) (k : Fin 4) (oneStep : Bool) : State :=
  let master := s.ptpTakes true
  if s.on (R.HIF_ETH_CFG_EN m) && s.ethUp m && s.ptpOn m && (k != 0 || master) then
    let t := s.ptpEgress m
    let l := ptpMessages k (oneStep && s.ptpEpoch) t s.hif.ptpRx[2]
    let s := s.modHif fun h => { h with ptpTx := h.ptpTx.set k t, ptpMaster := h.ptpMaster || k == 0 }
    l.foldl (fun (s : State) f => (s.emit (.frame m f.1 f.2)).count (R.HIF_ETH_TXOK_COUNT m)) s
  else s

/-! ### The SPI slave (R390) -/

/-- A transaction that the slave serves. -/
def onSpi (s : State) (f : State → State) : State := if s.reaches .spi then f s else s

def spiFail (s : State) : State := s.modHif fun h => { h with spiErr := true }

def spiPacket (s : State) (l : List Nat) (bus : BusEnd) : State :=
  if packetCrc l then s.handIn (packetOf .spi l 0 0 bus) (packetLength l)
  else if 8 ≤ s.hif.spi.length then s.spiFail.spiOverflow
  else s.spiFail

/-- The words of a reply as it crosses the slave. -/
def replyWords (r : Reply) : List Nat := replyHeader r ++ r.result

def spiReply (s : State) : State :=
  match s.hif.spi with
  | [] => s
  | r :: l => (s.modHif fun h => { h with spi := l }).emit (.spi (bytesOfWords (replyWords r)))

/-- The status word. -/
def spiStatus (s : State) : Nat :=
  ((s.hif.spi.head?.map fun r => (replyWords r).length).getD 0) * 65536 + ofBool s.hif.spiErr * 4
    + ofBool s.hif.spiOvf * 2 + ofBool (!s.hif.spi.isEmpty)

/-! ### The console (R391, R463) -/

def onConsole (s : State) (f : State → State) : State := if s.reaches .console then f s else s

/-- The last line of an answer. -/
def conOk (s : State) : State := s.emit (.text "ok" [])
def conErr (s : State) (status : Nat) : State := s.emit (.text "err" [status])

def conStatus (s : State) : State :=
  (s.emit (.text "status" [s.sys.mode, s.rd R.SYS_BOOT_LAST_REASON, s.rd R.SYS_BOOT_FOOT_REASON, s.rd R.SYS_BOOT_FAILS,
    s.rd R.SYS_BOOT_SLOT, s.rd R.SYS_ID_DEVICE * 65536 + s.rd R.SYS_ID_REV_MAJOR * 256 + s.rd R.SYS_ID_REV_MINOR,
    s.rd R.MGT_TJ_TJ])).conOk

def conLog (s : State) (n : Nat) : State :=
  let l := s.logHeld
  (s.emit (.text "log" (l.drop (l.length - n)).flatten)).conOk

def conPacket (s : State) (l : List Nat) (bus : BusEnd) : State :=
  if packetCrc l then s.handIn (packetOf .console l 0 0 bus) (packetLength l) else s.conErr E_PARAM

def conBoot (s : State) (k : Nat) : State := if s.mayActivate k then s.conOk.activate k else s.conErr E_AUTH

/-- The rates that the console sets (R391). -/
def baudRates : List Nat := [9600, 57600, 230400, 460800, 921600]

def conBaud (s : State) (r : Nat) : State :=
  if baudRates.contains r then s.conOk.modHif fun h => { h with baud := r } else s.conErr E_PARAM

/-! ### The test port (R393) -/

/-- An instruction is loaded and `tdi` shifted through the register `reg` that it selects, TDO showing what leaves. -/
def jtagShift (s : State) (i : Nat) (reg tdi : List Bool) : State :=
  (s.modHif fun h => { h with jtag := i }).emit (.tdo ((reg ++ tdi).take tdi.length))

/-- The same through the boundary-scan register, which captures the balls `balls` and then holds what was shifted in. -/
def jtagScan (s : State) (i : Nat) (balls tdi : List Bool) : State :=
  (s.jtagShift i balls tdi).modHif fun h => { h with boundary := (balls ++ tdi).drop tdi.length }

/-- IDCODE, least significant bit first. -/
def idcode : List Bool := (List.range 32).map (0x1008456B : Nat).testBit

end Sys2Proof.Machine.State

namespace Sys2Proof.Machine
open Sys2Proof State

def execSqTailWrite (v : Word) (s : State) : Out := .next (s.bar0Write 0x34001C true v.toNat)
/-- `d`, `l`: the descriptor and the LENGTH bytes of its packet as read; `dma`: a read fails; `bus`: what the bus answers
to an I2C_XFER. -/
def execDescriptorFetch (d : Vector Word 8) (l : List Byte) (dma : Bool) (bus : BusEnd) (s : State) : Out :=
  .next (s.descFetch d (l.map BitVec.toNat) dma bus)
def execCqHeadWrite (v : Word) (s : State) : Out := .next (s.bar0Write 0x340034 true v.toNat)
def execCqCoalesceTimer (s : State) : Out := .next s.cqTimer
def execPcieLinkDown (s : State) : Out := .next s.linkDown
def execFlr (s : State) : Out := .next s.flr
def execD3hotEntry (s : State) : Out :=
  .next (if s.on R.HIF_STAT_LINK_UP then s.put R.HIF_STAT_D3HOT true else s)
def execD0Return (s : State) : Out := .next s.d0Return
def execPcieLinkUp (speed : BitVec 3) (width : BitVec 2) (s : State) : Out := .next (s.linkUp speed.toNat width.toNat)
def execCmdDatagram (m : Fin 2) (addr : BitVec 128) (port : BitVec 16) (l : List Byte) (frag : Bool) (bus : BusEnd)
    (s : State) : Out := .next (s.cmdDatagram m addr.toNat port.toNat (l.map BitVec.toNat) frag bus)
def execEthFrameRx (m : Fin 2) (f : EthFrame) (s : State) : Out := .next (s.ethFrame m f)
def execEthLinkChange (m : Fin 2) (up : Bool) (s : State) : Out := .next (s.ethLink m up)
/-- `k`: messageType; `oneStep`: Chadihus sends it in one-step operation where it may. -/
def execPtpEventEgress (m : Fin 2) (k : Fin 4) (oneStep : Bool) (s : State) : Out := .next (s.ptpSend m k oneStep)
def execSpiWriteWord (off : BitVec 24) (v : Word) (s : State) : Out :=
  .next (s.onSpi fun s => s.bar0Write off.toNat true v.toNat)
def execSpiReadWord (off : BitVec 24) (s : State) : Out :=
  .next (s.onSpi fun s =>
    let (v, s) := s.bar0Read off.toNat true
    s.emit (.spi (Arith.leBytes 4 v)))
def execSpiWritePacket (l : List Byte) (bus : BusEnd) (s : State) : Out :=
  .next (s.onSpi fun s => s.spiPacket (l.map BitVec.toNat) bus)
def execSpiReadReply (s : State) : Out := .next (s.onSpi State.spiReply)
def execSpiReadStatus (s : State) : Out :=
  .next (s.onSpi fun s =>
    (s.modHif fun h => { h with spiErr := false, spiOvf := false }).emit (.spi (Arith.leBytes 4 s.spiStatus)))
def execSpiAbort (s : State) : Out := .next (s.onSpi State.spiFail)
def execConsoleHelp (s : State) : Out := .next (s.onConsole fun s => (s.emit (.text "help" [])).conOk)
def execConsoleStatus (s : State) : Out := .next (s.onConsole State.conStatus)
def execConsoleLog (n : BitVec 16) (s : State) : Out := .next (s.onConsole fun s => s.conLog n.toNat)
def execConsolePkt (l : List Byte) (bus : BusEnd) (s : State) : Out :=
  .next (s.onConsole fun s => s.conPacket (l.map BitVec.toNat) bus)
def execConsoleBoot (k : Fin 2) (s : State) : Out := .next (s.onConsole fun s => s.conBoot k.val)
def execConsoleReset (s : State) : Out := .next (s.onConsole fun s => s.conOk.resetCmd false)
def execConsoleFoot (s : State) : Out := .next (s.onConsole fun s => s.conOk.resetCmd true)
def execConsoleBaud (r : BitVec 20) (s : State) : Out := .next (s.onConsole fun s => s.conBaud r.toNat)
def execJtagBypass (tdi : List Bool) (s : State) : Out := .next (s.jtagShift 0 [false] tdi)
def execJtagIdcode (tdi : List Bool) (s : State) : Out := .next (s.jtagShift 1 State.idcode tdi)
def execJtagSamplePreload (balls tdi : List Bool) (s : State) : Out := .next (s.jtagScan 2 balls tdi)
def execJtagExtest (balls tdi : List Bool) (s : State) : Out := .next (s.jtagScan 3 balls tdi)
def execJtagClamp (tdi : List Bool) (s : State) : Out := .next (s.jtagShift 4 [false] tdi)
def execJtagHighz (tdi : List Bool) (s : State) : Out := .next (s.jtagShift 5 [false] tdi)
/-- The test logic is reset: IDCODE is selected again, and the outputs are those of the device. -/
def execTrstNAssert (s : State) : Out := .next (s.modHif fun h => { h with jtag := 1 })

end Sys2Proof.Machine
end

