-- ==== Sys2Proof/Machine/Dispatch.lean ====
section
/-! DEFINITION. The dispatch of every command to its meaning. -/

namespace Sys2Proof.Machine

def exec (i : Instr) (s : State) : Host.Outcome State Fault Refusal :=
  match i with
  | .registerWrite off sized v => Sys2Proof.Machine.execRegisterWrite off sized v s
  | .lowWordRead off sized => Sys2Proof.Machine.execLowWordRead off sized s
  | .lowWordWrite off v => Sys2Proof.Machine.execLowWordWrite off v s
  | .highWordWrite off v => Sys2Proof.Machine.execHighWordWrite off v s
  | .bar2Read off n ecc => Sys2Proof.Machine.execBar2Read off n ecc s
  | .bar2Write off l => Sys2Proof.Machine.execBar2Write off l s
  | .porNAssert => Sys2Proof.Machine.execPorNAssert s
  | .vdda18Brownout => Sys2Proof.Machine.execVdda18Brownout s
  | .rstNAssert => Sys2Proof.Machine.execRstNAssert s
  | .resetRelease tj rail bad => Sys2Proof.Machine.execResetRelease tj rail bad s
  | .bootLockTimeout => Sys2Proof.Machine.execBootLockTimeout s
  | .bootComplete => Sys2Proof.Machine.execBootComplete s
  | .bootWatchdog => Sys2Proof.Machine.execBootWatchdog s
  | .runWatchdog => Sys2Proof.Machine.execRunWatchdog s
  | .failsClear => Sys2Proof.Machine.execFailsClear s
  | .sysRstCtrlWrite v => Sys2Proof.Machine.execSysRstCtrlWrite v s
  | .thermalTrip => Sys2Proof.Machine.execThermalTrip s
  | .sensorSample die sup => Sys2Proof.Machine.execSensorSample die sup s
  | .pmbusPoll r v j t status => Sys2Proof.Machine.execPmbusPoll r v j t status s
  | .pmAlert => Sys2Proof.Machine.execPmAlert s
  | .synEnable p => Sys2Proof.Machine.execSynEnable p s
  | .synDisable p => Sys2Proof.Machine.execSynDisable p s
  | .refModeWrite m => Sys2Proof.Machine.execRefModeWrite m s
  | .lockDeclared p err => Sys2Proof.Machine.execLockDeclared p err s
  | .lockLoss p err => Sys2Proof.Machine.execLockLoss p err s
  | .bandFail p => Sys2Proof.Machine.execBandFail p s
  | .bandSearch p => Sys2Proof.Machine.execBandSearch p s
  | .bandSearchDone p found => Sys2Proof.Machine.execBandSearchDone p found s
  | .ocxoRdyRise => Sys2Proof.Machine.execOcxoRdyRise s
  | .ocxoRdyFall => Sys2Proof.Machine.execOcxoRdyFall s
  | .csyCommit k => Sys2Proof.Machine.execCsyCommit k s
  | .phaseEpochWrite e => Sys2Proof.Machine.execPhaseEpochWrite e s
  | .refLoss rem => Sys2Proof.Machine.execRefLoss rem s
  | .refReturn jump => Sys2Proof.Machine.execRefReturn jump s
  | .slewDone => Sys2Proof.Machine.execSlewDone s
  | .epochLoad onPps src => Sys2Proof.Machine.execEpochLoad onPps src s
  | .epochStep onPps src => Sys2Proof.Machine.execEpochStep onPps src s
  | .actionDisarm onPps src => Sys2Proof.Machine.execActionDisarm onPps src s
  | .holdEnd => Sys2Proof.Machine.execHoldEnd s
  | .timeAdjust x => Sys2Proof.Machine.execTimeAdjust x s
  | .ppsInQualified q frac => Sys2Proof.Machine.execPpsInQualified q frac s
  | .ppsRunt => Sys2Proof.Machine.execPpsRunt s
  | .ppsMiss => Sys2Proof.Machine.execPpsMiss s
  | .ppsOutPulse => Sys2Proof.Machine.execPpsOutPulse s
  | .tdcEdge u e => Sys2Proof.Machine.execTdcEdge u e s
  | .tdcTimeout u => Sys2Proof.Machine.execTdcTimeout u s
  | .tdcOrderWindowEnd u => Sys2Proof.Machine.execTdcOrderWindowEnd u s
  | .tdcFire u => Sys2Proof.Machine.execTdcFire u s
  | .tdcEnable u => Sys2Proof.Machine.execTdcEnable u s
  | .tdcDisable u => Sys2Proof.Machine.execTdcDisable u s
  | .tdcFifoPop u => Sys2Proof.Machine.execTdcFifoPop u s
  | .tdcStatClear u => Sys2Proof.Machine.execTdcStatClear u s
  | .launchFetch n => Sys2Proof.Machine.execLaunchFetch n s
  | .pointOfNoReturn n => Sys2Proof.Machine.execPointOfNoReturn n s
  | .slotHop n phase => Sys2Proof.Machine.execSlotHop n phase s
  | .launch n => Sys2Proof.Machine.execLaunch n s
  | .chirpStart n => Sys2Proof.Machine.execChirpStart n s
  | .ramanTrigger n => Sys2Proof.Machine.execRamanTrigger n s
  | .gatePulseEnd n => Sys2Proof.Machine.execGatePulseEnd n s
  | .gateOpen n => Sys2Proof.Machine.execGateOpen n s
  | .gateShort n => Sys2Proof.Machine.execGateShort n s
  | .biasWrite n code slew => Sys2Proof.Machine.execBiasWrite n code slew s
  | .biasMoveStart n => Sys2Proof.Machine.execBiasMoveStart n s
  | .biasSettled n => Sys2Proof.Machine.execBiasSettled n s
  | .rowSlotStart => Sys2Proof.Machine.execRowSlotStart s
  | .diagSample e mA => Sys2Proof.Machine.execDiagSample e mA s
  | .rowShort mA => Sys2Proof.Machine.execRowShort mA s
  | .columnShort c => Sys2Proof.Machine.execColumnShort c s
  | .scanEnd => Sys2Proof.Machine.execScanEnd s
  | .scanEnable en => Sys2Proof.Machine.execScanEnable en s
  | .routeSelWrite n j => Sys2Proof.Machine.execRouteSelWrite n j s
  | .routeDrainEnd n => Sys2Proof.Machine.execRouteDrainEnd n s
  | .routeSettleEnd n => Sys2Proof.Machine.execRouteSettleEnd n s
  | .elemForceWrite e force => Sys2Proof.Machine.execElemForceWrite e force s
  | .ilkInLow => Sys2Proof.Machine.execIlkInLow s
  | .ilkInHigh => Sys2Proof.Machine.execIlkInHigh s
  | .loopQualified => Sys2Proof.Machine.execLoopQualified s
  | .swStopWrite b => Sys2Proof.Machine.execSwStopWrite b s
  | .ilkCtrlClear => Sys2Proof.Machine.execIlkCtrlClear s
  | .neReport n stamp xs => Sys2Proof.Machine.execNeReport n stamp xs s
  | .drainEnd n => Sys2Proof.Machine.execDrainEnd n s
  | .watchReturn n => Sys2Proof.Machine.execWatchReturn n s
  | .wake n => Sys2Proof.Machine.execWake n s
  | .sampleClip n k code => Sys2Proof.Machine.execSampleClip n k code s
  | .hardOverload n k => Sys2Proof.Machine.execHardOverload n k s
  | .rateReduce n => Sys2Proof.Machine.execRateReduce n s
  | .cdgReady n => Sys2Proof.Machine.execCdgReady n s
  | .quietWindowEnd n xs ram => Sys2Proof.Machine.execQuietWindowEnd n xs ram s
  | .cdgCalStepStart n => Sys2Proof.Machine.execCdgCalStepStart n s
  | .cdgQuietCheckEnd n xs => Sys2Proof.Machine.execCdgQuietCheckEnd n xs s
  | .cdgCalStepEnd n kind sel => Sys2Proof.Machine.execCdgCalStepEnd n kind sel s
  | .courseVisitStart n xs ecc => Sys2Proof.Machine.execCourseVisitStart n xs ecc s
  | .courseCommit n => Sys2Proof.Machine.execCourseCommit n s
  | .monitorCause n => Sys2Proof.Machine.execMonitorCause n s
  | .releaseStart n ecc => Sys2Proof.Machine.execReleaseStart n ecc s
  | .releaseEnd n => Sys2Proof.Machine.execReleaseEnd n s
  | .zonNgWrite n ng => Sys2Proof.Machine.execZonNgWrite n ng s
  | .ngRecomputeDone => Sys2Proof.Machine.execNgRecomputeDone s
  | .zonCtrlCommit => Sys2Proof.Machine.execZonCtrlCommit s
  | .zoneCommitDone => Sys2Proof.Machine.execZoneCommitDone s
  | .zonCtrlDiscard => Sys2Proof.Machine.execZonCtrlDiscard s
  | .zoneDiscardDone => Sys2Proof.Machine.execZoneDiscardDone s
  | .zonCourse n => Sys2Proof.Machine.execZonCourse n s
  | .fdcCourse n ecc => Sys2Proof.Machine.execFdcCourse n ecc s
  | .fdcGap n => Sys2Proof.Machine.execFdcGap n s
  | .fdcSync n => Sys2Proof.Machine.execFdcSync n s
  | .eveFrame n bad ecc => Sys2Proof.Machine.execEveFrame n bad ecc s
  | .thresholdCommit j => Sys2Proof.Machine.execThresholdCommit j s
  | .wakeCancel mask => Sys2Proof.Machine.execWakeCancel mask s
  | .traceStart n => Sys2Proof.Machine.execTraceStart n s
  | .traceEnd n xs => Sys2Proof.Machine.execTraceEnd n xs s
  | .profileRecord n => Sys2Proof.Machine.execProfileRecord n s
  | .ramanCalStepStart n => Sys2Proof.Machine.execRamanCalStepStart n s
  | .ramanCalStepEnd n kind meas => Sys2Proof.Machine.execRamanCalStepEnd n kind meas s
  | .rsfEnable => Sys2Proof.Machine.execRsfEnable s
  | .rsfDisable => Sys2Proof.Machine.execRsfDisable s
  | .rsfSequenceStart => Sys2Proof.Machine.execRsfSequenceStart s
  | .rsfSlotStart => Sys2Proof.Machine.execRsfSlotStart s
  | .rsfModulationStart => Sys2Proof.Machine.execRsfModulationStart s
  | .rsfModulationEnd code rail refLow compliance => Sys2Proof.Machine.execRsfModulationEnd code rail refLow compliance s
  | .rsfResultPost => Sys2Proof.Machine.execRsfResultPost s
  | .senClamp b => Sys2Proof.Machine.execSenClamp b s
  | .rsfSelfcalWrite => Sys2Proof.Machine.execRsfSelfcalWrite s
  | .selfcalSlotEnd sel => Sys2Proof.Machine.execSelfcalSlotEnd sel s
  | .rsfRawRead c => Sys2Proof.Machine.execRsfRawRead c s
  | .rsfGoodRead c => Sys2Proof.Machine.execRsfGoodRead c s
  | .groupWakeDone g => Sys2Proof.Machine.execGroupWakeDone g s
  | .kernelLoadDone g => Sys2Proof.Machine.execKernelLoadDone g s
  | .suspendTimeout g => Sys2Proof.Machine.execSuspendTimeout g s
  | .vdcItemDeliver => Sys2Proof.Machine.execVdcItemDeliver s
  | .xferDone c => Sys2Proof.Machine.execXferDone c s
  | .outComplete c => Sys2Proof.Machine.execOutComplete c s
  | .illegalInstruction c => Sys2Proof.Machine.execIllegalInstruction c s
  | .ctrlNop c => Sys2Proof.Machine.execCtrlNop c s
  | .br c => Sys2Proof.Machine.execBr c s
  | .call c => Sys2Proof.Machine.execCall c s
  | .ret c => Sys2Proof.Machine.execRet c s
  | .loop c => Sys2Proof.Machine.execLoop c s
  | .halt c => Sys2Proof.Machine.execHalt c s
  | .sync c => Sys2Proof.Machine.execSync c s
  | .mpy c => Sys2Proof.Machine.execMpy c s
  | .mac c => Sys2Proof.Machine.execMac c s
  | .msu c => Sys2Proof.Machine.execMsu c s
  | .acc c => Sys2Proof.Machine.execAcc c s
  | .clra c => Sys2Proof.Machine.execClra c s
  | .asra c => Sys2Proof.Machine.execAsra c s
  | .accsum c => Sys2Proof.Machine.execAccsum c s
  | .movaS c => Sys2Proof.Machine.execMovaS c s
  | .movaW c => Sys2Proof.Machine.execMovaW c s
  | .vstaS c => Sys2Proof.Machine.execVstaS c s
  | .vadd c => Sys2Proof.Machine.execVadd c s
  | .vsub c => Sys2Proof.Machine.execVsub c s
  | .vadds c => Sys2Proof.Machine.execVadds c s
  | .vsubs c => Sys2Proof.Machine.execVsubs c s
  | .vabs c => Sys2Proof.Machine.execVabs c s
  | .vand c => Sys2Proof.Machine.execVand c s
  | .vor c => Sys2Proof.Machine.execVor c s
  | .vxor c => Sys2Proof.Machine.execVxor c s
  | .vasr c => Sys2Proof.Machine.execVasr c s
  | .vlsr c => Sys2Proof.Machine.execVlsr c s
  | .vshl c => Sys2Proof.Machine.execVshl c s
  | .vmin c => Sys2Proof.Machine.execVmin c s
  | .vmax c => Sys2Proof.Machine.execVmax c s
  | .vbc c => Sys2Proof.Machine.execVbc c s
  | .vext c => Sys2Proof.Machine.execVext c s
  | .vorr c => Sys2Proof.Machine.execVorr c s
  | .srchInit c => Sys2Proof.Machine.execSrchInit c s
  | .smax c => Sys2Proof.Machine.execSmax c s
  | .smin c => Sys2Proof.Machine.execSmin c s
  | .smaxu c => Sys2Proof.Machine.execSmaxu c s
  | .sminu c => Sys2Proof.Machine.execSminu c s
  | .sfold c => Sys2Proof.Machine.execSfold c s
  | .add c => Sys2Proof.Machine.execAdd c s
  | .sub c => Sys2Proof.Machine.execSub c s
  | .and c => Sys2Proof.Machine.execAnd c s
  | .or c => Sys2Proof.Machine.execOr c s
  | .xor c => Sys2Proof.Machine.execXor c s
  | .shl c => Sys2Proof.Machine.execShl c s
  | .asr c => Sys2Proof.Machine.execAsr c s
  | .lsr c => Sys2Proof.Machine.execLsr c s
  | .mul c => Sys2Proof.Machine.execMul c s
  | .addi c => Sys2Proof.Machine.execAddi c s
  | .subi c => Sys2Proof.Machine.execSubi c s
  | .ldi c => Sys2Proof.Machine.execLdi c s
  | .mfs c => Sys2Proof.Machine.execMfs c s
  | .mts c => Sys2Proof.Machine.execMts c s
  | .wait c => Sys2Proof.Machine.execWait c s
  | .out c => Sys2Proof.Machine.execOut c s
  | .trig c => Sys2Proof.Machine.execTrig c s
  | .xferTo c => Sys2Proof.Machine.execXferTo c s
  | .xferFrom c => Sys2Proof.Machine.execXferFrom c s
  | .acqArmWrite k => Sys2Proof.Machine.execAcqArmWrite k s
  | .acqDisarmWrite k => Sys2Proof.Machine.execAcqDisarmWrite k s
  | .acqSwtrigWrite mask => Sys2Proof.Machine.execAcqSwtrigWrite mask s
  | .seqTimerExpire t => Sys2Proof.Machine.execSeqTimerExpire t s
  | .seqEnable start => Sys2Proof.Machine.execSeqEnable start s
  | .seqDisable => Sys2Proof.Machine.execSeqDisable s
  | .preFilled k => Sys2Proof.Machine.execPreFilled k s
  | .acqUnitStore k level ecc => Sys2Proof.Machine.execAcqUnitStore k level ecc s
  | .segmentComplete k xs ecc => Sys2Proof.Machine.execSegmentComplete k xs ecc s
  | .rearmDone k => Sys2Proof.Machine.execRearmDone k s
  | .segmentRelease k => Sys2Proof.Machine.execSegmentRelease k s
  | .slotFree k slot => Sys2Proof.Machine.execSlotFree k slot s
  | .cmpRow => Sys2Proof.Machine.execCmpRow s
  | .cmpGap => Sys2Proof.Machine.execCmpGap s
  | .cmpFlushWrite mask => Sys2Proof.Machine.execCmpFlushWrite mask s
  | .tileRelease n fault ecc => Sys2Proof.Machine.execTileRelease n fault ecc s
  | .tileTimeout n => Sys2Proof.Machine.execTileTimeout n s
  | .streamRecordSend st => Sys2Proof.Machine.execStreamRecordSend st s
  | .strRdWrite st rd => Sys2Proof.Machine.execStrRdWrite st rd s
  | .sqTailWrite v => Sys2Proof.Machine.execSqTailWrite v s
  | .descriptorFetch d l dma bus => Sys2Proof.Machine.execDescriptorFetch d l dma bus s
  | .cqHeadWrite v => Sys2Proof.Machine.execCqHeadWrite v s
  | .cqCoalesceTimer => Sys2Proof.Machine.execCqCoalesceTimer s
  | .pcieLinkDown => Sys2Proof.Machine.execPcieLinkDown s
  | .flr => Sys2Proof.Machine.execFlr s
  | .d3hotEntry => Sys2Proof.Machine.execD3hotEntry s
  | .d0Return => Sys2Proof.Machine.execD0Return s
  | .cmdDatagram m addr port l frag bus => Sys2Proof.Machine.execCmdDatagram m addr port l frag bus s
  | .ethFrameRx m f => Sys2Proof.Machine.execEthFrameRx m f s
  | .ethLinkChange m up => Sys2Proof.Machine.execEthLinkChange m up s
  | .spiWriteWord off v => Sys2Proof.Machine.execSpiWriteWord off v s
  | .spiReadWord off => Sys2Proof.Machine.execSpiReadWord off s
  | .spiWritePacket l bus => Sys2Proof.Machine.execSpiWritePacket l bus s
  | .spiReadReply => Sys2Proof.Machine.execSpiReadReply s
  | .spiReadStatus => Sys2Proof.Machine.execSpiReadStatus s
  | .spiAbort => Sys2Proof.Machine.execSpiAbort s
  | .consoleHelp => Sys2Proof.Machine.execConsoleHelp s
  | .consoleStatus => Sys2Proof.Machine.execConsoleStatus s
  | .consoleLog n => Sys2Proof.Machine.execConsoleLog n s
  | .consolePkt l bus => Sys2Proof.Machine.execConsolePkt l bus s
  | .consoleBoot k => Sys2Proof.Machine.execConsoleBoot k s
  | .consoleReset => Sys2Proof.Machine.execConsoleReset s
  | .consoleFoot => Sys2Proof.Machine.execConsoleFoot s
  | .consoleBaud r => Sys2Proof.Machine.execConsoleBaud r s
  | .jtagBypass tdi => Sys2Proof.Machine.execJtagBypass tdi s
  | .jtagIdcode tdi => Sys2Proof.Machine.execJtagIdcode tdi s
  | .jtagSamplePreload balls tdi => Sys2Proof.Machine.execJtagSamplePreload balls tdi s
  | .jtagExtest balls tdi => Sys2Proof.Machine.execJtagExtest balls tdi s
  | .jtagClamp tdi => Sys2Proof.Machine.execJtagClamp tdi s
  | .jtagHighz tdi => Sys2Proof.Machine.execJtagHighz tdi s
  | .trstNAssert => Sys2Proof.Machine.execTrstNAssert s
  | .scrubLine ecc => Sys2Proof.Machine.execScrubLine ecc s
  | .dramTrainingStep r => Sys2Proof.Machine.execDramTrainingStep r s
  | .selfRefreshEntry => Sys2Proof.Machine.execSelfRefreshEntry s
  | .selfRefreshExit => Sys2Proof.Machine.execSelfRefreshExit s
  | .retrainDeferEnd => Sys2Proof.Machine.execRetrainDeferEnd s
  | .memCtrlRetrain => Sys2Proof.Machine.execMemCtrlRetrain s
  | .refreshDue c => Sys2Proof.Machine.execRefreshDue c s
  | .panicChange lv lb left => Sys2Proof.Machine.execPanicChange lv lb left s
  | .mr4Poll m => Sys2Proof.Machine.execMr4Poll m s
  | .rhWindowEnd l => Sys2Proof.Machine.execRhWindowEnd l s
  | .scoTile => Sys2Proof.Machine.execScoTile s
  | .scoGapRecord => Sys2Proof.Machine.execScoGapRecord s
  | .scoCommitWrite => Sys2Proof.Machine.execScoCommitWrite s
  | .scoTcommitWrite => Sys2Proof.Machine.execScoTcommitWrite s
  | .vblankStart => Sys2Proof.Machine.execVblankStart s
  | .frameEnd => Sys2Proof.Machine.execFrameEnd s
  | .lineUnderrun line x => Sys2Proof.Machine.execLineUnderrun line x s
  | .pnlTeEdge rising => Sys2Proof.Machine.execPnlTeEdge rising s
  | .teDelayEnd => Sys2Proof.Machine.execTeDelayEnd s
  | .teTimeout => Sys2Proof.Machine.execTeTimeout s
  | .hodGrant => Sys2Proof.Machine.execHodGrant s
  | .hodTimeout u => Sys2Proof.Machine.execHodTimeout u s
  | .fenceRelease => Sys2Proof.Machine.execFenceRelease s
  | .modeChangeDone failed => Sys2Proof.Machine.execModeChangeDone failed s
  | .portPowerOff n => Sys2Proof.Machine.execPortPowerOff n s
  | .csyIdleStop k => Sys2Proof.Machine.execCsyIdleStop k s
  | .standbyWakeTimer => Sys2Proof.Machine.execStandbyWakeTimer s
  | .standbyWakeCs => Sys2Proof.Machine.execStandbyWakeCs s
  | .cal24hTimer t => Sys2Proof.Machine.execCal24hTimer t s
  | .calRetryTimer t => Sys2Proof.Machine.execCalRetryTimer t s
  | .plumbHodRetry => Sys2Proof.Machine.execPlumbHodRetry s
  | .calBlocked => Sys2Proof.Machine.execCalBlocked s
  | .calBlockedRetry t => Sys2Proof.Machine.execCalBlockedRetry t s
  | .updateVerifyDone programmed => Sys2Proof.Machine.execUpdateVerifyDone programmed s
  | .snapshotDone => Sys2Proof.Machine.execSnapshotDone s
  | .aryJoin p => Sys2Proof.Machine.execAryJoin p s
  | .aryAccept p => Sys2Proof.Machine.execAryAccept p s
  | .aryRefuse p => Sys2Proof.Machine.execAryRefuse p s
  | .aryBeat p => Sys2Proof.Machine.execAryBeat p s
  | .aryBeatAck p => Sys2Proof.Machine.execAryBeatAck p s
  | .aryArm p => Sys2Proof.Machine.execAryArm p s
  | .aryArmAck p => Sys2Proof.Machine.execAryArmAck p s
  | .aryDisarm p => Sys2Proof.Machine.execAryDisarm p s
  | .aryCancel p => Sys2Proof.Machine.execAryCancel p s
  | .aryFire p => Sys2Proof.Machine.execAryFire p s
  | .aryLeave p => Sys2Proof.Machine.execAryLeave p s
  | .aryDissolve p => Sys2Proof.Machine.execAryDissolve p s
  | .aryBeatTimer => Sys2Proof.Machine.execAryBeatTimer s
  | .aryOrphanRemove j => Sys2Proof.Machine.execAryOrphanRemove j s
  | .aryBeatTimeout => Sys2Proof.Machine.execAryBeatTimeout s
  | .aryOrphanLeave => Sys2Proof.Machine.execAryOrphanLeave s
  | .aryJoinRetry => Sys2Proof.Machine.execAryJoinRetry s
  | .aryJoinTimeout => Sys2Proof.Machine.execAryJoinTimeout s
  | .aryArmResend => Sys2Proof.Machine.execAryArmResend s
  | .aryDisarmTimeout => Sys2Proof.Machine.execAryDisarmTimeout s
  | .aryTimeCheck => Sys2Proof.Machine.execAryTimeCheck s
  | .nop p => Sys2Proof.Machine.execNop p s
  | .identify p => Sys2Proof.Machine.execIdentify p s
  | .status p => Sys2Proof.Machine.execStatus p s
  | .regRead p => Sys2Proof.Machine.execRegRead p s
  | .regWrite p => Sys2Proof.Machine.execRegWrite p s
  | .memRead p => Sys2Proof.Machine.execMemRead p s
  | .memWrite p => Sys2Proof.Machine.execMemWrite p s
  | .reset p => Sys2Proof.Machine.execReset p s
  | .patternCheck p => Sys2Proof.Machine.execPatternCheck p s
  | .routeSelect p => Sys2Proof.Machine.execRouteSelect p s
  | .slotCommit p => Sys2Proof.Machine.execSlotCommit p s
  | .zoneCommit p => Sys2Proof.Machine.execZoneCommit p s
  | .zoneDiscard p => Sys2Proof.Machine.execZoneDiscard p s
  | .groupIndex p => Sys2Proof.Machine.execGroupIndex p s
  | .filterProfile p => Sys2Proof.Machine.execFilterProfile p s
  | .detectorProfile p => Sys2Proof.Machine.execDetectorProfile p s
  | .thresholdSet p => Sys2Proof.Machine.execThresholdSet p s
  | .biasSet p => Sys2Proof.Machine.execBiasSet p s
  | .timeSet p => Sys2Proof.Machine.execTimeSet p s
  | .netConfig p => Sys2Proof.Machine.execNetConfig p s
  | .ptpConfig p => Sys2Proof.Machine.execPtpConfig p s
  | .ptpStatus p => Sys2Proof.Machine.execPtpStatus p s
  | .kernelLoad p => Sys2Proof.Machine.execKernelLoad p s
  | .portStart p => Sys2Proof.Machine.execPortStart p s
  | .portStop p => Sys2Proof.Machine.execPortStop p s
  | .dtsStart p => Sys2Proof.Machine.execDtsStart p s
  | .acqArm p => Sys2Proof.Machine.execAcqArm p s
  | .acqStop p => Sys2Proof.Machine.execAcqStop p s
  | .acqTrigger p => Sys2Proof.Machine.execAcqTrigger p s
  | .ilkStop p => Sys2Proof.Machine.execIlkStop p s
  | .ilkClear p => Sys2Proof.Machine.execIlkClear p s
  | .groupWake p => Sys2Proof.Machine.execGroupWake p s
  | .groupSleep p => Sys2Proof.Machine.execGroupSleep p s
  | .kernelRun p => Sys2Proof.Machine.execKernelRun p s
  | .calRun p => Sys2Proof.Machine.execCalRun p s
  | .calStatus p => Sys2Proof.Machine.execCalStatus p s
  | .calSchedule p => Sys2Proof.Machine.execCalSchedule p s
  | .suspend p => Sys2Proof.Machine.execSuspend p s
  | .resume p => Sys2Proof.Machine.execResume p s
  | .cancel p => Sys2Proof.Machine.execCancel p s
  | .query p => Sys2Proof.Machine.execQuery p s
  | .jobList p => Sys2Proof.Machine.execJobList p s
  | .streamOpen p => Sys2Proof.Machine.execStreamOpen p s
  | .streamClose p => Sys2Proof.Machine.execStreamClose p s
  | .tileStart p => Sys2Proof.Machine.execTileStart p s
  | .tileStop p => Sys2Proof.Machine.execTileStop p s
  | .tileFlush p => Sys2Proof.Machine.execTileFlush p s
  | .scoStart p => Sys2Proof.Machine.execScoStart p s
  | .scoStop p => Sys2Proof.Machine.execScoStop p s
  | .modeSet p => Sys2Proof.Machine.execModeSet p s
  | .sensorRead p => Sys2Proof.Machine.execSensorRead p s
  | .logRead p => Sys2Proof.Machine.execLogRead p s
  | .logClear p => Sys2Proof.Machine.execLogClear p s
  | .updateBegin p => Sys2Proof.Machine.execUpdateBegin p s
  | .updateData p => Sys2Proof.Machine.execUpdateData p s
  | .updateCommit p => Sys2Proof.Machine.execUpdateCommit p s
  | .updateActivate p => Sys2Proof.Machine.execUpdateActivate p s
  | .i2cXfer p => Sys2Proof.Machine.execI2cXfer p s
  | .hodQuery p => Sys2Proof.Machine.execHodQuery p s
  | .budgetSet p => Sys2Proof.Machine.execBudgetSet p s
  | .arrayJoin p => Sys2Proof.Machine.execArrayJoin p s
  | .arrayLeave p => Sys2Proof.Machine.execArrayLeave p s
  | .arrayStatus p => Sys2Proof.Machine.execArrayStatus p s
  | .arrayArm p => Sys2Proof.Machine.execArrayArm p s
  | .arrayDisarm p => Sys2Proof.Machine.execArrayDisarm p s
  | .arrayFire p => Sys2Proof.Machine.execArrayFire p s
  | .echo p => Sys2Proof.Machine.execEcho p s
  | .snapshot p => Sys2Proof.Machine.execSnapshot p s
  | .dramRetrain p => Sys2Proof.Machine.execDramRetrain p s
  | .pcieLinkUp speed width => Sys2Proof.Machine.execPcieLinkUp speed width s
  | .strCoalesceTimer st => Sys2Proof.Machine.execStrCoalesceTimer st s
  | .hardOverloadEnd n k => Sys2Proof.Machine.execHardOverloadEnd n k s
  | .prbsError n k => Sys2Proof.Machine.execPrbsError n k s
  | .ptpEventEgress m k oneStep => Sys2Proof.Machine.execPtpEventEgress m k oneStep s
  | .bootThermalWaitEnd => Sys2Proof.Machine.execBootThermalWaitEnd s
  | .senClampRelease b => Sys2Proof.Machine.execSenClampRelease b s

end Sys2Proof.Machine
end

