-- ==== Sys2Proof/Machine/Idle.lean ====
section
/-! DEFINITION. What happens at one tick of the part in which no command arrives (log entry 1). -/

namespace Sys2Proof.Machine.State

/-- The tick at which the last course of port `n` is over: its lanes may be quiet (R132). -/
def courseOver (s : State) (n : Fin 4) : State :=
  match s.ports[n].lastRaw with
  | some t => if t + s.rtt n (s.route n) = s.tbu.raw then s.showQuiet n else s
  | none => s

/-- One tick of PLL_S: the stamp counter counts (R15), the trigger sequencer and its timers run (R305, R306), a port that
waits for a lock gives up at its deadline (R429), the input of a port may become quiet (R132), TDC edges that wait for a
PPS_IN edge are judged (R88), and REFOUT10 runs (R83). -/
def idle (s : State) : State :=
  let s := s.countTick.seqTick
  let s := (List.finRange 4).foldl (fun (s : State) (n : Fin 4) => (s.lockDeadline n).courseOver n) s
  ((List.finRange 8).foldl (fun (s : State) (u : Fin 8) => s.tdcSettle u) s).refoutNow

end Sys2Proof.Machine.State
end

