-- ==== Sys2Proof/Machine/Step.lean ====
section
/-! DEFINITION. One step of the part: the oldest waiting command, or a tick. -/

namespace Sys2Proof.Machine

/-- The state with the command that a table word spells at the front of the queue. -/
def State.withFetchWord (s : State) (nbits w : Nat) : State :=
  match Sys2Proof.decodeTableWord nbits w with
  | some c => { s with pending := c :: s.pending }
  | none => s

/-- Runs the command at the front of the queue with the queue's rest; an empty queue lets one tick pass. -/
def step (s : State) : Host.Outcome State Fault Refusal :=
  match s.pending with
  | [] => .next s.idle
  | c :: r => exec c { s with pending := r }

end Sys2Proof.Machine
end

