-- ==== Sys2Proof/WellFormed.lean ====
section
/-! DEFINITION. Which commands are well formed: their operands lie within the fields that the rules give them. -/

namespace Sys2Proof

/-- A source address fits its family and a UDP port its 16 bits. -/
def requesterOk (q : Requester) : Bool :=
  match q with
  | .eth _ a u => decide (a < 2 ^ 128) && decide (u < 2 ^ 16)
  | .pcie | .spi | .console | .firmware => true

/-- The packet carries opcode `op`, and each of its fields fits the header of R395 and the descriptor of R376. -/
def packetOk (op : Nat) (p : Packet) : Bool :=
  requesterOk p.req && p.op == op && decide (p.tag < 2 ^ 8) && decide (p.seq < 2 ^ 16) && decide (p.job < 2 ^ 32)
    && decide (p.rsv < 2 ^ 5) && decide (p.rcap < 2 ^ 32) && decide (p.result < 2 ^ 64)
    && decide (p.words.length ≤ 1020) && p.words.all fun w => decide (w < 2 ^ 32)

/-- A BAR2 access of 2, 4 or 8 bytes is naturally aligned, and any access lies within one aligned block of 64 bytes
(R44). -/
def shapeOk (off n : Nat) : Bool :=
  decide (1 ≤ n) && decide (off % 64 + n ≤ 64) && ((n != 2 && n != 4 && n != 8) || off % n == 0)

/-- A packet of 16 to 4,096 bytes (R390). -/
def lengthOk (n : Nat) : Bool := decide (16 ≤ n) && decide (n ≤ 4096)

/-- A user of hods that the part has (R436). -/
def userOk (u : HodUser) : Bool :=
  match u with
  | .port n | .dts n => decide (n < 4)
  | .group g => decide (g < 8)
  | .engine e => decide (e < 4)
  | .engines m => decide (m < 16)
  | .cal t => decide (t < 9)
  | .mode | .dram | .sco => true

/-- A speed of 1 to 4 and a width of 0 to 2 (R394). -/
def linkOk (speed width : Nat) : Bool := decide (1 ≤ speed) && decide (speed ≤ 4) && decide (width ≤ 2)

/-- The command is well formed. -/
def Instr.wf (i : Instr) : Bool :=
  match i with
  | .bar2Read off n _ => shapeOk off.toNat n.toNat
  | .bar2Write off l => shapeOk off.toNat l.length
  | .descriptorFetch _ l _ _ => decide (l.length ≤ 4096)
  | .cmdDatagram _ _ _ l _ _ => decide (l.length ≤ 65507)
  | .spiWritePacket l _ => lengthOk l.length
  | .consolePkt l _ => lengthOk l.length
  | .hodTimeout u => userOk u
  | .nop p => packetOk 0x100 p
  | .identify p => packetOk 0x101 p
  | .status p => packetOk 0x102 p
  | .regRead p => packetOk 0x103 p
  | .regWrite p => packetOk 0x104 p
  | .memRead p => packetOk 0x105 p
  | .memWrite p => packetOk 0x106 p
  | .reset p => packetOk 0x107 p
  | .patternCheck p => packetOk 0x200 p
  | .routeSelect p => packetOk 0x201 p
  | .slotCommit p => packetOk 0x202 p
  | .zoneCommit p => packetOk 0x203 p
  | .zoneDiscard p => packetOk 0x204 p
  | .groupIndex p => packetOk 0x205 p
  | .filterProfile p => packetOk 0x206 p
  | .detectorProfile p => packetOk 0x207 p
  | .thresholdSet p => packetOk 0x208 p
  | .biasSet p => packetOk 0x209 p
  | .timeSet p => packetOk 0x20A p
  | .netConfig p => packetOk 0x20B p
  | .ptpConfig p => packetOk 0x20C p
  | .ptpStatus p => packetOk 0x20D p
  | .kernelLoad p => packetOk 0x210 p
  | .portStart p => packetOk 0x300 p
  | .portStop p => packetOk 0x301 p
  | .dtsStart p => packetOk 0x302 p
  | .acqArm p => packetOk 0x303 p
  | .acqStop p => packetOk 0x304 p
  | .acqTrigger p => packetOk 0x305 p
  | .ilkStop p => packetOk 0x306 p
  | .ilkClear p => packetOk 0x307 p
  | .groupWake p => packetOk 0x310 p
  | .groupSleep p => packetOk 0x311 p
  | .kernelRun p => packetOk 0x312 p
  | .calRun p => packetOk 0x400 p
  | .calStatus p => packetOk 0x401 p
  | .calSchedule p => packetOk 0x402 p
  | .suspend p => packetOk 0x500 p
  | .resume p => packetOk 0x501 p
  | .cancel p => packetOk 0x502 p
  | .query p => packetOk 0x503 p
  | .jobList p => packetOk 0x504 p
  | .streamOpen p => packetOk 0x600 p
  | .streamClose p => packetOk 0x601 p
  | .tileStart p => packetOk 0x602 p
  | .tileStop p => packetOk 0x603 p
  | .tileFlush p => packetOk 0x604 p
  | .scoStart p => packetOk 0x605 p
  | .scoStop p => packetOk 0x606 p
  | .modeSet p => packetOk 0x700 p
  | .sensorRead p => packetOk 0x701 p
  | .logRead p => packetOk 0x702 p
  | .logClear p => packetOk 0x703 p
  | .updateBegin p => packetOk 0x704 p
  | .updateData p => packetOk 0x705 p
  | .updateCommit p => packetOk 0x706 p
  | .updateActivate p => packetOk 0x707 p
  | .i2cXfer p => packetOk 0x708 p
  | .hodQuery p => packetOk 0x709 p
  | .budgetSet p => packetOk 0x70A p
  | .arrayJoin p => packetOk 0x800 p
  | .arrayLeave p => packetOk 0x801 p
  | .arrayStatus p => packetOk 0x802 p
  | .arrayArm p => packetOk 0x803 p
  | .arrayDisarm p => packetOk 0x804 p
  | .arrayFire p => packetOk 0x805 p
  | .echo p => packetOk 0x900 p
  | .snapshot p => packetOk 0x901 p
  | .dramRetrain p => packetOk 0x902 p
  | .pcieLinkUp speed width => linkOk speed.toNat width.toNat
  | .registerWrite _ _ _ | .lowWordRead _ _ | .lowWordWrite _ _ | .highWordWrite _ _ | .porNAssert
  | .vdda18Brownout | .rstNAssert | .resetRelease _ _ _ | .bootLockTimeout | .bootComplete | .bootWatchdog
  | .runWatchdog | .failsClear | .sysRstCtrlWrite _ | .thermalTrip | .sensorSample _ _ | .pmbusPoll _ _ _ _ _
  | .pmAlert | .synEnable _ | .synDisable _ | .refModeWrite _ | .lockDeclared _ _ | .lockLoss _ _
  | .bandFail _ | .bandSearch _ | .bandSearchDone _ _ | .ocxoRdyRise | .ocxoRdyFall | .csyCommit _
  | .phaseEpochWrite _ | .refLoss _ | .refReturn _ | .slewDone | .epochLoad _ _ | .epochStep _ _
  | .actionDisarm _ _ | .holdEnd | .timeAdjust _ | .ppsInQualified _ _ | .ppsRunt | .ppsMiss | .ppsOutPulse
  | .tdcEdge _ _ | .tdcTimeout _ | .tdcOrderWindowEnd _ | .tdcFire _ | .tdcEnable _ | .tdcDisable _
  | .tdcFifoPop _ | .tdcStatClear _ | .launchFetch _ | .pointOfNoReturn _ | .slotHop _ _ | .launch _
  | .chirpStart _ | .ramanTrigger _ | .gatePulseEnd _ | .gateOpen _ | .gateShort _ | .biasWrite _ _ _
  | .biasMoveStart _ | .biasSettled _ | .rowSlotStart | .diagSample _ _ | .rowShort _ | .columnShort _
  | .scanEnd | .scanEnable _ | .routeSelWrite _ _ | .routeDrainEnd _ | .routeSettleEnd _
  | .elemForceWrite _ _ | .ilkInLow | .ilkInHigh | .loopQualified | .swStopWrite _ | .ilkCtrlClear
  | .neReport _ _ _ | .drainEnd _ | .watchReturn _ | .wake _ | .sampleClip _ _ _ | .hardOverload _ _
  | .rateReduce _ | .cdgReady _ | .quietWindowEnd _ _ _ | .cdgCalStepStart _ | .cdgQuietCheckEnd _ _
  | .cdgCalStepEnd _ _ _ | .courseVisitStart _ _ _ | .courseCommit _ | .monitorCause _ | .releaseStart _ _ | .releaseEnd _
  | .zonNgWrite _ _ | .ngRecomputeDone | .zonCtrlCommit | .zoneCommitDone | .zonCtrlDiscard
  | .zoneDiscardDone | .zonCourse _ | .fdcCourse _ _ | .fdcGap _ | .fdcSync _ | .eveFrame _ _ _
  | .thresholdCommit _ | .wakeCancel _ | .traceStart _ | .traceEnd _ _ | .profileRecord _
  | .ramanCalStepStart _ | .ramanCalStepEnd _ _ _ | .rsfEnable | .rsfDisable | .rsfSequenceStart
  | .rsfSlotStart | .rsfModulationStart | .rsfModulationEnd _ _ _ _ | .rsfResultPost | .senClamp _
  | .rsfSelfcalWrite | .selfcalSlotEnd _ | .rsfRawRead _ | .rsfGoodRead _ | .groupWakeDone _
  | .kernelLoadDone _ | .suspendTimeout _ | .vdcItemDeliver | .xferDone _ | .outComplete _
  | .illegalInstruction _ | .ctrlNop _ | .br _ | .call _ | .ret _ | .loop _ | .halt _ | .sync _ | .mpy _
  | .mac _ | .msu _ | .acc _ | .clra _ | .asra _ | .accsum _ | .movaS _ | .movaW _ | .vstaS _ | .vadd _
  | .vsub _ | .vadds _ | .vsubs _ | .vabs _ | .vand _ | .vor _ | .vxor _ | .vasr _ | .vlsr _ | .vshl _
  | .vmin _ | .vmax _ | .vbc _ | .vext _ | .vorr _ | .srchInit _ | .smax _ | .smin _ | .smaxu _ | .sminu _
  | .sfold _ | .add _ | .sub _ | .and _ | .or _ | .xor _ | .shl _ | .asr _ | .lsr _ | .mul _ | .addi _
  | .subi _ | .ldi _ | .mfs _ | .mts _ | .wait _ | .out _ | .trig _ | .xferTo _ | .xferFrom _
  | .acqArmWrite _ | .acqDisarmWrite _ | .acqSwtrigWrite _ | .seqTimerExpire _ | .seqEnable _ | .seqDisable
  | .preFilled _ | .acqUnitStore _ _ _ | .segmentComplete _ _ _ | .rearmDone _ | .segmentRelease _
  | .slotFree _ _ | .cmpRow | .cmpGap | .cmpFlushWrite _ | .tileRelease _ _ _ | .tileTimeout _
  | .streamRecordSend _ | .strRdWrite _ _ | .sqTailWrite _ | .cqHeadWrite _ | .cqCoalesceTimer
  | .pcieLinkDown | .flr | .d3hotEntry | .d0Return | .ethFrameRx _ _ | .ethLinkChange _ _ | .spiWriteWord _ _
  | .spiReadWord _ | .spiReadReply | .spiReadStatus | .spiAbort | .consoleHelp | .consoleStatus
  | .consoleLog _ | .consoleBoot _ | .consoleReset | .consoleFoot | .consoleBaud _ | .jtagBypass _
  | .jtagIdcode _ | .jtagSamplePreload _ _ | .jtagExtest _ _ | .jtagClamp _ | .jtagHighz _ | .trstNAssert
  | .scrubLine _ | .dramTrainingStep _ | .selfRefreshEntry | .selfRefreshExit | .retrainDeferEnd
  | .memCtrlRetrain | .refreshDue _ | .panicChange _ _ _ | .mr4Poll _ | .rhWindowEnd _ | .scoTile | .scoGapRecord
  | .scoCommitWrite | .scoTcommitWrite | .vblankStart | .frameEnd | .lineUnderrun _ _ | .pnlTeEdge _
  | .teDelayEnd | .teTimeout | .hodGrant | .fenceRelease | .modeChangeDone _ | .portPowerOff _
  | .csyIdleStop _ | .standbyWakeTimer | .standbyWakeCs | .cal24hTimer _ | .calRetryTimer _ | .plumbHodRetry
  | .calBlocked | .calBlockedRetry _ | .updateVerifyDone _ | .snapshotDone | .aryJoin _ | .aryAccept _
  | .aryRefuse _ | .aryBeat _ | .aryBeatAck _ | .aryArm _ | .aryArmAck _ | .aryDisarm _ | .aryCancel _
  | .aryFire _ | .aryLeave _ | .aryDissolve _ | .aryBeatTimer | .aryOrphanRemove _ | .aryBeatTimeout
  | .aryOrphanLeave | .aryJoinRetry | .aryJoinTimeout | .aryArmResend | .aryDisarmTimeout | .aryTimeCheck
  | .strCoalesceTimer _ | .hardOverloadEnd _ _ | .prbsError _ _ | .ptpEventEgress _ _ _ | .bootThermalWaitEnd
  | .senClampRelease _ => true

end Sys2Proof
end

