-- ==== Sys2Proof/Safety.lean ====
section
/-! DEFINITION. What a safe step is, and the form of State that every step keeps. -/

namespace Sys2Proof.Machine

/-- The step stops neither with a fault nor with a refusal. -/
def Safe (s : State) : Prop := ∃ t, step s = .next t

/-- The register bank, the buffers of 64-bit registers and the three addressed memories have their canonical form. -/
def State.Canonical (s : State) : Prop :=
  Bank.wf s.regs = true ∧ Bank.wf s.shadow = true ∧ Bank.wf s.wbuf = true ∧ Mem.wf s.sram State.sramFill = true
    ∧ Mem.wf s.dram State.dramFill = true ∧ Mem.wf s.flash State.flashFill = true

/-- Command `i` completes in `s`: it answers a next state, and `P` holds of that state. -/
def Completes (i : Instr) (s : State) (P : State → Prop) : Prop := ∃ t, exec i s = .next t ∧ P t

/-- No byte of an addressed memory reads otherwise in `t` than in `s`. -/
def BytesKept (s t : State) : Prop :=
  (∀ a, Mem.read t.sram State.sramFill a = Mem.read s.sram State.sramFill a)
    ∧ (∀ a, Mem.read t.dram State.dramFill a = Mem.read s.dram State.dramFill a)
    ∧ ∀ a, Mem.read t.flash State.flashFill a = Mem.read s.flash State.flashFill a

/-- Every register field whose key is not listed reads in `t` as in `s`. -/
def RegsKept (l : List Nat) (s t : State) : Prop := ∀ f : Field, f.key ∉ l → t.rd f = s.rd f

/-- ARY of `s` takes a datagram of TYPE `typ` (R469): its port is in use and up, the device is not OFF, the CRC, the array
number and the version are right, and the sender is known unless it asks to join. -/
def AryHears (s : State) (typ : Nat) (p : AryPkt) : Prop :=
  s.on (R.HIF_ETH_CFG_EN s.aryEth) = true ∧ s.ethUp s.aryEth = true ∧ s.aryState ≠ State.aryOff
    ∧ State.aryCrcOk p typ = true ∧ p.no.toNat = s.rd R.ARY_ARRAY_NO_VALUE ∧ p.head.toNat / 65536 = 1
    ∧ (typ = State.tJOIN ∨ s.aryKnows p.addr = true)

/-- `h` is the handle of an unfinished job of `s` without notifications. -/
def JobRuns (s : State) (h : Nat) : Prop := ∃ j, s.job? h = some j ∧ State.live j = true ∧ j.notify = false

/-- The job of handle `h` stands in `st` with a status and a detail. -/
def JobEnds (t : State) (h : Nat) (st : JobState) (status detail : Nat) : Prop :=
  ∃ j, t.job? h = some j ∧ j.state = st ∧ j.status = status ∧ j.detail = detail

/-- The opcode and the packet of a command packet's row; none for the other rows. -/
def packetRow : Instr → Option (Nat × Packet)
  | .nop p => some (0x100, p)
  | .identify p => some (0x101, p)
  | .status p => some (0x102, p)
  | .regRead p => some (0x103, p)
  | .regWrite p => some (0x104, p)
  | .memRead p => some (0x105, p)
  | .memWrite p => some (0x106, p)
  | .reset p => some (0x107, p)
  | .patternCheck p => some (0x200, p)
  | .routeSelect p => some (0x201, p)
  | .slotCommit p => some (0x202, p)
  | .zoneCommit p => some (0x203, p)
  | .zoneDiscard p => some (0x204, p)
  | .groupIndex p => some (0x205, p)
  | .filterProfile p => some (0x206, p)
  | .detectorProfile p => some (0x207, p)
  | .thresholdSet p => some (0x208, p)
  | .biasSet p => some (0x209, p)
  | .timeSet p => some (0x20A, p)
  | .netConfig p => some (0x20B, p)
  | .ptpConfig p => some (0x20C, p)
  | .ptpStatus p => some (0x20D, p)
  | .kernelLoad p => some (0x210, p)
  | .portStart p => some (0x300, p)
  | .portStop p => some (0x301, p)
  | .dtsStart p => some (0x302, p)
  | .acqArm p => some (0x303, p)
  | .acqStop p => some (0x304, p)
  | .acqTrigger p => some (0x305, p)
  | .ilkStop p => some (0x306, p)
  | .ilkClear p => some (0x307, p)
  | .groupWake p => some (0x310, p)
  | .groupSleep p => some (0x311, p)
  | .kernelRun p => some (0x312, p)
  | .calRun p => some (0x400, p)
  | .calStatus p => some (0x401, p)
  | .calSchedule p => some (0x402, p)
  | .suspend p => some (0x500, p)
  | .resume p => some (0x501, p)
  | .cancel p => some (0x502, p)
  | .query p => some (0x503, p)
  | .jobList p => some (0x504, p)
  | .streamOpen p => some (0x600, p)
  | .streamClose p => some (0x601, p)
  | .tileStart p => some (0x602, p)
  | .tileStop p => some (0x603, p)
  | .tileFlush p => some (0x604, p)
  | .scoStart p => some (0x605, p)
  | .scoStop p => some (0x606, p)
  | .modeSet p => some (0x700, p)
  | .sensorRead p => some (0x701, p)
  | .logRead p => some (0x702, p)
  | .logClear p => some (0x703, p)
  | .updateBegin p => some (0x704, p)
  | .updateData p => some (0x705, p)
  | .updateCommit p => some (0x706, p)
  | .updateActivate p => some (0x707, p)
  | .i2cXfer p => some (0x708, p)
  | .hodQuery p => some (0x709, p)
  | .budgetSet p => some (0x70A, p)
  | .arrayJoin p => some (0x800, p)
  | .arrayLeave p => some (0x801, p)
  | .arrayStatus p => some (0x802, p)
  | .arrayArm p => some (0x803, p)
  | .arrayDisarm p => some (0x804, p)
  | .arrayFire p => some (0x805, p)
  | .echo p => some (0x900, p)
  | .snapshot p => some (0x901, p)
  | .dramRetrain p => some (0x902, p)
  | _ => none

/-- Packet `q` is dispatched as soon as it arrives (R386, R390, R399, R404): its interface reaches the command processor, it
passes the checks, it is no retransmission, the SPI slave has room, and nothing of its requester waits before it. -/
def Admitted (s : State) (q : Packet) : Prop :=
  s.reaches q.req = true ∧ q.words.length ≤ 1020 ∧ (∀ w ∈ q.words, w < 2 ^ 32) ∧ s.packetCheck q = none
    ∧ (∀ m a u, q.req = .eth m a u → s.keptReply q = none) ∧ (q.req = .spi → s.hif.spi.length < 8)
    ∧ (q.urgent = true ∨ (∀ e ∈ s.cmd.waiting, e.2.req ≠ q.req)
      ∧ (q.fence = true → s.settled q.req (s.cmd.arrivals + 1) = true))

/-- The state in which the command of an admitted packet runs: the packet is in flight. -/
def Taken (s : State) (q : Packet) : State :=
  { s with
    cmd :=
      { s.cmd with
        arrivals := s.cmd.arrivals + 1, arr := s.cmd.arrivals + 1
        open_ := s.cmd.open_ ++ [(s.cmd.arrivals + 1, q)] } }

/-- The row `i` of opcode `op` completes on a packet that is admitted; `P` holds of the packet, the state in which its
command runs, and the next state. -/
def Served (i : Packet → Instr) (op : Nat) (p : Packet) (s : State) (P : Packet → State → State → Prop) : Prop :=
  Admitted s { p with op := op } → Completes (i p) s fun t => P { p with op := op } (Taken s { p with op := op }) t

/-- From `d` the command of `q` makes a job of type `typ` in state `st`, replies ACCEPTED with its handle `h` (R407), and
goes on from `u`. -/
def JobMade (d : State) (q : Packet) (typ : Nat) (st : JobState) (h : Nat) (u : State) : Prop :=
  h = (d.newJob q typ st).2 ∧ u = (d.newJob q typ st).1.reply q State.ACCEPTED 0 h

/-- Core `c` issues the instruction at its PC, it is op `o` of class `q` (R265), and its slots move nothing. -/
def CoreIssues (s : State) (c : Fin 64) (q o : Nat) : Prop :=
  s.coreIssues c = true ∧ Dsp.isOp (s.coreWord c) q o = true
    ∧ (q ≠ 5 → (Dsp.moveX (s.coreWord c)).op = 0 ∧ (Dsp.moveY (s.coreWord c)).op = 0)

/-- Core `c` issues op `o` of class `q`, is in no loop and not at the end of its program memory. -/
def CoreReady (s : State) (c : Fin 64) (q o : Nat) : Prop :=
  CoreIssues s c q o ∧ (s.vdc.cores[c]).loops = [] ∧ (s.vdc.cores[c]).pc < 4095

/-- `t` is `s` after an instruction of core `c` of `n` cycles that leaves the core as `d` at `pc` and, but for the cycle
counters and what the group's state takes from it, nothing else changed. -/
def CoreStep (s : State) (c : Fin 64) (d : DCore) (pc n : Nat) (t : State) : Prop :=
  ∃ u : State, t = u.groupCheck (State.groupOf c)
    ∧ (∃ (cy : Nat) (rd : Vector Nat 4), u.vdc.cores[c] = { d with pc := pc, cycle := cy, ready := rd })
    ∧ (∀ e : Fin 64, e ≠ c → u.vdc.cores[e] = s.vdc.cores[e]) ∧ u.vdc.groups = s.vdc.groups
    ∧ RegsKept [(R.VDC_CORE_CYCLES_COUNT c).key, (R.VDC_CORE_STALLS_COUNT c).key] s u
    ∧ u.rd (R.VDC_CORE_CYCLES_COUNT c) = min (s.rd (R.VDC_CORE_CYCLES_COUNT c) + n) (2 ^ 32 - 1)
    ∧ BytesKept s u

namespace Dsp

/-- The core with V[D] set lane by lane. -/
def lanes (k : DCore) (w : Nat) (f : Fin 8 → BitVec 32) : DCore :=
  { k with v := k.v.set (Fin.ofNat 16 (fD w)) (Vector.ofFn f) }

/-- The core with S[D] and Z, N, C, V of a result. -/
def scalarResult (k : DCore) (w : Nat) (r : BitVec 32) (cy ov : Bool) : DCore :=
  setZNCV { k with s := k.s.set (Fin.ofNat 16 (fD w)) r } r cy ov

/-- The signed product of the halves that a MAC word names, in lane `i` (R268). -/
def halves (k : DCore) (w : Nat) (i : Fin 8) : Int :=
  half (vreg k (macV w)) (w.testBit 46) i * half (vreg k (macB w)) (w.testBit 45) i

end Dsp

end Sys2Proof.Machine
end

