-- ==== Sys2Proof/Certificates/Slice0/Obligations.lean ====
section
/-! DEFINITION. The statements about the model. The docstring of each names the rules of the manual that it formalises. -/

open Sys2Proof Sys2Proof.Machine Sys2Proof.Machine.State

/-- R51, R52, R53, R55: EN starts a synthesiser on its band entry, waits for OCXO_RDY, or fails on an entry that is
not valid; SEARCH searches while EN is 0; what the search finds goes to the band table. `synFollow` is what a change
of a synthesiser lets go on elsewhere. -/
def Obligations.SynthesiserStarts : Prop :=
  (∀ (p : Fin 5) (s : State), s.domOn dTIME = true → s.bit R.SYN_CTRL_EN p = false →
    s.on (R.SYN_PLL_STAT_SEARCH_BUSY p) = false → s.synMustWait p = false →
    s.bandReady p = true →
    Completes (.synEnable p) s fun t => ∃ u, t = synFollow s u p ∧ u.bit R.SYN_CTRL_EN p = true
      ∧ u.bit R.SYN_STAT_BAND_FAIL p = false ∧ u.syn.acquiring.testBit p = true
      ∧ u.rd (R.SYN_PLL_STAT_BAND_USED p) = s.rd (R.SYN_BAND_BAND p (s.bandEntry p)) % 2 ^ 6)
  ∧ (∀ (p : Fin 5) (s : State), s.domOn dTIME = true → s.bit R.SYN_CTRL_EN p = false →
    s.on (R.SYN_PLL_STAT_SEARCH_BUSY p) = false → s.synMustWait p = false →
    s.bandReady p = false →
    Completes (.synEnable p) s fun t => ∃ u, t = synFollow s u p ∧ u.bit R.SYN_CTRL_EN p = true
      ∧ u.bit R.SYN_STAT_BAND_FAIL p = true ∧ u.bit R.SYN_EVENT_BAND_FAIL p = true ∧ u.syn.acquiring.testBit p = false)
  ∧ (∀ (p : Fin 5) (s : State), s.domOn dTIME = true → s.bit R.SYN_CTRL_EN p = false →
    s.on (R.SYN_PLL_STAT_SEARCH_BUSY p) = false → s.synMustWait p = true →
    Completes (.synEnable p) s fun t => ∃ u, t = synFollow s u p ∧ u.bit R.SYN_CTRL_EN p = true
      ∧ u.syn.waiting.testBit p = true ∧ u.syn.acquiring = s.syn.acquiring)
  ∧ (∀ (p : Fin 5) (s : State), s.domOn dTIME = true → s.bit R.SYN_CTRL_EN p = false →
    s.on (R.SYN_PLL_STAT_SEARCH_BUSY p) = false →
    Completes (.bandSearch p) s fun t => ∃ u, t = synFollow s u p ∧ u.on (R.SYN_PLL_STAT_SEARCH_BUSY p) = true)
  ∧ (∀ (p : Fin 5) (b : BitVec 6) (s : State), s.on (R.SYN_PLL_STAT_SEARCH_BUSY p) = true →
    s.bit R.SYN_CTRL_EN p = false → s.syn.firmware.testBit p = false → s.searchEntry p ≠ 3 →
    Completes (.bandSearchDone p (some b)) s fun t => ∃ u : State, t = u.advanceAll
      ∧ u.on (R.SYN_PLL_STAT_SEARCH_BUSY p) = false ∧ u.on (R.SYN_BAND_VALID p (s.searchEntry p)) = true
      ∧ u.rd (R.SYN_BAND_BAND p (s.searchEntry p)) = b.toNat)
  ∧ (∀ (p : Fin 5) (s : State), s.on (R.SYN_PLL_STAT_SEARCH_BUSY p) = true →
    Completes (.bandSearchDone p none) s fun t => ∃ u : State, t = u.searchFollow p false
      ∧ u.on (R.SYN_PLL_STAT_SEARCH_BUSY p) = false ∧ u.on (R.SYN_BAND_VALID p (s.searchEntry p)) = false
      ∧ u.bit R.SYN_STAT_BAND_FAIL p = true ∧ u.bit R.SYN_EVENT_BAND_FAIL p = true)
  ∧ (∀ (p : Fin 5) (s : State), s.syn.acquiring.testBit p = true →
    (s.syn.firmware.testBit p && s.syn.fused.testBit p) = false →
    Completes (.bandFail p) s fun t => ∃ u, t = synFollow s u p ∧ u.syn.acquiring.testBit p = false
      ∧ u.bit R.SYN_STAT_BAND_FAIL p = true ∧ u.bit R.SYN_EVENT_BAND_FAIL p = true)
  ∧ ∀ (p : Fin 5) (s : State), s.syn.acquiring.testBit p = true → s.syn.firmware.testBit p = true →
    s.syn.fused.testBit p = true →
    Completes (.bandFail p) s fun t => ∃ u, t = synFollow s u p ∧ u.bit R.SYN_CTRL_EN p = false
      ∧ u.on (R.SYN_PLL_STAT_SEARCH_BUSY p) = true

/-- R49, R54, R56, R64, R429: clearing EN ends the lock at once, with PLL_S those of the carrier synthesisers;
REF_MODE and the phase epoch change only while nothing depends on them; COMMIT makes the shadow tables of a carrier
synthesiser active when they pass the checks and no served port runs; a synthesiser with two IDLE ports is disabled.
R48, R50, R55, R66 to R72: the conditions of a lock, of its loss, of a reference loss and return, and of OCXO_RDY. -/
def Obligations.SynthesiserControl : Prop :=
  (
  (∀ (p : Fin 5) (s : State), s.domOn dTIME = true → s.bit R.SYN_CTRL_EN p = true →
    Completes (.synDisable p) s fun t => ∃ u : State, t = synFollow s u p ∧ u.bit R.SYN_CTRL_EN p = false
      ∧ u.bit R.SYN_STAT_BAND_FAIL p = false ∧ u.bit R.SYN_STAT_LOCK p = false ∧ u.syn.acquiring.testBit p = false
      ∧ (p = 0 → u.bit R.SYN_STAT_LOCK 3 = false ∧ u.bit R.SYN_STAT_LOCK 4 = false)
      ∧ u.bit R.SYN_EVENT_LOCK_LOSS p = (s.bit R.SYN_EVENT_LOCK_LOSS p || s.bit R.SYN_STAT_LOCK p))
  ∧ (∀ (p : Fin 5) (s : State), s.domOn dTIME = true → s.bit R.SYN_CTRL_EN p = false →
    Completes (.synDisable p) s fun t => t = synFollow s s p)
  ∧ (∀ (m : BitVec 2) (s : State), s.domOn dTIME = true → m ≠ 3 → s.rd R.SYN_CTRL_EN % 8 = 0 →
    Completes (.refModeWrite m) s fun t => t.rd R.SYN_CTRL_REF_MODE = m.toNat ∧ t.rd R.SYN_CTRL_EN = s.rd R.SYN_CTRL_EN)
  ∧ (∀ (m : BitVec 2) (s : State), s.domOn dTIME = true →
    (m = 3 ∨ m.toNat ≠ s.rd R.SYN_CTRL_REF_MODE ∧ s.rd R.SYN_CTRL_EN % 8 ≠ 0) →
    Completes (.refModeWrite m) s fun t => t.rd R.SYN_CTRL_REF_MODE = s.rd R.SYN_CTRL_REF_MODE
      ∧ t.on R.SYN_EVENT_CFG_REJECT = true)
  ∧ (∀ (e : DWord) (s : State), s.domOn dTIME = true → s.anyPortShows = false →
    Completes (.phaseEpochWrite e) s fun t => t.rd R.SYN_PHASE_EPOCH_EPOCH = e.toNat)
  ∧ (∀ (e : DWord) (s : State), s.domOn dTIME = true → s.anyPortShows = true →
    Completes (.phaseEpochWrite e) s fun t => t.rd R.SYN_PHASE_EPOCH_EPOCH = s.rd R.SYN_PHASE_EPOCH_EPOCH
      ∧ t.on R.SYN_EVENT_CFG_REJECT = true)
  ∧ (∀ (k : Fin 2) (s : State), Bank.wf s.regs = true → s.domOn dTIME = true → s.csyServes k = false →
    s.csyCheck k = true →
    Completes (.csyCommit k) s fun t => ∀ f : Field, csyKey k f.key = true → t.synActive f = s.rd f)
  ∧ (∀ (k : Fin 2) (s : State), s.domOn dTIME = true → s.csyServes k = false → s.csyCheck k = false →
    Completes (.csyCommit k) s fun t => t.syn.active = s.syn.active ∧ t.bit R.SYN_EVENT_SLOT_ERR 0 = true)
  ∧ (∀ (k : Fin 2) (s : State), s.domOn dTIME = true → s.csyServes k = true →
    Completes (.csyCommit k) s fun t => t.syn.active = s.syn.active ∧ t.bit R.SYN_EVENT_SLOT_REJECT 0 = true)
  ∧ ∀ (k : Fin 2) (s : State), s.pstate (2 * k.val) = stIdle → s.pstate (2 * k.val + 1) = stIdle →
    s.bit R.SYN_CTRL_EN (3 + k.val) = true →
    Completes (.csyIdleStop k) s fun t => t.bit R.SYN_CTRL_EN (3 + k.val) = false
      ∧ t.bit R.SYN_STAT_LOCK (3 + k.val) = false)
  ∧ (
  (∀ (p : Fin 5) (e : Measured) (s : State), p ≠ 0 → s.mayLock p e = true →
    Completes (.lockDeclared p e) s fun t => ∃ u : State, t = u.lockFollow p ∧ u.bit R.SYN_STAT_LOCK p = true
      ∧ u.syn.acquiring.testBit p = false ∧ u.tbu = s.tbu)
  ∧ (∀ (e : Measured) (s : State), s.mayLock 0 e = true → s.syn.jump = none →
    Completes (.lockDeclared 0 e) s fun t => ∃ u : State, t = u.lockFollow 0 ∧ u.bit R.SYN_STAT_LOCK 0 = true
      ∧ u.tbu.running = true ∧ u.tbu.count = s.tbu.count)
  ∧ (∀ (p : Fin 5) (e : Measured) (s : State), s.bit R.SYN_STAT_LOCK p = true →
    2 * s.rd (R.SYN_PLL_CFG_LOCK_WIN p) < e.natAbs →
    Completes (.lockLoss p e) s fun t => ∃ u : State, t = synFollow s u p ∧ u.bit R.SYN_STAT_LOCK p = false
      ∧ u.bit R.SYN_EVENT_LOCK_LOSS p = true
      ∧ (s.on R.SYN_CTRL_AUTO_RELOCK = true → s.bit R.SYN_CTRL_EN p = true → u.syn.acquiring.testBit p = true))
  ∧ (∀ (r : Measured) (s : State), s.domOn dTIME = true → s.syn.refDown = false → s.on R.SYN_CTRL_HOLD_EN = true →
    Completes (.refLoss r) s fun t => ∃ u : State, t = synFollow s u 0 ∧ u.on R.SYN_STAT_REF_OK = false
      ∧ u.on R.SYN_EVENT_REF_LOSS = true ∧ u.on R.SYN_STAT_HOLDOVER = true
      ∧ u.bit R.SYN_STAT_LOCK 0 = s.bit R.SYN_STAT_LOCK 0 ∧ u.on R.SYN_STAT_SLEWING = false)
  ∧ (∀ (r : Measured) (s : State), s.domOn dTIME = true → s.syn.refDown = false → s.on R.SYN_CTRL_HOLD_EN = false →
    Completes (.refLoss r) s fun t => ∃ u : State, t = synFollow s u 0 ∧ u.on R.SYN_STAT_REF_OK = false
      ∧ u.on R.SYN_EVENT_REF_LOSS = true ∧ u.bit R.SYN_STAT_LOCK 0 = false ∧ u.syn.stepping = true)
  ∧ (∀ (j : Measured) (s : State), s.domOn dTIME = true → s.syn.refDown = true →
    (Arith.satSigned 32 (j + s.syn.held)).natAbs ≤ s.rd (R.SYN_PLL_CFG_LOCK_WIN 0) →
    Completes (.refReturn j) s fun t => ∃ u : State, t = synFollow s u 0 ∧ u.on R.SYN_STAT_REF_OK = true
      ∧ u.on R.SYN_STAT_HOLDOVER = false ∧ u.on R.SYN_EVENT_REF_RETURN = true ∧ u.rd R.SYN_SLEW_REM_REM = 0
      ∧ u.syn.refDown = false)
  ∧ (∀ s : State, s.on R.SYN_STAT_SLEWING = true →
    Completes .slewDone s fun t => t.on R.SYN_STAT_SLEWING = false ∧ t.rd R.SYN_SLEW_REM_REM = 0
      ∧ t.on R.SYN_EVENT_SLEW_DONE = true)
  ∧ (∀ (p : Fin 5) (s : State), s.domOn dTIME = true → s.syn.waiting = 2 ^ p.val → s.bit R.SYN_CTRL_EN p = true →
    s.bandReady p = true →
    Completes .ocxoRdyRise s fun t => ∃ u : State, t = u.advanceAll ∧ u.on R.SYN_STAT_OCXO_RDY = true
      ∧ u.syn.waiting = 0 ∧ u.syn.acquiring.testBit p = true)
  ∧ ∀ s : State, s.domOn dTIME = true →
    Completes .ocxoRdyFall s fun t => t.on R.SYN_STAT_OCXO_RDY = false ∧ t.sys.ocxo = false)

/-- R76, R79, R80, R513: a load makes the counter VALUE and a step adds DELTA at once, or each arms for PPS_IN; a
delta that goes back too far is rejected; DISARM, the end of a hold and an adjustment. R81, R82: a qualified PPS_IN
edge is recorded with its stamp, a runt and a missing edge set their events, and PPS_OUT pulses on its edge ticks.
What a reference or an event source lets the TDC units and ACQ do follows. -/
def Obligations.TimeBase : Prop :=
  (
  (∀ (src : BitVec 2) (s : State), s.domOn dTIME = true → s.on R.TBU_STAT_ACT_ARMED = false →
    s.tbu.tickDelta = none → s.stepRejected (actionDelta true (s.rd R.TBU_EPOCH_SET_VALUE) s.now) = false →
    ¬(-(2 ^ 23 : Int) ≤ actionDelta true (s.rd R.TBU_EPOCH_SET_VALUE) s.now
      ∧ actionDelta true (s.rd R.TBU_EPOCH_SET_VALUE) s.now < 0) →
    Completes (.epochLoad false src) s fun t => t.tbu.count = s.rd R.TBU_EPOCH_SET_VALUE % 2 ^ 64 ∧ t.tbu.epoch = true
      ∧ t.tbu.hold = 0)
  ∧ (∀ (src : BitVec 2) (s : State), s.domOn dTIME = true → s.on R.TBU_STAT_ACT_ARMED = false →
    Completes (.epochLoad true src) s fun t => t.tbu.armed = some (true, s.rd R.TBU_EPOCH_SET_VALUE)
      ∧ t.on R.TBU_STAT_ACT_ARMED = true ∧ t.tbu.count = s.tbu.count)
  ∧ (∀ (src : BitVec 2) (s : State), s.domOn dTIME = true → s.on R.TBU_STAT_ACT_ARMED = false →
    s.tbu.tickDelta = none → s.stepRejected (actionDelta false (s.rd R.TBU_STEP_DELTA) s.now) = false →
    -(2 ^ 23 : Int) ≤ actionDelta false (s.rd R.TBU_STEP_DELTA) s.now →
    actionDelta false (s.rd R.TBU_STEP_DELTA) s.now < 0 →
    Completes (.epochStep false src) s fun t => t.tbu.count = s.tbu.count
      ∧ (t.tbu.hold : Int) = s.tbu.hold - actionDelta false (s.rd R.TBU_STEP_DELTA) s.now)
  ∧ (∀ (src : BitVec 2) (s : State), s.domOn dTIME = true → s.on R.TBU_STAT_ACT_ARMED = false →
    s.tbu.tickDelta = none → s.stepRejected (actionDelta false (s.rd R.TBU_STEP_DELTA) s.now) = true →
    Completes (.epochStep false src) s fun t => t.tbu.count = s.tbu.count ∧ t.tbu.hold = s.tbu.hold
      ∧ t.tbu.epoch = s.tbu.epoch ∧ t.on R.TBU_EVENT_STEP_REJECT = true)
  ∧ (∀ (p : Bool) (src : BitVec 2) (s : State), s.domOn dTIME = true → s.on R.TBU_STAT_ACT_ARMED = true →
    Completes (.epochStep p src) s fun t => t.tbu = s.tbu ∧ t.on R.TBU_EVENT_CFG_REJECT = true)
  ∧ (∀ (p : Bool) (src : BitVec 2) (s : State), s.domOn dTIME = true →
    Completes (.actionDisarm p src) s fun t => t.tbu.armed = none ∧ t.on R.TBU_STAT_ACT_ARMED = false
      ∧ t.tbu.count = s.tbu.count)
  ∧ (∀ s : State, Completes .holdEnd s fun t => t.tbu.hold = 0 ∧ t.tbu.count = s.tbu.count
      ∧ t.tbu.raw = s.tbu.raw + s.tbu.hold)
  ∧ (∀ (x : Word) (s : State), s.domOn dTIME = true → s.on R.SYN_STAT_SLEWING = false →
    s.on R.SYN_STAT_HOLDOVER = false →
    ((s.rdS R.SYN_SLEW_REM_REM + x.toInt).natAbs : Int) ≤ s.rd R.SYN_CTRL_SLEW_LIMIT * 3200000 →
    Completes (.timeAdjust x) s fun t =>
      t.rd R.SYN_SLEW_REM_REM = Arith.ofSigned 32 (Arith.satSigned 32 (s.rdS R.SYN_SLEW_REM_REM + x.toInt))
        ∧ t.on R.SYN_STAT_SLEWING = (s.rdS R.SYN_SLEW_REM_REM + x.toInt != 0) ∧ t.tbu = s.tbu)
  ∧ ∀ (x : Word) (s : State), s.domOn dTIME = true → s.on R.SYN_STAT_SLEWING = false →
    s.on R.SYN_STAT_HOLDOVER = true →
    Completes (.timeAdjust x) s fun t => t.rd R.SYN_SLEW_REM_REM = s.rd R.SYN_SLEW_REM_REM
      ∧ t.on R.TBU_EVENT_ADJ_REJECT = true)
  ∧ (
  (∀ (q : Nat) (frac : Byte) (s : State), s.domOn dTIME = true → s.tbu.armed = none →
    Completes (.ppsInQualified q frac) s fun t => ∃ u : State,
      t = (u.tdcRef 12 (s.tbu.raw - q, frac.toNat, s.countAt (s.tbu.raw - q))).presentSrc 5 none
          (fun _ => true) (s.countAt (s.tbu.raw - q))
        ∧ u.rd R.TBU_PPS_IN_STAMP = s.countAt (s.tbu.raw - q) % 2 ^ 64
        ∧ u.rd R.TBU_PPS_IN_FRAC_FRAC = frac.toNat ∧ u.on R.TBU_STAT_PPS_OK = true
        ∧ u.on R.TBU_EVENT_PPS_RETURN = (s.on R.TBU_EVENT_PPS_RETURN || s.tbu.ppsMissed) ∧ u.tbu.ppsMissed = false)
  ∧ (∀ s : State, s.domOn dTIME = true → Completes .ppsRunt s fun t => t.on R.TBU_EVENT_PPS_RUNT = true ∧ t.tbu = s.tbu)
  ∧ (∀ s : State, s.on R.TBU_STAT_PPS_OK = true →
    Completes .ppsMiss s fun t => t.on R.TBU_STAT_PPS_OK = false ∧ t.on R.TBU_EVENT_PPS_MISS = true)
  ∧ (∀ s : State, s.ppsOutDue = true →
    Completes .ppsOutPulse s fun t => ∃ u : State, t = u.tdcRef 13 (u.tick 0)
      ∧ u.out = s.out ++ [.ball "PPS_OUT" 0 (s.rd R.TBU_PPS_OUT_WIDTH)])
  ∧ ∀ s : State, s.ppsOutDue = false → Completes .ppsOutPulse s fun t => t = s)

/-- R86 to R92: EN applies the configuration of a TDC unit or shows CFG_ERR; an accepted edge of a running unit is a
result, a start, a reference or a rejection; timeouts, the order window, FIRE, the FIFO and the statistics block. -/
def Obligations.TdcUnits : Prop :=
  (∀ (u : Fin 8) (s : State), s.domOn dTIME = true → s.on (R.TDC_CFG_EN u) = false → s.rd (R.TDC_CFG_REF u) ≠ u.val →
    s.rd (R.TDC_CFG_REF u) < 15 →
    Completes (.tdcEnable u) s fun t => t.on (R.TDC_CFG_EN u) = true ∧ t.tdc[u].run = true
      ∧ t.tdc[u].ref = s.rd (R.TDC_CFG_REF u) ∧ t.tdc[u].sync = s.on (R.TDC_CFG_CLASS u)
      ∧ t.tdc[u].timeout = s.rd (R.TDC_TIMEOUT_TICKS u) ∧ t.tdc[u].start = none ∧ t.tdc[u].fifo = s.tdc[u].fifo)
  ∧ (∀ (u : Fin 8) (s : State), s.domOn dTIME = true → s.on (R.TDC_CFG_EN u) = false →
    (s.rd (R.TDC_CFG_REF u) = u.val ∨ s.rd (R.TDC_CFG_REF u) = 15 ∧ s.on (R.TDC_CFG_CLASS u) = true) →
    Completes (.tdcEnable u) s fun t => t.on (R.TDC_STATUS_CFG_ERR u) = true ∧ t.tdc = s.tdc)
  ∧ (∀ (u : Fin 8) (s : State), s.domOn dTIME = true →
    Completes (.tdcDisable u) s fun t => t.on (R.TDC_CFG_EN u) = false ∧ t.on (R.TDC_STATUS_CFG_ERR u) = false
      ∧ t.tdc[u].run = false ∧ t.tdc[u].start = none ∧ t.tdc[u].fifo = s.tdc[u].fifo)
  ∧ (∀ (u : Fin 8) (e : Edge) (s : State), s.tdc[u].run = true → e.long = true → s.tdc[u].last = none →
    e.rising ≠ s.tdc[u].falling → s.tdc[u].sync = false → s.tdc[u].ref = 15 → s.tdc[u].fifo.length < 64 →
    Completes (.tdcEdge u e) s fun t => ∃ v : State,
      t = ((v.tdcRef u (s.tick e.frac.toNat)).showTdc u).presentSrc 3 (some u) (fun _ => true)
            ((v.tdcRef u (s.tick e.frac.toNat)).showTdc u).now
        ∧ v.tdc[u].last = some (s.tick e.frac.toNat)
        ∧ (v.tdc[u].fifo.map fun x => (x.1, x.2.1)) = (s.tdc[u].fifo.map fun x => (x.1, x.2.1))
            ++ [(s.now % 2 ^ 32, s.now / 2 ^ 32 % 2 ^ 32)])
  ∧ (∀ (u : Fin 8) (e : Edge) (l : Nat × Nat × Nat) (s : State), s.tdc[u].run = true → e.long = true →
    s.tdc[u].last = some l → tdcSpan l (s.tick e.frac.toNat) < (s.tdc[u].holdoff : Int) * 256 →
    Completes (.tdcEdge u e) s fun t => t.tdc = s.tdc
      ∧ t.rd (R.TDC_CNT1_HELD u) = min (s.rd (R.TDC_CNT1_HELD u) + 1) (2 ^ 16 - 1))
  ∧ (∀ (u : Fin 8) (b : Nat × Nat × Nat) (s : State), s.tdc[u].run = true → s.tdc[u].sync = true →
    s.tdc[u].start = some b → s.tdc[u].fifo.length < 64 →
    Completes (.tdcTimeout u) s fun t => t.tdc[u].start = none
      ∧ (t.tdc[u].fifo.map fun x => x.2.2.1.testBit 18) = (s.tdc[u].fifo.map fun x => x.2.2.1.testBit 18) ++ [true])
  ∧ (∀ (u : Fin 8) (s : State), s.tdc[u].early.isSome = true →
    Completes (.tdcOrderWindowEnd u) s fun t => t.tdc[u].early = none
      ∧ t.rd (R.TDC_CNT0_REJECT u) = min (s.rd (R.TDC_CNT0_REJECT u) + 1) (2 ^ 16 - 1))
  ∧ (∀ (u : Fin 8) (s : State), s.domOn dTIME = true → s.tdc[u].run = true → s.tdc[u].ref = 14 →
    s.tdc[u].sync = false →
    Completes (.tdcFire u) s fun t => t.tdc[u].start = some (s.tick 0))
  ∧ (∀ (u : Fin 8) (s : State), s.domOn dTIME = true →
    Completes (.tdcFifoPop u) s fun t => t.tdc[u].fifo = s.tdc[u].fifo.tail
      ∧ t.rd (R.TDC_LEVEL_LEVEL u) = (s.tdc[u].fifo.length - 1) % 2 ^ 7)
  ∧ ∀ (u : Fin 8) (s : State), s.domOn dTIME = true →
    Completes (.tdcStatClear u) s fun t => t.tdc[u].block = [] ∧ t.tdc[u].nflag = 0 ∧ t.tdc[u].fifo = s.tdc[u].fifo

/-- R58, R59, R98, R99, R101, R119: the events of one launch in their order: the fetch opens a course 256 ticks ahead
or skips a step whose slot is busy, the point of no return, the hop of the carrier, the gate current at tick 0 with
the stamp, the chirp, the Raman trigger and the end of the pulse. -/
def Obligations.LaunchSequence : Prop :=
  (∀ (n : Fin 4) (s : State), s.fetching n = true → s.ports[n].switch = none →
    tooSoon (slotLast s.ports[n] (s.sSlot n s.ports[n].step)) (s.tbu.raw + 256) (s.rtt n (s.route n)) = true →
    Completes (.launchFetch n) s fun t => t.rd (R.PPE_SKIPS_COUNT n) = min (s.rd (R.PPE_SKIPS_COUNT n) + 1) (2 ^ 32 - 1)
      ∧ t.ports[n].fetched = s.ports[n].fetched
      ∧ t.ports[n].nextRaw = some (s.tbu.raw + 256 + s.sDelay n s.ports[n].step)
      ∧ t.ports[n].step = (if s.on (R.PPE_STEP_LAST n s.ports[n].step) then s.patFirst n s.ports[n].watchPat
          else (s.ports[n].step + 1) % 512))
  ∧ (∀ (n : Fin 4) (s : State), s.pstate n = (if s.ports[n].watchPat then stWatch else stRun) →
    s.ports[n].switch = none →
    tooSoon (slotLast s.ports[n] (s.sSlot n s.ports[n].step)) (s.tbu.raw + 256) (s.rtt n (s.route n)) = false →
    Completes (.launchFetch n) s fun t => ∃ (u : State) (c : Course),
      t = (u.fetchCourse n c).stepNext n s.ports[n].step ∧ c.stamp = (s.now + 256) % 2 ^ 64
        ∧ c.slot = s.sSlot n s.ports[n].step ∧ c.amp = s.rd (R.PPE_STEP_AMP n s.ports[n].step)
        ∧ u.ports[n].fetched.map Fetch.course = s.ports[n].fetched.map Fetch.course ++ [c]
        ∧ u.ports[n].nextRaw = some (s.tbu.raw + 256 + s.sDelay n s.ports[n].step))
  ∧ (∀ (n : Fin 4) (f : Fetch) (r : List Fetch) (s : State), s.ports[n].fetched = f :: r → f.stage = 0 →
    Completes (.pointOfNoReturn n) s fun t => t.ports[n].fetched = { f with stage := 1 } :: r ∧ t.regs = s.regs)
  ∧ (∀ (n : Fin 4) (phase : BitVec 48) (f : Fetch) (r : List Fetch) (s : State), s.ports[n].fetched = f :: r →
    f.stage = 1 → s.syn.chirp[n] = none →
    Completes (.slotHop n phase) s fun t => ∃ u : State,
      t = u.checkTone n f.course.slot phase.toNat f.course.stamp ∧ u.syn.slot[n] = f.course.slot
        ∧ u.ports[n].fetched = { f with stage := 2 } :: r ∧ u.out = s.out ++ [.ball "CAR" n f.course.slot])
  ∧ (∀ (n : Fin 4) (f : Fetch) (r : List Fetch) (s : State), s.ports[n].fetched = f :: r → f.stage = 2 →
    Completes (.launch n) s fun t => ∃ u v : State, v = u.tdcRef (8 + n) (u.tick 0)
      ∧ t = v.presentSrc 4 (some n.val) (fun i =>
          v.rd (R.ACQ_TIN_MATCH i) == 0xFFF || v.rd (R.ACQ_TIN_MATCH i) == f.course.step) s.now
      ∧ u.rd (R.PPE_LAST_STAMP_STAMP n) = s.now % 2 ^ 64 ∧ u.rd (R.PPE_STAT_STEP n) = f.course.step % 2 ^ 9
      ∧ u.rd (R.PPE_LAUNCHES_COUNT n) = min (s.rd (R.PPE_LAUNCHES_COUNT n) + 1) (2 ^ 32 - 1)
      ∧ u.ports[n].pulse = some f.course.amp ∧ u.out = s.out ++ [.ball "GATE" n f.course.amp])
  ∧ (∀ (n : Fin 4) (q : Chirp) (r : List Chirp) (s : State), s.ports[n].chirps = q :: r → q.begins ≤ s.ddsNow + 1 →
    Completes (.chirpStart n) s fun t => t.ports[n].chirps = r ∧ t.out = s.out ++ [.ball "CHIRP" n q.prof]
      ∧ t.syn.chirp[n] = some q ∧ t.regs = s.regs)
  ∧ (∀ (n : Fin 4) (x : Trace) (r : List Trace) (s : State), s.ports[n].ramans = x :: r →
    Completes (.ramanTrigger n) s fun t => t.ports[n].ramans = r ∧ t.rrx[n].waiting = s.rrx[n].waiting ++ [x]
      ∧ t.ports[n].trigEnd = some (s.tbu.raw + s.rd (R.LDR_RM_CFG_RM_WIDTH n))
      ∧ t.out = s.out ++ [.ball "TRIG_RM" n (s.rd (R.LDR_RM_CFG_RM_WIDTH n))])
  ∧ ∀ (n : Fin 4) (a : Nat) (s : State), s.ports[n].pulse = some a →
    Completes (.gatePulseEnd n) s fun t => t.ports[n].pulse = none ∧ t.out = s.out ++ [.ball "GATE" n 0]
      ∧ RegsKept [(R.CDG_PORT_STAT_QUIET n).key] s t

/-- R100, R102, R116, R119, R432, R433: a gate check trips its port or only shows what it saw; the bias output moves
to its code; a near-end report below its threshold trips; a drain ends in IDLE; the changes between RUN and WATCH. -/
def Obligations.LaserDriver : Prop :=
  (∀ (n : Fin 4) (s : State), s.pulsing n 1 = true → s.on (R.LDR_CTRL_OPEN_EN n) = true →
    s.on R.RMD_ILK_CTRL_INTERLOCK_ALL = false → s.pstate n = stRun → s.ports[n].stopping = false →
    s.on (R.LDR_FAULT_GATE_OPEN n) = false →
    Completes (.gateOpen n) s fun t => ∃ (u : State) (w : List Nat),
      t = ((u.portDown n stHalted).showIlk).log 7 2 0x0080 (2 ^ n.val) w ∧ u.on (R.LDR_FAULT_GATE_OPEN n) = true
        ∧ u.bit R.RMD_ILK_EVENT_TRIP n = true ∧ u.ports[n].pulse = none)
  ∧ (∀ (n : Fin 4) (s : State), s.pulsing n 1 = true → s.on (R.LDR_CTRL_OPEN_EN n) = false →
    Completes (.gateOpen n) s fun t => t.on (R.LDR_GATE_SEEN_OPEN n) = true ∧ t.ports = s.ports)
  ∧ (∀ (n : Fin 4) (s : State), s.pulsing n 20 = true → 25 ≤ s.sWidth n (s.rd (R.PPE_STAT_STEP n)) →
    s.on (R.LDR_CTRL_SHORT_EN n) = true → s.on R.RMD_ILK_CTRL_INTERLOCK_ALL = false → s.pstate n = stRun →
    s.ports[n].stopping = false → s.on (R.LDR_FAULT_GATE_SHORT n) = false →
    Completes (.gateShort n) s fun t => ∃ (u : State) (w : List Nat),
      t = ((u.portDown n stHalted).showIlk).log 7 2 0x0080 (2 ^ n.val) w ∧ u.on (R.LDR_FAULT_GATE_SHORT n) = true
        ∧ u.bit R.RMD_ILK_EVENT_TRIP n = true ∧ u.ports[n].pulse = none)
  ∧ (∀ (n : Fin 4) (s : State), s.pulsing n 20 = true → 25 ≤ s.sWidth n (s.rd (R.PPE_STAT_STEP n)) →
    s.on (R.LDR_CTRL_SHORT_EN n) = false →
    Completes (.gateShort n) s fun t => t.on (R.LDR_GATE_SEEN_SHORT n) = true ∧ t.ports = s.ports)
  ∧ (∀ (n : Fin 4) (code : BitVec 16) (slew : BitVec 15) (s : State), s.domOn dCORE = true →
    Completes (.biasWrite n code slew) s fun t => t.rd (R.LDR_BIAS_CODE n) = code.toNat
      ∧ t.rd (R.LDR_BIAS_SLEW n) = (if slew = 0 then 1 else slew.toNat)
      ∧ t.on (R.LDR_BIAS_BUSY n) = (s.ports[n].biasTo.isSome || s.ports[n].biasOut != code.toNat)
      ∧ t.ports[n].biasOut = s.ports[n].biasOut
      ∧ (s.pstate n = stIdle ∨ s.pstate n = stHalted → t.ports[n].biasWait = 0)
      ∧ (s.pstate n = stRun ∨ s.pstate n = stWatch ∨ s.pstate n = stRouting → t.ports[n].biasWait = 1))
  ∧ (∀ (n : Fin 4) (s : State), s.ports[n].biasWait ≠ 0 → s.pstate n = stIdle ∨ s.pstate n = stHalted →
    Completes (.biasMoveStart n) s fun t => t.ports[n].biasWait = 0 ∧ t.ports[n].biasOut = s.ports[n].biasOut
      ∧ (s.ports[n].biasOut ≠ s.rd (R.LDR_BIAS_CODE n) → t.ports[n].biasTo = some (s.rd (R.LDR_BIAS_CODE n)))
      ∧ t.regs = s.regs)
  ∧ (∀ (n : Fin 4) (v : Nat) (s : State), s.ports[n].biasTo = some v →
    Completes (.biasSettled n) s fun t => t.on (R.LDR_BIAS_BUSY n) = (v != s.rd (R.LDR_BIAS_CODE n))
      ∧ t.ports[n].biasOut = v ∧ t.ports[n].biasTo = none ∧ t.out = s.out ++ [.ball "BIAS" n v])
  ∧ (∀ (n : Fin 4) (x : DWord) (xs : List Codes) (c : Course) (s : State), s.on (R.LDR_NE_CFG_EN n) = true →
    s.rd (R.LDR_NE_CFG_NE_START n) ≤ s.rd (R.LDR_NE_CFG_NE_END n) →
    (s.ports[n].near.find? fun d => d.stamp == x.toNat) = some c →
    s.rd (R.LDR_NE_THRESH_POWER n)
      ≤ s.nePower n c xs (s.rd (R.LDR_NE_CFG_NE_START n)) (s.rd (R.LDR_NE_CFG_NE_END n)) →
    Completes (.neReport n x xs) s fun t =>
      t.rd (R.LDR_NE_LAST_POWER n) = s.nePower n c xs (s.rd (R.LDR_NE_CFG_NE_START n)) (s.rd (R.LDR_NE_CFG_NE_END n))
      ∧ (∀ d ∈ t.ports[n].courses, d.stamp = x.toNat → d.ne = t.rd (R.LDR_NE_LAST_POWER n))
      ∧ t.ports[n].courses.length = s.ports[n].courses.length ∧ RegsKept [(R.LDR_NE_LAST_POWER n).key] s t)
  ∧ (∀ (n : Fin 4) (x : DWord) (xs : List Codes) (c : Course) (s : State), s.on (R.LDR_NE_CFG_EN n) = true →
    s.rd (R.LDR_NE_CFG_NE_START n) ≤ s.rd (R.LDR_NE_CFG_NE_END n) →
    (s.ports[n].near.find? fun d => d.stamp == x.toNat) = some c →
    s.nePower n c xs (s.rd (R.LDR_NE_CFG_NE_START n)) (s.rd (R.LDR_NE_CFG_NE_END n)) < s.rd (R.LDR_NE_THRESH_POWER n) →
    Completes (.neReport n x xs) s fun t => ∃ u : State,
      t = (u.lastLaunch n x.toNat).trip (fun m => if m = n then fFibre else 0)
        ∧ u.rd (R.LDR_NE_LAST_POWER n)
            = s.nePower n c xs (s.rd (R.LDR_NE_CFG_NE_START n)) (s.rd (R.LDR_NE_CFG_NE_END n)))
  ∧ (∀ (n : Fin 4) (s : State), s.pstate n = stDraining → s.ports[n].fetched = [] →
    Completes (.drainEnd n) s fun t => t = s.portDown n stIdle)
  ∧ (∀ (n : Fin 4) (s : State), s.sys.mode = 3 → s.pstate n = stRun → s.watchQuiet n = true →
    s.ports[n].switch ≠ some true →
    Completes (.watchReturn n) s fun t => t.ports[n].switch = some true ∧ t.bit R.PWR_EVENT_WATCH_RETURN 0 = true)
  ∧ ∀ (n : Fin 4) (s : State), s.bit R.EVE_WAKE_REQ n = true → s.pstate n = stWatch →
    s.ports[n].switch ≠ some false →
    Completes (.wake n) s fun t => t.ports[n].switch = some false ∧ t.bit R.PWR_EVENT_WAKE 0 = true

/-- R103, R104, R106, R107, R111, R514: row slots, the diagnosis of a driven element, shorts, the end of a scan, and
the forced state of an element. -/
def Obligations.RouteScan : Prop :=
  (∀ s : State, s.on R.RMD_SCAN_CTRL_EN = true → s.rmd.scanning = false →
    Completes .rowSlotStart s fun t => ∃ u : State, t = u.driveRow 0 ∧ u.rmd.scanning = true ∧ u.rmd.row = 0
      ∧ u.rmd.driven = 0 ∧ u.rmd.removed = (if s.rmd.clearAsked then 0 else s.rmd.removed))
  ∧ (∀ s : State, s.on R.RMD_SCAN_CTRL_EN = true → s.rmd.scanning = true → s.rmd.row < 7 →
    s.rmd.removed.testBit (s.rmd.row + 1) = false → s.rmd.shortRows = 0 → s.rmd.shortCols = 0 →
    Completes .rowSlotStart s fun t => t.rmd.row = s.rmd.row + 1
      ∧ t.out = s.out ++ [.ball "MROW" (s.rmd.row + 1)
          ((((rowElems (s.rmd.row + 1)).filter s.wanted).map fun e => 2 ^ (e % 8)).sum)])
  ∧ (∀ (e : Fin 64) (mA : Byte) (s : State), s.drivenNow e = true → 4000 ≤ s.drivePhase e →
    s.rmd.sampled.testBit e = false → s.shorted e = false → s.rd R.RMD_DIAG_OPEN_TH ≤ mA.toNat →
    Completes (.diagSample e mA) s fun t => t.rmd.sampled.testBit e = true ∧ t.rd (R.RMD_ELEM_STATE e) = 1)
  ∧ (∀ (e : Fin 64) (mA : Byte) (s : State), s.drivenNow e = true → 4000 ≤ s.drivePhase e →
    s.rmd.sampled.testBit e = false → s.shorted e = false → mA.toNat < s.rd R.RMD_DIAG_OPEN_TH →
    Completes (.diagSample e mA) s fun t => ∃ u : State, t = u.elemTrip e ∧ u.rmd.sampled.testBit e = true
      ∧ u.rd (R.RMD_ELEM_STATE e) = 3)
  ∧ (∀ (mA : Byte) (s : State), s.rmd.scanning = true → s.rmd.removed.testBit s.rmd.row = false →
    s.rd R.RMD_DIAG_ILIM < mA.toNat →
    Completes (.rowShort mA) s fun t => ∃ u : State,
      t = ((rowElems s.rmd.row).filter fun e => s.rmd.driven.testBit e).foldl (fun (s : State) e => s.setElem e 4) u
        ∧ u.rmd.removed.testBit s.rmd.row = true ∧ u.rmd.shortRows.testBit s.rmd.row = true
        ∧ u.out = s.out ++ [.ball "MROW" s.rmd.row 0])
  ∧ (∀ (c : Fin 8) (s : State), s.rmd.scanning = true → s.rmd.driven = 0 →
    Completes (.columnShort c) s fun t => t.rmd.shortCols.testBit c = true ∧ t.regs = s.regs)
  ∧ (∀ s : State, s.rmd.scanning = true → s.rmd.row = 7 → s.rmd.driven = 0 → s.rmd.removed = 0 →
    s.rmd.clearing = false → (∀ n : Fin 4, s.ports[n].routeStage ≠ 6 ∧ s.ports[n].routeStage ≠ 10
      ∧ s.ports[n].startStage ≠ 7) →
    Completes .scanEnd s fun t => t.rmd.scanning = false
      ∧ t.rd R.RMD_SCAN_COUNT_COUNT = (s.rd R.RMD_SCAN_COUNT_COUNT + 1) % 2 ^ 32
      ∧ ∀ e : Fin 64, t.rd (R.RMD_ELEM_STATE e) = 0)
  ∧ (∀ s : State, s.domOn dCORE = true → s.on R.RMD_SCAN_CTRL_EN = false →
    Completes (.scanEnable true) s fun t => t.on R.RMD_SCAN_CTRL_EN = true ∧ t.rd R.RMD_SCAN_COUNT_COUNT = 0
      ∧ t.rmd.scanning = false)
  ∧ (∀ s : State, s.domOn dCORE = true → s.on R.RMD_SCAN_CTRL_EN = true → s.rmd.clearAsked = false →
    s.rmd.clearing = false → (∀ n : Fin 4, s.pstate n ≠ stStarting) →
    Completes (.scanEnable false) s fun t => t.on R.RMD_SCAN_CTRL_EN = false ∧ t.rmd.scanning = false
      ∧ ∀ e : Fin 64, t.rd (R.RMD_ELEM_STATE e) = 0)
  ∧ ∀ (e : Fin 64) (v : BitVec 2) (s : State), s.domOn dCORE = true →
    Completes (.elemForceWrite e v) s fun t => t.rd (R.RMD_ELEM_FORCE e) = (if v = 3 then 0 else v.toNat)
      ∧ ∀ n : Fin 4, s.rd (R.RMD_ELEM_FORCE e) ≠ (if v = 3 then 0 else v.toNat) → s.launches n = true →
          (s.routeOn n (s.route n)).testBit e = true → t.ports[n].causes = s.ports[n].causes ||| causeRoute

/-- R105, R109, R113, R117, R118, R516: a route selection is taken or refused, its change goes on, the loop of the
interlock opens, qualifies and closes, and CLEAR clears what it clears at once. -/
def Obligations.RouteChangesAndInterlock : Prop :=
  (∀ (n : Fin 4) (i : Fin 16) (s : State), s.domOn (dPORT n) = true → s.routeRefusal n i = OK → s.pstate n = stIdle →
    Completes (.routeSelWrite n i) s fun t => t.rd (R.RMD_ROUTE_SEL_SEL n) = i.val
      ∧ t.on (R.RMD_ROUTE_STAT_BUSY n) = true ∧ t.ports[n].routeStage = 7 ∧ t.ports[n].routeNew = i.val)
  ∧ (∀ (n : Fin 4) (i : Fin 16) (s : State), s.domOn (dPORT n) = true → s.routeRefusal n i = OK → s.pstate n ≠ stIdle →
    Completes (.routeSelWrite n i) s fun t => ∃ u : State, t.regs = ((u.pause n).setPst n stRouting).regs
      ∧ u.rd (R.RMD_ROUTE_SEL_SEL n) = i.val ∧ u.on (R.RMD_ROUTE_STAT_BUSY n) = true
      ∧ t.ports[n].routeStage = 1 ∧ t.ports[n].routeOld = s.pstate n ∧ t.ports[n].routeNew = i.val)
  ∧ (∀ (n : Fin 4) (i : Fin 16) (s : State), s.domOn (dPORT n) = true → s.routeRefusal n i ≠ OK →
    Completes (.routeSelWrite n i) s fun t => t.rd (R.RMD_ROUTE_SEL_SEL n) = s.rd (R.RMD_ROUTE_SEL_SEL n)
      ∧ t.on (R.PPE_EVENT_ROUTE_REJECT n) = true ∧ t.ports = s.ports)
  ∧ (∀ (n : Fin 4) (s : State), s.ports[n].routeStage = 1 → s.ports[n].fetched = [] →
    Completes (.routeDrainEnd n) s fun t => t.ports[n].routeStage = 2)
  ∧ (∀ (n : Fin 4) (s : State), s.pstate n ≠ stStarting → s.ports[n].routeStage = 3 →
    Completes (.routeSettleEnd n) s fun t => t.ports[n].routeStage = 4
      ∧ t.rmd.want = s.rmd.want ||| (s.routeOn n (s.route n) ^^^ s.routeOn n s.ports[n].routeNew))
  ∧ (∀ (n : Fin 4) (s : State), s.pstate n = stStarting → s.ports[n].startStage = 3 →
    Completes (.routeSettleEnd n) s fun t => t.ports[n].startStage = 4
      ∧ t.rmd.want = s.rmd.want ||| s.routeOn n (s.route n))
  ∧ (∀ s : State, s.domOn dCORE = true → s.sys.phase = .up → s.rd R.RMD_ILK_STAT_LOOP = 0 →
    s.on R.RMD_ILK_CTRL_SW_STOP = false →
    Completes .ilkInLow s fun t => t.on R.RMD_ILK_STAT_ILK_IN = false ∧ t.rd R.RMD_ILK_STAT_LOOP = 1)
  ∧ (∀ s : State, s.domOn dCORE = true → s.rd R.RMD_ILK_STAT_LOOP ≠ 2 →
    Completes .ilkInHigh s fun t => t.on R.RMD_ILK_STAT_ILK_IN = true ∧ t.rd R.RMD_ILK_STAT_LOOP = 0)
  ∧ (∀ s : State, s.domOn dCORE = true → s.rd R.RMD_ILK_STAT_LOOP = 2 →
    Completes .ilkInHigh s fun t => ∃ u : State, t = (u.trip fun _ => fLoop).showIlk ∧ u.rd R.RMD_ILK_STAT_LOOP = 0
      ∧ u.on R.RMD_ILK_EVENT_LOOP_OPEN = true ∧ u.on R.RMD_ILK_STAT_ILK_IN = true)
  ∧ (∀ s : State, s.rd R.RMD_ILK_STAT_LOOP = 1 →
    Completes .loopQualified s fun t => t.rd R.RMD_ILK_STAT_LOOP = 2
      ∧ ((∀ n : Fin 4, s.faults n = 0) → t.rd R.RMD_ILK_STAT_ILK_OUT = 0 ∧ t.rd R.RMD_ILK_STAT_FAULT = 0))
  ∧ (∀ s : State, s.domOn dCORE = true → s.rd R.RMD_ILK_STAT_LOOP ≠ 2 →
    Completes (.swStopWrite true) s fun t => t.on R.RMD_ILK_CTRL_SW_STOP = true ∧ t.rd R.RMD_ILK_STAT_LOOP = 0)
  ∧ (∀ s : State, s.domOn dCORE = true → s.sys.phase = .up → s.rd R.RMD_ILK_STAT_LOOP = 0 →
    s.on R.RMD_ILK_STAT_ILK_IN = false →
    Completes (.swStopWrite false) s fun t => t.on R.RMD_ILK_CTRL_SW_STOP = false ∧ t.rd R.RMD_ILK_STAT_LOOP = 1)
  ∧ ∀ s : State, s.domOn dCORE = true → s.on R.RMD_SCAN_CTRL_EN = false → s.rmd.clearWait = [] →
    Completes .ilkCtrlClear s fun t => ∀ n : Fin 4, t.on (R.LDR_FAULT_GATE_OPEN n) = false
      ∧ t.on (R.LDR_FAULT_GATE_SHORT n) = false ∧ t.on (R.LDR_FAULT_FIBRE_BREAK n) = false
      ∧ (s.loopClosed = true → t.on (R.LDR_FAULT_LOOP n) = false)
      ∧ t.on (R.LDR_FAULT_ROUTE n) = s.on (R.LDR_FAULT_ROUTE n)

/-- R125, R129, R130, R132 to R134, R136, R236: codes of a lane, the input clamp, the rate, READY, the quiet windows,
the steps of a calibration pass and the PRBS checker of the digitiser. `calEnd` is what plumb does at the end of a
pass. -/
def Obligations.DigitiserLanes : Prop :=
  (∀ (n k : Fin 4) (code : BitVec 12) (s : State), s.portOn n = true → (code.toInt = -2048 ∨ code.toInt = 2047) →
    Completes (.sampleClip n k code) s fun t => ∃ u v : State, v = u.presentSrc 8 (some n.val) (fun _ => true) s.now
      ∧ t = (if v.rd (R.CDG_PORT_WARN_WARN_TH n) ≤ code.toInt.natAbs then v.count (R.CDG_LANE_WARNCNT_COUNT n k) else v)
      ∧ u.rd (R.CDG_LANE_CLIP_COUNT n k) = min (s.rd (R.CDG_LANE_CLIP_COUNT n k) + 1) (2 ^ 32 - 1)
      ∧ u.bit R.CDG_EVENT_CLIP (4 * n + k) = true
      ∧ (s.rd (R.CDG_LANE_CLIP_COUNT n k) = 0 → u.rd (R.CDG_LANE_FIRST_CLIP_STAMP n k) = s.now % 2 ^ 64)
      ∧ (s.rd (R.CDG_LANE_CLIP_COUNT n k) ≠ 0 →
          u.rd (R.CDG_LANE_FIRST_CLIP_STAMP n k) = s.rd (R.CDG_LANE_FIRST_CLIP_STAMP n k)))
  ∧ (∀ (n k : Fin 4) (code : BitVec 12) (s : State), s.portOn n = true → -2048 < code.toInt → code.toInt < 2047 →
    Completes (.sampleClip n k code) s fun t =>
      t.rd (R.CDG_LANE_CLIP_COUNT n k) = s.rd (R.CDG_LANE_CLIP_COUNT n k)
      ∧ t.rd (R.CDG_LANE_WARNCNT_COUNT n k) = (if s.rd (R.CDG_PORT_WARN_WARN_TH n) ≤ code.toInt.natAbs
          then min (s.rd (R.CDG_LANE_WARNCNT_COUNT n k) + 1) (2 ^ 32 - 1) else s.rd (R.CDG_LANE_WARNCNT_COUNT n k)))
  ∧ (∀ (n k : Fin 4) (s : State), s.portOn n = true → (s.eraNow n).hovl.testBit k = false →
    Completes (.hardOverload n k) s fun t => (t.eraNow n).hovl.testBit k = true
      ∧ t.rd (R.CDG_LANE_HOVL_COUNT n k) = min (s.rd (R.CDG_LANE_HOVL_COUNT n k) + 1) (2 ^ 16 - 1)
      ∧ t.bit R.CDG_EVENT_HARD_OVL n = true)
  ∧ (∀ (n k : Fin 4) (s : State),
    Completes (.hardOverloadEnd n k) s fun t => (t.eraNow n).hovl.testBit k = false ∧ t.regs = s.regs)
  ∧ (∀ (n : Fin 4) (s : State), s.pstate n = stWatch → s.runOver n = true →
    Completes (.rateReduce n) s fun t => t.on (R.CDG_PORT_STAT_FULL_RATE n) = false)
  ∧ (∀ (n : Fin 4) (s : State), s.portOn n = true →
    Completes (.cdgReady n) s fun t => t.on (R.CDG_PORT_STAT_READY n) = true ∧ t.ports[n].cdgReady = true
      ∧ t.ports[n].cdgForce = s.mgt.cdgSel[n])
  ∧ (∀ (n : Fin 4) (xs : List Codes) (ram : List (BitVec 14 × BitVec 14)) (l : List (Nat × Int)) (s : State),
    s.portOn n = true → s.laneSpread n xs (2 ^ (s.rd R.CDG_CTRL_QUIET_WIN + 6)) = l →
    (∀ e ∈ l, e.1 ≤ s.rd R.CDG_CTRL_QUIET_TH) → s.ports[n].pulse = none → s.launchOver n = true →
    Completes (.quietWindowEnd n xs ram) s fun t => t.on (R.CDG_PORT_STAT_QUIET n) = true
      ∧ ∀ (k : Fin 4) (x : Nat × Int), l[k.val]? = some x → t.rd (R.CDG_LANE_RMS_RMS n k) = Arith.satNat 16 x.1
          ∧ t.rd (R.CDG_LANE_RMS_MEAN n k) = Arith.ofSigned 16 (Arith.satSigned 16 x.2))
  ∧ (∀ (n : Fin 4) (s : State), s.mgt.calRun = some n.val → s.mgt.calIn = false → s.portOn n = true →
    s.cdgStepFits n = true →
    Completes (.cdgCalStepStart n) s fun t => t.mgt = { s.mgt with calIn := true } ∧ t.regs = s.regs)
  ∧ (∀ (n : Fin 4) (xs : List Codes) (s : State), s.mgt.calRun = some n.val → s.mgt.calIn = true →
    (∃ r ∈ s.laneSpread n xs 256, s.rd R.CDG_CTRL_QUIET_TH < r.1) →
    Completes (.cdgQuietCheckEnd n xs) s fun t => ∃ u : State, t = u.calEnd n 1 ∧ u.ports[n].cdgTrial = []
      ∧ u.rd (R.CDG_PORT_STAT_CAL_RESULT n) = 2 ∧ u.bit R.CDG_EVENT_CAL_FAIL n = true)
  ∧ (∀ (n : Fin 4) (sel : List Nat) (s : State), s.mgt.calRun = some n.val → s.mgt.calIn = true →
    s.mgt.calStep < 15 →
    Completes (.cdgCalStepEnd n 0 sel) s fun t => t.ports[n].cdgTrial = s.ports[n].cdgTrial
        ++ [(List.range 4).map fun k => sel.getD k 0 % (if s.mgt.calStep < 8 then 4 else 64)]
      ∧ t.mgt.calStep = s.mgt.calStep + 1 ∧ t.mgt.calIn = false ∧ t.regs = s.regs ∧ t.mgt.cdgSel = s.mgt.cdgSel)
  ∧ (∀ (n : Fin 4) (sel : List Nat) (s : State), s.mgt.calRun = some n.val → s.mgt.calIn = true →
    s.mgt.calStep = 15 →
    Completes (.cdgCalStepEnd n 0 sel) s fun t => ∃ u : State, t = u.calEnd n 0
      ∧ u.mgt.cdgSel[n] = s.ports[n].cdgTrial ++ [(List.range 4).map fun k => sel.getD k 0 % 64]
      ∧ u.ports[n].cdgForce = u.mgt.cdgSel[n] ∧ u.rd (R.CDG_PORT_STAT_CAL_RESULT n) = 1
      ∧ u.on (R.CDG_PORT_STAT_CAL_STALE n) = false ∧ u.rd (R.CDG_PORT_CAL_STAMP_STAMP n) = s.now % 2 ^ 64)
  ∧ (∀ (n : Fin 4) (kind : Fin 3) (sel : List Nat) (s : State), s.mgt.calRun = some n.val → s.mgt.calIn = true →
    kind ≠ 0 →
    Completes (.cdgCalStepEnd n kind sel) s fun t => ∃ u : State, t = u.calEnd n kind ∧ u.mgt.cdgSel = s.mgt.cdgSel
      ∧ u.rd (R.CDG_PORT_STAT_CAL_RESULT n) = 2 ∧ u.bit R.CDG_EVENT_CAL_FAIL n = true)
  ∧ ∀ (n k : Fin 4) (s : State), s.rd (R.CDG_LANE_CFG_TEST n k) = 5 →
    Completes (.prbsError n k) s fun t =>
      t.rd (R.CDG_LANE_PRBS_ERR_COUNT n k) = min (s.rd (R.CDG_LANE_PRBS_ERR_COUNT n k) + 1) (2 ^ 32 - 1)
      ∧ t.ports[n].prbsSeen.testBit k = true
      ∧ (s.ports[n].prbsSeen.testBit k = false → t.bit R.CDG_EVENT_PRBS_ERR n = true)

/-- R147 to R149, R153, R154, R156 to R158, R160 to R163: a visit takes the next sequence number and writes only
records of its port; a commit numbers the course and closes an episode; a cause loses every pending course and winds
the sequence number back; a release hands the course to ZON. `pipeNext` is what an event of the pipeline lets go on.
-/
def Obligations.CoursePipeline : Prop :=
  (∀ (n : Fin 4) (xs : List Codes) (ecc : Ecc) (c : Course) (s : State), s.nextVisit n = some c → recCount c ≤ 149796 →
    Completes (.courseVisitStart n xs ecc) s fun t =>
      t.rd (R.CPL_STAT_NEXT_SEQ n) = (s.rd (R.CPL_STAT_NEXT_SEQ n) + 1) % 2 ^ 8
      ∧ (∃ d ∈ t.ports[n].courses, d.seq = some (s.rd (R.CPL_STAT_NEXT_SEQ n)) ∧ d.stamp = c.stamp)
      ∧ (∀ a, a < 0x800000 * n.val ∨ 0x800000 * (n.val + 1) ≤ a →
          Mem.read t.sram State.sramFill a = Mem.read s.sram State.sramFill a)
      ∧ t.dram = s.dram ∧ t.flash = s.flash)
  ∧ (∀ (n : Fin 4) (c : Course) (r : List Course) (q : Nat) (s : State), s.ports[n].courses = c :: r → c.seq = some q →
    s.ports[n].episode = none →
    Completes (.courseCommit n) s fun t => ∃ u : State, t = u.pipeNext n ∧ u.ports[n].courses = r
      ∧ u.rd (R.CPL_STAT_COMMIT_SEQ n) = q % 2 ^ 8 ∧ u.rd (R.CPL_LAST_COMMIT_STAMP n) = c.stamp % 2 ^ 64
      ∧ u.rd (R.CPL_COURSES_COUNT n) = (s.rd (R.CPL_COURSES_COUNT n) + 1) % 2 ^ 32
      ∧ u.rd (R.CPL_FADED_COUNT n) = min (s.rd (R.CPL_FADED_COUNT n) + c.faded) (2 ^ 32 - 1)
      ∧ u.rd (R.CPL_SATCNT_COUNT n) = min (s.rd (R.CPL_SATCNT_COUNT n) + c.satn) (2 ^ 32 - 1)
      ∧ u.ports[n].outq = s.ports[n].outq
          ++ [.course { c with number := s.rd (R.CPL_COURSES_COUNT n), gaps := s.ports[n].gapNo }])
  ∧ (∀ (n : Fin 4) (c : Course) (r : List Course) (q : Nat) (e : Episode) (s : State), s.ports[n].courses = c :: r →
    c.seq = some q → s.ports[n].episode = some e → e.last < c.stamp →
    Completes (.courseCommit n) s fun t => ∃ u : State, t = u.pipeNext n ∧ u.ports[n].episode = none
      ∧ u.on (R.CPL_EVENT_GAP n) = true ∧ u.ports[n].gapNo = s.ports[n].gapNo + 1
      ∧ u.rd (R.CPL_GAPS_COUNT n) = min (s.rd (R.CPL_GAPS_COUNT n) + 1) (2 ^ 32 - 1)
      ∧ u.rd (R.CPL_GAP_FIRST_STAMP n) = e.first % 2 ^ 64 ∧ u.rd (R.CPL_GAP_LAST_STAMP n) = e.last % 2 ^ 64
      ∧ u.rd (R.CPL_GAP_CAUSES_CAUSES n) = e.causes % 2 ^ 8)
  ∧ (∀ (n : Fin 4) (m : Nat) (s : State), s.pstate n = stRun → s.ports[n].causes = m → m ≠ 0 →
    s.ports[n].checkFail = [] →
    Completes (.monitorCause n) s fun t => ∃ u : State, t = u.pipeNext n ∧ u.ports[n].causes = 0
      ∧ u.ports[n].courses = []
      ∧ u.rd (R.CPL_LOST_COUNT n) = min (s.rd (R.CPL_LOST_COUNT n) + s.ports[n].courses.length)
          (if s.ports[n].courses = [] then s.rd (R.CPL_LOST_COUNT n) else 2 ^ 32 - 1)
      ∧ (∀ q, s.ports[n].courses.findSome? Course.seq = some q → u.rd (R.CPL_STAT_NEXT_SEQ n) = q % 2 ^ 8)
      ∧ (s.ports[n].courses ≠ [] → u.on (R.CPL_EVENT_ROLLBACK n) = true ∧ u.ports[n].episode.isSome = true)
      ∧ (∀ e, u.ports[n].episode = some e → e.causes &&& m = m))
  ∧ (∀ (n : Fin 4) (ecc : Ecc) (c : Course) (r : List CplItem) (s : State), s.ports[n].outq = .course c :: r →
    Completes (.releaseStart n ecc) s fun t => t.on (R.CPL_STAT_RELEASING n) = true
      ∧ ∃ (d : Course) (z : List ZEntry) (vals : List Nat) (l : List LinkItem),
          t.ports[n].link = s.ports[n].link ++ .course d (s.rd R.ZON_STAT_GEN) (s.ngOf n) z vals :: l
          ∧ d.stamp = c.stamp
          ∧ vals.length = recCount c ∧ z = zapply (zenabled s.zon.active) n c.route)
  ∧ ∀ (n : Fin 4) (s : State), s.pstate n = stRun →
    Completes (.releaseEnd n) s fun t => ∃ u : State, t = u.pipeNext n ∧ u.ports[n].releasing = false
      ∧ u.on (R.CPL_STAT_RELEASING n) = false ∧ u.sram = s.sram

/-- R169, R172 to R176, R179, R181, R183, R518: group index, commit and discard of the zone table while ZON is or is
not busy, and the points of a course. `zonReply` answers the command that waits and `advanceAll` lets starts go on. -/
def Obligations.ZoneTable : Prop :=
  (∀ (n : Fin 4) (ng : BitVec 24) (s : State), s.domOn dCORE = true →
    Completes (.zonNgWrite n ng) s fun t =>
      if s.pstate n = stIdle ∧ s.zon.busy = 0 then
        t.zon = { s.zon with ng := some (n.val, ng.toNat), busy := 3 } ∧ t.on R.ZON_STAT_BUSY = true
      else t.zon = s.zon ∧ t.on R.ZON_EVENT_WRITE_REJECT = true
        ∧ t.rd (R.ZON_PORT_NG_NG n) = s.rd (R.ZON_PORT_NG_NG n))
  ∧ (∀ (n : Fin 4) (v : Nat) (s : State), s.zon.busy = 3 → s.zon.ng = some (n.val, v) →
    (∀ z ∈ zenabled s.zon.active ++ zenabled s.zonShadow, z.port = n.val → zbad2 v z = false) →
    Completes .ngRecomputeDone s fun t => ∃ u : State, t = (u.zonReply none []).advanceAll ∧ u.zon.busy = 0
      ∧ u.rd (R.ZON_PORT_NG_NG n) = v % 2 ^ 24 ∧ u.rd R.ZON_STAT_GEN = (s.rd R.ZON_STAT_GEN + 1) % 2 ^ 16
      ∧ u.on R.ZON_STAT_BUSY = false ∧ u.rd R.ZON_CHECK_CHECK = 0)
  ∧ (∀ (n : Fin 4) (v : Nat) (s : State), s.zon.busy = 3 → s.zon.ng = some (n.val, v) →
    (∃ z ∈ zenabled s.zon.active ++ zenabled s.zonShadow, z.port = n.val ∧ zbad2 v z = true) →
    Completes .ngRecomputeDone s fun t => ∃ (u : State) (c : CheckFail),
      t = (u.zonReply (some c) []).advanceAll ∧ c.1 = 2 ∧ c.2.2 = E_ZONE_ENTRY ∧ u.zon.busy = 0
      ∧ u.rd (R.ZON_PORT_NG_NG n) = s.rd (R.ZON_PORT_NG_NG n) ∧ u.rd R.ZON_STAT_GEN = s.rd R.ZON_STAT_GEN
      ∧ u.on R.ZON_EVENT_COMMIT_FAIL = true ∧ u.rd R.ZON_CHECK_CHECK = 2)
  ∧ (∀ s : State, s.domOn dCORE = true →
    Completes .zonCtrlCommit s fun t =>
      if s.zon.busy = 0 then t.zon = { s.zon with busy := 1 } ∧ t.on R.ZON_STAT_BUSY = true
      else t.zon = s.zon ∧ t.on R.ZON_EVENT_WRITE_REJECT = true)
  ∧ (∀ s : State, s.zon.busy = 1 → (s.setBusy 0).zcheck (zenabled s.zonShadow) = none →
    Completes .zoneCommitDone s fun t => ∃ u : State,
      t = (u.zonReply none [u.rd R.ZON_STAT_GEN % 65536]).advanceAll ∧ u.zon.active = s.zonShadow ∧ u.zon.busy = 0
      ∧ u.rd R.ZON_STAT_GEN = (s.rd R.ZON_STAT_GEN + 1) % 2 ^ 16 ∧ u.on R.ZON_EVENT_COMMIT_DONE = true
      ∧ u.rd R.ZON_CHECK_CHECK = 0)
  ∧ (∀ (c : CheckFail) (s : State), s.zon.busy = 1 → (s.setBusy 0).zcheck (zenabled s.zonShadow) = some c →
    Completes .zoneCommitDone s fun t => ∃ u : State,
      t = (u.zonReply (some c) [u.rd R.ZON_STAT_GEN % 65536]).advanceAll
      ∧ u.zon = { s.zon with busy := 0 } ∧ u.rd R.ZON_STAT_GEN = s.rd R.ZON_STAT_GEN
      ∧ u.on R.ZON_EVENT_COMMIT_FAIL = true ∧ u.rd R.ZON_CHECK_CHECK = c.1 % 2 ^ 4
      ∧ u.rd R.ZON_CHECK_ENTRY = c.2.1 % 2 ^ 12 ∧ u.rd R.ZON_CHECK_STATUS = c.2.2 % 2 ^ 16)
  ∧ (∀ s : State, s.domOn dCORE = true →
    Completes .zonCtrlDiscard s fun t =>
      if s.zon.busy = 0 then t.zon = { s.zon with busy := 2 } ∧ t.on R.ZON_STAT_BUSY = true
      else t.zon = s.zon ∧ t.on R.ZON_EVENT_WRITE_REJECT = true)
  ∧ (∀ s : State, s.zon.busy = 2 → Bank.wf s.zon.active = true →
    Completes .zoneDiscardDone s fun t => ∃ u : State, t = (u.zonReply none []).advanceAll
      ∧ u.zon = { s.zon with busy := 0 }
      ∧ ∀ f : Field, zonKey f.key = true → u.rd f = Bank.get s.zon.active f.key f.reset)
  ∧ ∀ (n : Fin 4) (c : Course) (gen ng : Nat) (z : List ZEntry) (vals : List Nat) (r : List LinkItem) (s : State),
    s.ports[n].link = .course c gen ng z vals :: r →
    Completes (.zonCourse n) s fun t => t.ports[n].zonPrev = some (c.stamp, c.watch)
      ∧ t.rd (R.ZON_PORT_GEN_GEN n) = gen % 2 ^ 16
      ∧ ∃ (pts : List Point) (l : List PointItem),
          t.ports[n].points = s.ports[n].points ++ .course c gen z pts :: l
          ∧ pts.length = (zplaces ng z).length ∧ (c.fresh = true → ∀ p ∈ pts, p.value < 256)

/-- R186, R197 to R203, R205 to R211, R213: the FDC takes the courses and GAP records of its link, SYNC starts the
stages anew, EVE reads the frames, drops a damaged one and counts it, a threshold set is committed by its word 0, and
CANCEL takes wake requests back. R210 to R212: what one detector result does to the alarm of a privileged zone that is
IDLE, ARMING, in ALARM or CLEARING: no hot result leaves or makes it IDLE, ON_HOLD results raise it with the stamp of
the first, a cold result starts CLEARING or clears it, a warm one takes it back; each RAISE and CLEAR is one record
more. -/
def Obligations.FilterEventsAndAlarms : Prop :=
  (
  (∀ (n : Fin 4) (ecc : Ecc) (c : Course) (gen : Nat) (z : List ZEntry) (pts : List Point) (r : List PointItem)
    (s : State), s.ports[n].points = .course c gen z pts :: r →
    Completes (.fdcCourse n ecc) s fun t => ∃ u : State, t = u.fdcSettle n ∧ u.ports[n].points = r
      ∧ u.ports[n].fdc.gen = some gen ∧ u.ports[n].fdc.zones = z ∧ u.on (R.FDC_STAT_BYPASS n) = c.watch
      ∧ u.ports[n].fdc.sync = false)
  ∧ (∀ (n : Fin 4) (g : Gap) (r : List PointItem) (s : State), s.ports[n].points = .gap g :: r →
    s.rd (R.FDC_CTRL_GAP_FILL n) < g.lost →
    Completes (.fdcGap n) s fun t => ∃ u : State, t = u.fdcSettle n ∧ u.ports[n].points = r
      ∧ u.ports[n].fdc.sync = true ∧ u.on (R.FDC_EVENT_GAP_RESET n) = true)
  ∧ (∀ (n : Fin 4) (g : Gap) (r : List PointItem) (s : State), s.ports[n].points = .gap g :: r →
    g.lost ≤ s.rd (R.FDC_CTRL_GAP_FILL n) → s.pstate n = stRun → s.on (R.FDC_STAT_BYPASS n) = false →
    Completes (.fdcGap n) s fun t => ∃ u : State, u.ports[n].points = r ∧ u.ports[n].fdc.sync = s.ports[n].fdc.sync
      ∧ t = ((fillStamps g).foldl (fun (v : State) x => v.feedAll n x false fun _ => { v := 0, fl := flGapfill }) u).fdcSettle n)
  ∧ (∀ (n : Fin 4) (s : State), s.domOn dCORE = true →
    Completes (.fdcSync n) s fun t => t = s.modFdc n fun q => { q with sync := true })
  ∧ (∀ (n : Fin 4) (ecc : Ecc) (f : Frame) (r : List FqItem) (s : State),
    s.ports[n].fdc.queue = { frame := some f, gap := none, wait := 1 } :: r →
    s.ports[n].fdc.inDram = false ∨ s.on R.MEM_DRAM_CFG_ECC_EN = true →
    Completes (.eveFrame n true ecc) s fun t =>
      t.rd (R.FDC_DROPS_COUNT n) = min (s.rd (R.FDC_DROPS_COUNT n) + 1) (2 ^ 32 - 1)
      ∧ t.on (R.FDC_EVENT_DROP n) = true ∧ t.on R.MEM_EVENT_UE = true
      ∧ t.rd R.MEM_ERR_UE_COUNT = min (s.rd R.MEM_ERR_UE_COUNT + 1) (2 ^ R.MEM_ERR_UE_COUNT.width - 1)
      ∧ t.eve.points = s.eve.points
      ∧ t.ports[n].fdc.queue = r.filter fun x => x.frame != some f)
  ∧ (∀ (n : Fin 4) (bad : Bool) (ecc : Ecc) (f : Frame) (r : List FqItem) (s : State),
    s.ports[n].fdc.queue = { frame := some f, gap := none, wait := 1 } :: r →
    bad = false ∨ s.ports[n].fdc.inDram = true ∧ s.on R.MEM_DRAM_CFG_ECC_EN = false →
    Completes (.eveFrame n bad ecc) s fun t => ∃ (u v w : State) (rs : List DResult),
      u.ports[n].fdc.queue = r ∧ u.eve = { s.eve with seen := s.eve.seen.set n f.stamp } ∧ (v, rs) = u.detectAll n f ecc.ue
      ∧ w = (List.range 16).foldl (fun (x : State) d => x.emitFrames n f d rs) v
      ∧ t = (f.zones.filter ZEntry.priv).foldl
          (fun (x : State) z => x.zoneResult n z f.stamp f.watch (rs.filter fun r => r.entry == z.e)) w)
  ∧ (∀ (i : Byte) (s : State), s.domOn dCORE = true → s.on (R.EVE_TSET_EN i.toNat) = true →
    Completes (.thresholdCommit i) s fun t => t.tset (R.EVE_TSET_EN i.toNat) = s.rd (R.EVE_TSET_EN i.toNat)
      ∧ t.tset (R.EVE_TSET_HIGH i.toNat) = s.rd (R.EVE_TSET_HIGH i.toNat)
      ∧ t.tset (R.EVE_TSET_LOW i.toNat) = min (s.rd (R.EVE_TSET_LOW i.toNat)) (s.rd (R.EVE_TSET_HIGH i.toNat)) % 2 ^ 24
      ∧ t.tset (R.EVE_TSET_W_LOW i.toNat)
          = min (s.rd (R.EVE_TSET_W_LOW i.toNat)) (s.rd (R.EVE_TSET_W_HIGH i.toNat)) % 2 ^ 24
      ∧ t.tset (R.EVE_TSET_ON_HOLD i.toNat) = s.rd (R.EVE_TSET_ON_HOLD i.toNat) ∧ t.eve.alarms = s.eve.alarms)
  ∧ (∀ (i : Byte) (s : State), s.domOn dCORE = true → s.on (R.EVE_TSET_EN i.toNat) = false →
    Completes (.thresholdCommit i) s fun t => ∃ u : State, t = u.zoneEnd i.toNat 3
      ∧ u.tset (R.EVE_TSET_EN i.toNat) = 0 ∧ u.eve.alarms = s.eve.alarms)
  ∧ ∀ (mask : BitVec 4) (s : State), s.domOn dCORE = true →
    Completes (.wakeCancel mask) s fun t => ∀ n : Fin 4,
      t.bit R.EVE_WAKE_REQ n = (s.bit R.EVE_WAKE_REQ n && !mask.toNat.testBit n))
  ∧ (
  ∀ (n : Fin 4) (z : ZEntry) (x : Nat) (d : DResult) (s : State), s.tset (R.EVE_TSET_EN z.pidx) ≠ 0 →
    s.tset (R.EVE_TSET_MIN_PTS z.pidx) = 1 → s.tset (R.EVE_TSET_QTY z.pidx) = 0 → z.pidx < 256 → d.fl = 0 →
    let i := z.pidx
    let hot := decide (s.tset (R.EVE_TSET_HIGH i) ≤ d.peak)
    let warm := decide (s.tset (R.EVE_TSET_LOW i) ≤ d.peak)
    let st := s.rd (R.EVE_ZSTAT_STATE i)
    let cnt := s.rd (R.EVE_ZSTAT_COUNT i)
    let t := s.zoneResult n z x false [d]
    (st = zIdle → hot = false → t.rd (R.EVE_ZSTAT_STATE i) = zIdle ∧ t.rd R.EVE_SEQ_COUNT = s.rd R.EVE_SEQ_COUNT)
    ∧ (st = zIdle → hot = true → s.tset (R.EVE_TSET_ON_HOLD i) ≠ 1 →
        t.rd (R.EVE_ZSTAT_STATE i) = zArming ∧ t.rd (R.EVE_ZSTAT_COUNT i) = 1 ∧ (t.alarmOf i).onset = x)
    ∧ (st = zIdle → hot = true → s.tset (R.EVE_TSET_ON_HOLD i) = 1 →
        t.rd (R.EVE_ZSTAT_STATE i) = zAlarm ∧ t.rd R.EVE_SEQ_COUNT = (s.rd R.EVE_SEQ_COUNT + 1) % 2 ^ 32
        ∧ t.on R.EVE_EVENT_RAISE = true)
    ∧ (st = zArming → (s.alarmOf i).watch = some false → hot = true → cnt + 1 = s.tset (R.EVE_TSET_ON_HOLD i) →
        t.rd (R.EVE_ZSTAT_STATE i) = zAlarm ∧ (t.alarmOf i).onset = (s.alarmOf i).onset ∧ t.on R.EVE_EVENT_RAISE = true)
    ∧ (st = zArming → hot = false → t.rd (R.EVE_ZSTAT_STATE i) = zIdle)
    ∧ (st = zAlarm → warm = false → s.tset (R.EVE_TSET_OFF_HOLD i) ≠ 1 → t.rd (R.EVE_ZSTAT_STATE i) = zClearing
        ∧ t.rd (R.EVE_ZSTAT_COUNT i) = 1 ∧ t.rd R.EVE_SEQ_COUNT = s.rd R.EVE_SEQ_COUNT)
    ∧ (st = zAlarm → warm = false → s.tset (R.EVE_TSET_OFF_HOLD i) = 1 → t.rd (R.EVE_ZSTAT_STATE i) = zIdle
        ∧ t.on R.EVE_EVENT_CLEAR = true)
    ∧ (st = zClearing → warm = true → t.rd (R.EVE_ZSTAT_STATE i) = zAlarm)
    ∧ (st = zClearing → warm = false → cnt + 1 = s.tset (R.EVE_TSET_OFF_HOLD i) →
        t.rd (R.EVE_ZSTAT_STATE i) = zIdle ∧ t.on R.EVE_EVENT_CLEAR = true))

/-- R217, R222, R223, R229, R231, R237, R238: the trace in hand, its acceptance into the open buffer or its rejection,
the close at DEPTH traces, the profile record of a compute, and the steps of a Raman calibration pass. -/
def Obligations.RamanReceiver : Prop :=
  (∀ (n : Fin 4) (x : Trace) (r : List Trace) (s : State), s.rrx[n].waiting = x :: r → s.rrx[n].state = rjRunning →
    s.rrx[n].suspending = false →
    Completes (.traceStart n) s fun t => t.rrx[n].waiting = r
      ∧ (s.portOn n = true → t.on (R.RRX_PORT_STAT_QUIET n) = false)
      ∧ ∃ b, t.rrx[n].hand = some { x with room := b })
  ∧ (∀ (n : Fin 4) (x : Trace) (r : List Trace) (s : State), s.rrx[n].waiting = x :: r → s.rrx[n].state ≠ rjRunning →
    Completes (.traceStart n) s fun t => t.rrx[n].waiting = r ∧ t.rrx[n].hand = s.rrx[n].hand ∧ t.regs = s.regs)
  ∧ (∀ (n : Fin 4) (xs : List RCode) (l : List RSum) (k0 k1 : Nat) (x : Trace) (b : RBuf) (s : State),
    s.rrx[n].hand = some x → s.rrxNative n x.len xs = (l, k0, k1) →
    s.rrx[n].open_ = some b → x.bad = false → x.room = true → s.memc.outage = false → b.n + 1 < s.rrx[n].depth →
    s.rrx[n].suspending = false → s.rrx[n].leaving = false →
    Completes (.traceEnd n xs) s fun t => t.rrx[n].hand = none
      ∧ (k0 ≠ 0 → t.rd (R.RRX_PORT_CH_CLIP_COUNT n 0) = min (s.rd (R.RRX_PORT_CH_CLIP_COUNT n 0) + k0) (2 ^ 32 - 1)
          ∧ t.bit R.RRX_EVENT_CLIP (2 * n) = true)
      ∧ (k1 ≠ 0 → t.rd (R.RRX_PORT_CH_CLIP_COUNT n 1) = min (s.rd (R.RRX_PORT_CH_CLIP_COUNT n 1) + k1) (2 ^ 32 - 1)
          ∧ t.bit R.RRX_EVENT_CLIP (2 * n + 1) = true)
      ∧ ∃ d, t.rrx[n].open_ = some d ∧ d.n = b.n + 1 ∧ d.last = x.stamp ∧ d.sums = s.rrxAdd n b l
          ∧ d.rejected = b.rejected)
  ∧ (∀ (n : Fin 4) (xs : List RCode) (x : Trace) (b : RBuf) (s : State), s.rrx[n].hand = some x →
    s.rrx[n].open_ = some b → x.bad = false → x.room = true → s.memc.outage = false → s.rrx[n].depth ≤ b.n + 1 →
    s.rrx[n].suspending = false →
    Completes (.traceEnd n xs) s fun t => t.rrx[n].hand = none
      ∧ ∃ d, t.rrx[n].closed = s.rrx[n].closed ++ [d] ∧ d.n = b.n + 1 ∧ d.last = x.stamp ∧ d.routeEnd = false
          ∧ d.gamma = s.rd (R.RRX_PORT_GAMMA_GAMMA n))
  ∧ (∀ (n : Fin 4) (xs : List RCode) (x : Trace) (b : RBuf) (s : State), s.rrx[n].hand = some x →
    s.rrx[n].open_ = some b → x.bad = true → s.rrx[n].suspending = false → s.rrx[n].leaving = false →
    Completes (.traceEnd n xs) s fun t => t.rrx[n].hand = none
      ∧ t.rrx[n].open_ = some { b with rejected := b.rejected + 1 } ∧ t.bit R.RRX_EVENT_REJECT n = true
      ∧ t.rd (R.RRX_PORT_REJECT_COUNT n) = min (s.rd (R.RRX_PORT_REJECT_COUNT n) + 1) (2 ^ 32 - 1))
  ∧ (∀ (n : Fin 4) (b : RBuf) (r : List RBuf) (s : State), s.rrx[n].closed = b :: r → s.rrx[n].cont = true →
    Completes (.profileRecord n) s fun t => t.rrx[n].closed = r
      ∧ t.rrx[n].profile = (s.rrx[n].profile + 1) % 2 ^ 32 ∧ t.bit R.RRX_EVENT_PROFILE n = true
      ∧ (s.portOn n = true → t.rd (R.RRX_PORT_LAST_PROFILE_STAMP n) = b.last % 2 ^ 64))
  ∧ (∀ (n : Fin 4) (b : RBuf) (r : List RBuf) (s : State), s.rrx[n].closed = b :: r → s.rrx[n].cont = false →
    Completes (.profileRecord n) s fun t => ∃ u : State,
      t = (u.rrxEnd n rjDone).jobDone s.rrx[n].job 0 [(s.rrx[n].profile + 1) % 2 ^ 32]
      ∧ u.rrx[n].closed = r ∧ u.bit R.RRX_EVENT_PROFILE n = true)
  ∧ (∀ (n : Fin 4) (s : State), s.mgt.calRun = some (4 + n.val) → s.mgt.calIn = false →
    s.portOn n = true → s.ramanFits n = true →
    Completes (.ramanCalStepStart n) s fun t => t.mgt = { s.mgt with calIn := true } ∧ t.regs = s.regs)
  ∧ (∀ (n : Fin 4) (meas : List (Int × Nat)) (s : State), s.mgt.calRun = some (4 + n.val) → s.mgt.calIn = true →
    s.mgt.calStep < 3 →
    Completes (.ramanCalStepEnd n 0 meas) s fun t => t.rrx[n].trial = s.rrx[n].trial ++ [meas]
      ∧ t.mgt = { s.mgt with calIn := false, calStep := s.mgt.calStep + 1 } ∧ t.regs = s.regs)
  ∧ (∀ (n : Fin 4) (meas : List (Int × Nat)) (s : State), s.mgt.calRun = some (4 + n.val) → s.mgt.calIn = true →
    s.mgt.calStep = 3 → s.rrx[n].open_ = none → s.portOn n = true →
    Completes (.ramanCalStepEnd n 0 meas) s fun t => ∃ u : State, t = u.calEnd (4 + n.val) 0
      ∧ u.rrx[n].corr = corrOf (s.rrx[n].trial ++ [meas])
      ∧ u.mgt.rrxCorr[n] = u.rrx[n].corr ∧ u.rd (R.RRX_PORT_STAT_CAL_RESULT n) = 1
      ∧ u.on (R.RRX_PORT_STAT_CAL_STALE n) = false ∧ u.on (R.RRX_PORT_STAT_DEFERRED n) = false)
  ∧ ∀ (n : Fin 4) (kind : Fin 3) (meas : List (Int × Nat)) (s : State), s.mgt.calRun = some (4 + n.val) →
    s.mgt.calIn = true → kind ≠ 0 →
    Completes (.ramanCalStepEnd n kind meas) s fun t => ∃ u : State, t = u.calEnd (4 + n.val) kind.val
      ∧ u.rrx = s.rrx ∧ u.rd (R.RRX_PORT_STAT_CAL_RESULT n) = 2 ∧ u.bit R.RRX_EVENT_CAL_FAIL n = true

/-- R242 to R245, R248, R250 to R254: EN starts the RSF on a set that passes its check or shows CFG_ERR, a sequence
and its slots, the end of a modulation with its result, the post, clamps, self-calibration, the latched reads and
stopping. -/
def Obligations.ReferenceSensors : Prop :=
  (∀ s : State, s.domOn dCORE = true → s.on R.RSF_CTRL_EN = false → s.on R.RSF_STAT_RUNNING = false →
    rsfCheck s.rsfShadow = none →
    Completes .rsfEnable s fun t => ∃ u : State, t = u.calNext ∧ u.on R.RSF_CTRL_EN = true
      ∧ u.on R.RSF_STAT_RUNNING = true ∧ u.rd R.RSF_STAT_SEQ = 0 ∧ u.rsf.active = s.rsfShadow ∧ u.rsf.inSeq = false
      ∧ ∀ c : Fin 16, u.rd (R.RSF_CH_COUNT_COUNT c) = 0)
  ∧ (∀ (c : Nat) (s : State), s.domOn dCORE = true → s.on R.RSF_CTRL_EN = false → s.on R.RSF_STAT_RUNNING = false →
    rsfCheck s.rsfShadow = some c →
    Completes .rsfEnable s fun t => t.on R.RSF_CTRL_EN = true ∧ t.on R.RSF_STAT_RUNNING = false
      ∧ t.on R.RSF_STAT_CFG_ERR = true ∧ t.rd R.RSF_STAT_CHECK_CH = c % 2 ^ 4 ∧ t.on R.RSF_EVENT_CFG_ERR = true
      ∧ t.rsf.active = s.rsf.active)
  ∧ (∀ s : State, s.domOn dCORE = true → s.on R.RSF_CTRL_EN = false → s.on R.RSF_STAT_RUNNING = true →
    Completes .rsfEnable s fun t => t.on R.RSF_CTRL_EN = true ∧ t.rsf = { s.rsf with restart := true })
  ∧ (∀ s : State, s.domOn dCORE = true → s.on R.RSF_STAT_RUNNING = true → s.rsf.phase = 0 →
    s.rsf.post = [] →
    Completes .rsfDisable s fun t => ∃ u : State, t = u.calLeave 8 ∧ u.on R.RSF_CTRL_EN = false
      ∧ u.on R.RSF_STAT_RUNNING = false ∧ u.rsf.exc = Vector.replicate 4 0 ∧ u.rsf.source = 0
      ∧ u.rsf.sink = 0 ∧ u.rsf.inSeq = false)
  ∧ (∀ s : State, s.domOn dCORE = true → s.on R.RSF_STAT_RUNNING = true → s.rsf.phase ≠ 0 ∨ s.rsf.post ≠ [] →
    Completes .rsfDisable s fun t => t.on R.RSF_CTRL_EN = false ∧ t.on R.RSF_STAT_RUNNING = true
      ∧ t.rsf = { s.rsf with restart := false, stopping := true })
  ∧ (∀ s : State, s.on R.RSF_STAT_RUNNING = true → s.rsf.stopping = false → s.rsf.inSeq = false → s.rsf.phase = 0 →
    s.rsf.dirty = false →
    Completes .rsfSequenceStart s fun t => t.rd R.RSF_STAT_SEQ = (s.rd R.RSF_STAT_SEQ + 1) % 2 ^ 16
      ∧ t.rsf = { s.rsf with inSeq := true, next := 0, selfcal := false, phase := if s.rsf.selfcal then 3 else 0 }
      ∧ t.rd R.RSF_SEQ_PERIOD_US = ((s.rsfList.map fun c => rsfSlot (rsfCh s.rsf.active c)).sum
          + if s.rsf.selfcal then s.rsfCalLength else 0) % 2 ^ 32)
  ∧ (∀ (c : Nat) (s : State), s.on R.RSF_STAT_RUNNING = true → s.rsf.stopping = false → s.rsf.inSeq = true →
    s.rsf.phase = 0 →
    (s.rsfList.find? fun c => decide (s.rsf.next ≤ c)) = some c →
    Completes .rsfSlotStart s fun t => t.rd R.RSF_STAT_CUR = c % 2 ^ 4
      ∧ t.rsf = { s.rsf with phase := 1, next := c + 1, clampSeen := s.rsf.clamp
                             exc := s.rsfExc (rsfCh s.rsf.active c) })
  ∧ (∀ s : State, s.rsf.phase = 1 →
    Completes .rsfModulationStart s fun t => t.rsf = { s.rsf with phase := 2, modStart := s.tbu.raw } ∧ t.regs = s.regs)
  ∧ (∀ (code : Int) (rail refLow compliance : Bool) (v : Nat × Bool) (s : State), s.rsf.phase = 2 →
    rsfValue (rsfCh s.rsf.active (s.rd R.RSF_STAT_CUR)) (Arith.satSigned 24 code) = some v →
    rsfBurnout (rsfCh s.rsf.active (s.rd R.RSF_STAT_CUR)) rail refLow compliance = false →
    Completes (.rsfModulationEnd code rail refLow compliance) s fun t => ∃ (u : State) (x : RsfResult),
      t = u.rsfWatch (s.rd R.RSF_STAT_CUR) ∧ u.rsf.post = s.rsf.post ++ [x] ∧ u.rsf.phase = 0
      ∧ x.ch = s.rd R.RSF_STAT_CUR ∧ x.value = v.1 ∧ x.burnout = false
      ∧ x.code = Arith.ofSigned 24 (Arith.satSigned 24 code)
      ∧ x.stamp = s.countAt (s.rsf.modStart + rsfMod (rsfCh s.rsf.active (s.rd R.RSF_STAT_CUR)) * 625)
      ∧ ∀ (c : Fin 16) (p : Nat × Nat), c.val = s.rd R.RSF_STAT_CUR → s.rsf.prev[c] = some p →
          u.rd (R.RSF_CH_GOOD_VALUE_VALUE c) = p.1 % 2 ^ 32 ∧ u.rd (R.RSF_CH_GOOD_STAMP_STAMP c) = p.2 % 2 ^ 64)
  ∧ (∀ (code : Int) (rail refLow compliance : Bool) (c : Fin 16) (s : State), s.rsf.phase = 2 →
    s.rd R.RSF_STAT_CUR = c.val → rsfBurnout (rsfCh s.rsf.active c) rail refLow compliance = true →
    Completes (.rsfModulationEnd code rail refLow compliance) s fun t => ∃ (u : State) (x : RsfResult),
      t = u.rsfWatch c ∧ u.rsf.post = s.rsf.post ++ [x] ∧ x.burnout = true ∧ u.bit R.RSF_EVENT_BURNOUT c = true
      ∧ u.rsf.prev[c] = none ∧ u.rd (R.RSF_CH_GOOD_VALUE_VALUE c) = s.rd (R.RSF_CH_GOOD_VALUE_VALUE c))
  ∧ (∀ (x : RsfResult) (s : State), s.rsf.post = [x] → s.rsf.stopping = true → s.rsf.phase = 0 →
    Completes .rsfResultPost s fun t => ∃ u : State, t = u.rsfStop ∧ u.rsf = { s.rsf with post := [] }
      ∧ u.rd (R.RSF_CH_VALUE_VALUE x.ch) = x.value % 2 ^ 32
      ∧ u.rd (R.RSF_CH_COUNT_COUNT x.ch) = (s.rd (R.RSF_CH_COUNT_COUNT x.ch) + 1) % 2 ^ 32)
  ∧ (∀ (x : RsfResult) (r : List RsfResult) (s : State), s.rsf.post = x :: r →
    (s.rsf.stopping = false ∨ s.rsf.phase ≠ 0 ∨ r ≠ []) →
    Completes .rsfResultPost s fun t => t.rsf = { s.rsf with post := r }
      ∧ t.rd (R.RSF_CH_RAW_CODE x.ch) = x.code % 2 ^ 24 ∧ t.on (R.RSF_CH_RAW_BURNOUT x.ch) = x.burnout
      ∧ t.on (R.RSF_CH_RAW_OV x.ch) = x.ov ∧ t.on (R.RSF_CH_RAW_SAT x.ch) = x.sat
      ∧ t.on (R.RSF_CH_RAW_UNCAL x.ch) = x.uncal ∧ t.rd (R.RSF_CH_VALUE_VALUE x.ch) = x.value % 2 ^ 32
      ∧ t.rd (R.RSF_CH_STAMP_STAMP x.ch) = x.stamp % 2 ^ 64
      ∧ t.rd (R.RSF_CH_COUNT_COUNT x.ch) = (s.rd (R.RSF_CH_COUNT_COUNT x.ch) + 1) % 2 ^ 32)
  ∧ (∀ (b : Fin 16) (s : State),
    Completes (.senClamp b) s fun t => t.bit R.RSF_OV_BALL b = true ∧ t.on R.RSF_EVENT_OV = true
      ∧ t.rsf.clamp.testBit b = true ∧ t.rsf.clampSeen.testBit b = true)
  ∧ (∀ (b : Fin 16) (s : State),
    Completes (.senClampRelease b) s fun t => t.rsf.clamp.testBit b = false ∧ t.rsf.clampSeen = s.rsf.clampSeen
      ∧ t.regs = s.regs)
  ∧ (∀ s : State, s.domOn dCORE = true →
    Completes .rsfSelfcalWrite s fun t =>
      t.rsf = (if s.rsf.phase = 3 then s.rsf else { s.rsf with selfcal := true }) ∧ t.regs = s.regs)
  ∧ (∀ (sel : Option (List Nat)) (s : State), s.rsf.phase = 3 → s.rsf.stopping = false →
    Completes (.selfcalSlotEnd sel) s fun t => ∃ u : State,
      t = (if s.mgt.calRun = some 8 then u.calEnd 8 (if sel.isSome then 0 else 2) else u)
      ∧ u.rsf = { s.rsf with phase := 0, sel := sel.getD s.rsf.sel }
      ∧ u.rd R.RSF_STAT_CAL_RESULT = (if sel.isSome then 1 else 2)
      ∧ (sel.isSome = true → u.on R.RSF_STAT_CAL_STALE = false) ∧ (sel = none → u.on R.RSF_EVENT_CAL_FAIL = true))
  ∧ (∀ (c : Fin 16) (s : State), s.domOn dCORE = true →
    Completes (.rsfRawRead c) s fun t => t.regs = s.regs
      ∧ Bank.get t.shadow (0x1E0124 + 0x40 * c) 0 = s.rd (R.RSF_CH_VALUE_VALUE c)
      ∧ Bank.get t.shadow (0x1E0128 + 0x40 * c) 0 = s.rd (R.RSF_CH_STAMP_STAMP c) % 2 ^ 32
      ∧ Bank.get t.shadow (0x1E012C + 0x40 * c) 0 = s.rd (R.RSF_CH_STAMP_STAMP c) / 2 ^ 32
      ∧ Bank.get t.shadow (0x1E0130 + 0x40 * c) 0 = s.rd (R.RSF_CH_COUNT_COUNT c))
  ∧ ∀ (c : Fin 16) (s : State), s.domOn dCORE = true →
    Completes (.rsfGoodRead c) s fun t => t.regs = s.regs
      ∧ Bank.get t.shadow (0x1E0138 + 0x40 * c) 0 = s.rd (R.RSF_CH_GOOD_STAMP_STAMP c) % 2 ^ 32
      ∧ Bank.get t.shadow (0x1E013C + 0x40 * c) 0 = s.rd (R.RSF_CH_GOOD_STAMP_STAMP c) / 2 ^ 32

/-- R266, R267: the control instructions of a DSP core in every form: NOP, BR taken, not taken and with a condition
that the manual does not list, CALL, RET, LOOP with a count and with 0, HALT and SYNC. R267: the scalar instructions:
S[D] and Z, N, C, V; the logical, shift and multiply instructions clear C and V. C after a subtraction is the borrow
or its inverse (log entry 18). -/
def Obligations.DspControlAndScalars : Prop :=
  (
  ∀ (c : Fin 64) (s : State), let k := s.vdc.cores[c]; let w := s.coreWord c
  (CoreReady s c 0 0 → Completes (.ctrlNop c) s (CoreStep s c k (k.pc + 1) 1))
  ∧ (CoreReady s c 0 1 → Dsp.condition k (Dsp.ctrlS w) = some true →
      Completes (.br c) s (CoreStep s c k (Dsp.target w) 3))
  ∧ (CoreReady s c 0 1 → Dsp.condition k (Dsp.ctrlS w) = some false →
      Completes (.br c) s (CoreStep s c k (k.pc + 1) 1))
  ∧ (CoreReady s c 0 2 → k.calls.length < 8 →
      Completes (.call c) s (CoreStep s c { k with calls := (k.pc + 1) % 4096 :: k.calls } (Dsp.target w) 3))
  ∧ (∀ (a : Nat) (r : List Nat), CoreReady s c 0 3 → k.calls = a :: r → a < 4096 →
      Completes (.ret c) s (CoreStep s c { k with calls := r } a 3))
  ∧ (CoreReady s c 0 4 → Dsp.sreg k (Dsp.ctrlS w) ≠ 0#32 →
      Completes (.loop c) s (CoreStep s c
        { k with loops := [⟨k.pc + 1, Dsp.target w, (Dsp.sreg k (Dsp.ctrlS w)).toNat⟩] } (k.pc + 1) 1))
  ∧ (CoreReady s c 0 4 → Dsp.sreg k (Dsp.ctrlS w) = 0#32 → Dsp.target w < 4095 →
      Completes (.loop c) s (CoreStep s c k (Dsp.target w + 1) 1))
  ∧ (CoreReady s c 0 5 → Completes (.halt c) s (CoreStep s c { k with halted := true } k.pc 1))
  ∧ (CoreReady s c 0 6 → Completes (.sync c) s (CoreStep s c { k with sync := true } k.pc 1))
  ∧ (∀ (l : DLoop) (r : List DLoop), CoreIssues s c 0 0 → k.loops = l :: r → l.last = k.pc → 1 < l.count →
      Completes (.ctrlNop c) s (CoreStep s c { k with loops := { l with count := l.count - 1 } :: r } l.first 1))
  ∧ (∀ l : DLoop, CoreIssues s c 0 0 → k.loops = [l] → l.last = k.pc → l.count ≤ 1 → k.pc < 4095 →
      Completes (.ctrlNop c) s (CoreStep s c { k with loops := [] } (k.pc + 1) 1)))
  ∧ (
  ∀ (c : Fin 64) (s : State), let k := s.vdc.cores[c]; let w := s.coreWord c
  let a := Dsp.sreg k (Dsp.fA w)
  let b := Dsp.sreg k (Dsp.imm4 w)
  let m := BitVec.ofNat 32 (Dsp.imm8 w)
  let fits (x : Int) : Bool := decide (-2 ^ 31 ≤ x ∧ x < 2 ^ 31)
  let borrow (x y : BitVec 32) : Bool := Config.subCarryInverted != x.ult y
  let plain (r : BitVec 32) : DCore := Dsp.scalarResult k w r false false
  (CoreReady s c 4 0 → Completes (.add c) s (CoreStep s c
      (Dsp.scalarResult k w (a + b) (decide (2 ^ 32 ≤ a.toNat + b.toNat)) !fits (a.toInt + b.toInt)) (k.pc + 1) 1))
  ∧ (CoreReady s c 4 1 → Completes (.sub c) s (CoreStep s c
      (Dsp.scalarResult k w (a - b) (borrow a b) !fits (a.toInt - b.toInt)) (k.pc + 1) 1))
  ∧ (CoreReady s c 4 2 → Completes (.and c) s (CoreStep s c (plain (a &&& b)) (k.pc + 1) 1))
  ∧ (CoreReady s c 4 3 → Completes (.or c) s (CoreStep s c (plain (a ||| b)) (k.pc + 1) 1))
  ∧ (CoreReady s c 4 4 → Completes (.xor c) s (CoreStep s c (plain (a ^^^ b)) (k.pc + 1) 1))
  ∧ (CoreReady s c 4 5 → Completes (.shl c) s (CoreStep s c (plain (a <<< (b.toNat % 32))) (k.pc + 1) 1))
  ∧ (CoreReady s c 4 6 → Completes (.asr c) s (CoreStep s c (plain (a.sshiftRight (b.toNat % 32))) (k.pc + 1) 1))
  ∧ (CoreReady s c 4 7 → Completes (.lsr c) s (CoreStep s c (plain (a >>> (b.toNat % 32))) (k.pc + 1) 1))
  ∧ (CoreReady s c 4 8 → Completes (.mul c) s (CoreStep s c (plain (a * b)) (k.pc + 1) 1))
  ∧ (CoreReady s c 4 9 → Completes (.addi c) s (CoreStep s c
      (Dsp.scalarResult k w (a + m) (decide (2 ^ 32 ≤ a.toNat + m.toNat)) !fits (a.toInt + m.toInt)) (k.pc + 1) 1))
  ∧ (CoreReady s c 4 10 → Completes (.subi c) s (CoreStep s c
      (Dsp.scalarResult k w (a - m) (borrow a m) !fits (a.toInt - m.toInt)) (k.pc + 1) 1))
  ∧ (CoreReady s c 5 0 → Completes (.ldi c) s (CoreStep s c
      { k with s := k.s.set (Fin.ofNat 16 (Dsp.fD w)) (BitVec.ofNat 32 w) } (k.pc + 1) 1))
  ∧ ∀ (r : BitVec 32) (cy ov : Bool), let d := Dsp.setZNCV k r cy ov
      Dsp.flag d 0 = decide (r = 0#32) ∧ Dsp.flag d 1 = r.msb ∧ Dsp.flag d 2 = cy ∧ Dsp.flag d 3 = ov
        ∧ Dsp.flag d 4 = Dsp.flag k 4 ∧ Dsp.flag d 7 = Dsp.flag k 7)

/-- R268 to R271: the accumulator instructions: each lane of the accumulator, what a write of it clears, and the plain
and saturating transfers to a vector register or to memory. `accAll` writes the lanes with exact results (R269). R269,
R270: a lane written with an exact result holds it modulo 2^40; one that does not fit sets AOV and, the first time,
its sign OVS, and OVH; a saturating transfer gives the limit of that sign, or the shifted value held to s32. -/
def Obligations.DspAccumulators : Prop :=
  (
  ∀ (c : Fin 64) (s : State), let k := s.vdc.cores[c]; let w := s.coreWord c; let a := Dsp.macA w
  (CoreReady s c 1 0 → Completes (.mpy c) s (CoreStep s c
      (Dsp.accAll (Dsp.aovClear k a) a (Dsp.halves k w)) (k.pc + 1) 1))
  ∧ (CoreReady s c 1 1 → Completes (.mac c) s (CoreStep s c
      (Dsp.accAll k a fun i => ((Dsp.areg k a)[i]).toInt + Dsp.halves k w i) (k.pc + 1) 1))
  ∧ (CoreReady s c 1 2 → Completes (.msu c) s (CoreStep s c
      (Dsp.accAll k a fun i => ((Dsp.areg k a)[i]).toInt - Dsp.halves k w i) (k.pc + 1) 1))
  ∧ (CoreReady s c 1 3 → Completes (.acc c) s (CoreStep s c
      (Dsp.accAll k a fun i => ((Dsp.areg k a)[i]).toInt + ((Dsp.vreg k (Dsp.macV w))[i]).toInt) (k.pc + 1) 1))
  ∧ (CoreReady s c 1 4 → Completes (.clra c) s (CoreStep s c
      { Dsp.aovClear k a with a := k.a.set (Fin.ofNat 4 a) (Vector.replicate 8 0#40) } (k.pc + 1) 1))
  ∧ (CoreReady s c 1 5 → Completes (.asra c) s (CoreStep s c
      { k with a := k.a.set (Fin.ofNat 4 a)
                 (Vector.ofFn fun (i : Fin 8) => ((Dsp.areg k a)[i]).sshiftRight (Dsp.macK w)) } (k.pc + 1) 1))
  ∧ (CoreReady s c 1 6 → (∀ i < 8, k.aov.getLsbD (8 * a + i) = false) → Completes (.accsum c) s (CoreStep s c
      (Dsp.accLane { Dsp.aovClear k a with a := k.a.set (Fin.ofNat 4 a) (Vector.replicate 8 0#40) } a 0
        (((List.finRange 8).map fun i => ((Dsp.areg k a)[i]).toInt).sum)) (k.pc + 1) 4))
  ∧ (CoreReady s c 1 7 → Completes (.movaS c) s (CoreStep s c
      { Dsp.aovClear k a with
        v := k.v.set (Fin.ofNat 16 (Dsp.macV w))
          (Vector.ofFn fun (i : Fin 8) => Dsp.transferLane k a (Dsp.macK w) i) } (k.pc + 1) 1))
  ∧ (CoreReady s c 1 8 → Completes (.movaW c) s (CoreStep s c
      { k with
        v := k.v.set (Fin.ofNat 16 (Dsp.macV w))
          (Vector.ofFn fun (i : Fin 8) => (((Dsp.areg k a)[i]).sshiftRight (Dsp.macK w)).setWidth 32) } (k.pc + 1) 1))
  ∧ (CoreReady s c 1 9 → let i := if w.testBit 44 then 4 else 0; let p := (k.p[(Fin.ofNat 8 i)]).toNat
      p % 32 = 0 → Completes (.vstaS c) s fun t => ∃ u : State, t = u.groupCheck (groupOf c)
        ∧ u.sram = Mem.writes sramFill s.sram ((if w.testBit 44 then Dsp.yBase c else Dsp.xBase c) + p)
            (Dsp.bytesOf (Vector.ofFn fun (j : Fin 8) => Dsp.transferLane k a (Dsp.macK w) j))
        ∧ (u.vdc.cores[c]).p = (Dsp.stepPointer k i 2 32).p ∧ (u.vdc.cores[c]).aov = (Dsp.aovClear k a).aov
        ∧ (u.vdc.cores[c]).a = k.a ∧ (u.vdc.cores[c]).v = k.v ∧ (u.vdc.cores[c]).s = k.s
        ∧ (u.vdc.cores[c]).pc = k.pc + 1))
  ∧ (
  ∀ (k : DCore) (a : Fin 4) (i : Fin 8) (x : Int), let d := Dsp.accLane k a i x
  (Dsp.areg d a)[i] = BitVec.ofInt 40 x
  ∧ (∀ j : Fin 8, j ≠ i → (Dsp.areg d a)[j] = (Dsp.areg k a)[j])
  ∧ (d.aov.getLsbD (8 * a + i) = (k.aov.getLsbD (8 * a + i) || !decide (-2 ^ 39 ≤ x ∧ x < 2 ^ 39)))
  ∧ ((x < -2 ^ 39 ∨ 2 ^ 39 ≤ x) → Dsp.flag d Dsp.flOVH = true
      ∧ (k.aov.getLsbD (8 * a + i) = false → d.ovs.getLsbD (8 * a + i) = decide (0 < x)
          ∧ ∀ sh, Dsp.transferLane d a sh i = if 0 < x then 0x7FFFFFFF#32 else 0x80000000#32))
  ∧ (-2 ^ 39 ≤ x → x < 2 ^ 39 → d.fl = k.fl ∧ d.aov = k.aov ∧ d.ovs = k.ovs
      ∧ (k.aov.getLsbD (8 * a + i) = false → ∀ sh : Nat, (Dsp.transferLane d a sh i).toInt
          = max (-2 ^ 31) (min (2 ^ 31 - 1) (x / (2 ^ sh : Nat))))))

/-- R267: the vector instructions, each lane of V[D] from the same lane of V[A] and V[B] or from IMM. R273, R274:
INIT, the four search rules, and SFOLD with and without an index. -/
def Obligations.DspVectorsAndSearch : Prop :=
  (
  ∀ (c : Fin 64) (s : State), let k := s.vdc.cores[c]; let w := s.coreWord c
  let a : Fin 8 → BitVec 32 := fun i => (Dsp.vreg k (Dsp.fA w))[i]
  let b : Fin 8 → BitVec 32 := fun i => (Dsp.vreg k (Dsp.fB w))[i]
  let n := Dsp.imm4 w
  (CoreReady s c 2 0 → Completes (.vadd c) s (CoreStep s c (Dsp.lanes k w fun i => a i + b i) (k.pc + 1) 1))
  ∧ (CoreReady s c 2 1 → Completes (.vsub c) s (CoreStep s c (Dsp.lanes k w fun i => a i - b i) (k.pc + 1) 1))
  ∧ (CoreReady s c 2 2 → Completes (.vadds c) s (CoreStep s c
      (Dsp.lanes k w fun i => BitVec.ofInt 32 (max (-2 ^ 31) (min (2 ^ 31 - 1) ((a i).toInt + (b i).toInt)))) (k.pc + 1) 1))
  ∧ (CoreReady s c 2 3 → Completes (.vsubs c) s (CoreStep s c
      (Dsp.lanes k w fun i => BitVec.ofInt 32 (max (-2 ^ 31) (min (2 ^ 31 - 1) ((a i).toInt - (b i).toInt)))) (k.pc + 1) 1))
  ∧ (CoreReady s c 2 4 → Completes (.vabs c) s (CoreStep s c
      (Dsp.lanes k w fun i => if a i = 0x80000000#32 then 0x7FFFFFFF#32 else if (a i).msb then -a i else a i)
      (k.pc + 1) 1))
  ∧ (CoreReady s c 2 5 → Completes (.vand c) s (CoreStep s c (Dsp.lanes k w fun i => a i &&& b i) (k.pc + 1) 1))
  ∧ (CoreReady s c 2 6 → Completes (.vor c) s (CoreStep s c (Dsp.lanes k w fun i => a i ||| b i) (k.pc + 1) 1))
  ∧ (CoreReady s c 2 7 → Completes (.vxor c) s (CoreStep s c (Dsp.lanes k w fun i => a i ^^^ b i) (k.pc + 1) 1))
  ∧ (CoreReady s c 2 8 → Completes (.vasr c) s (CoreStep s c
      (Dsp.lanes k w fun i => BitVec.ofInt 32 ((a i).toInt / (2 ^ n : Nat))) (k.pc + 1) 1))
  ∧ (CoreReady s c 2 9 → Completes (.vlsr c) s (CoreStep s c
      (Dsp.lanes k w fun i => BitVec.ofNat 32 ((a i).toNat / 2 ^ n)) (k.pc + 1) 1))
  ∧ (CoreReady s c 2 10 → Completes (.vshl c) s (CoreStep s c
      (Dsp.lanes k w fun i => BitVec.ofNat 32 ((a i).toNat * 2 ^ n)) (k.pc + 1) 1))
  ∧ (CoreReady s c 2 11 → Completes (.vmin c) s (CoreStep s c
      (Dsp.lanes k w fun i => BitVec.ofInt 32 (min (a i).toInt (b i).toInt)) (k.pc + 1) 1))
  ∧ (CoreReady s c 2 12 → Completes (.vmax c) s (CoreStep s c
      (Dsp.lanes k w fun i => BitVec.ofInt 32 (max (a i).toInt (b i).toInt)) (k.pc + 1) 1))
  ∧ (CoreReady s c 2 13 → Completes (.vbc c) s (CoreStep s c
      (Dsp.lanes k w fun _ => Dsp.sreg k (Dsp.fA w)) (k.pc + 1) 1))
  ∧ (CoreReady s c 2 14 → Completes (.vext c) s (CoreStep s c
      { k with s := k.s.set (Fin.ofNat 16 (Dsp.fD w)) (a (Fin.ofNat 8 n)) } (k.pc + 1) 1))
  ∧ (CoreReady s c 2 15 → Completes (.vorr c) s (CoreStep s c
      { k with
        s := k.s.set (Fin.ofNat 16 (Dsp.fD w))
          (a 0 ||| a 1 ||| a 2 ||| a 3 ||| a 4 ||| a 5 ||| a 6 ||| a 7) } (k.pc + 1) 1)))
  ∧ (
  ∀ (c : Fin 64) (s : State), let k := s.vdc.cores[c]; let w := s.coreWord c
  let v : Fin 8 → BitVec 32 := fun i => (Dsp.vreg k (Dsp.srchA w))[i]
  let takes (better : BitVec 32 → BitVec 32 → Bool) (i : Fin 8) : Bool :=
    decide (k.sc.toNat + i.val < k.sn.toNat) && (k.si[i] == 0xFFFFFFFF#32 || better (v i) k.sb[i])
  let after (rule : Nat) (better : BitVec 32 → BitVec 32 → Bool) : DCore :=
    { k with
      sb := Vector.ofFn fun (i : Fin 8) => if takes better i then v i else k.sb[i]
      si := Vector.ofFn fun (i : Fin 8) => if takes better i then k.sc + BitVec.ofNat 32 i.val else k.si[i]
      sc := k.sc + 8#32, rule := some rule }
  (CoreReady s c 3 0 → Completes (.srchInit c) s (CoreStep s c
      { k with sc := Dsp.sreg k (Dsp.srchA w), sn := Dsp.sreg k (Dsp.srchB w)
               si := Vector.replicate 8 0xFFFFFFFF#32, sb := Vector.replicate 8 0#32, rule := none } (k.pc + 1) 1))
  ∧ (CoreReady s c 3 1 → Completes (.smax c) s (CoreStep s c (after 1 fun x y => y.slt x) (k.pc + 1) 1))
  ∧ (CoreReady s c 3 2 → Completes (.smin c) s (CoreStep s c (after 2 fun x y => x.slt y) (k.pc + 1) 1))
  ∧ (CoreReady s c 3 3 → Completes (.smaxu c) s (CoreStep s c (after 3 fun x y => y.ult x) (k.pc + 1) 1))
  ∧ (CoreReady s c 3 4 → Completes (.sminu c) s (CoreStep s c (after 4 fun x y => x.ult y) (k.pc + 1) 1))
  ∧ (CoreReady s c 3 5 → (∀ i : Fin 8, k.si[i] = 0xFFFFFFFF#32) → Completes (.sfold c) s (CoreStep s c
      (Dsp.setFlag (Dsp.setS (Dsp.setS k (Dsp.srchB w) 0#32) (Dsp.srchE w) 0xFFFFFFFF#32) Dsp.flNF true) (k.pc + 1) 4))
  ∧ (CoreReady s c 3 5 → k.rule = some 1 → (∃ i : Fin 8, k.si[i] ≠ 0xFFFFFFFF#32) → Completes (.sfold c) s fun t =>
      ∃ i : Fin 8, k.si[i] ≠ 0xFFFFFFFF#32
        ∧ (∀ j : Fin 8, k.si[j] ≠ 0xFFFFFFFF#32 → (k.sb[j]).toInt ≤ (k.sb[i]).toInt
            ∧ (k.sb[j] = k.sb[i] → (k.si[i]).toNat ≤ (k.si[j]).toNat))
        ∧ CoreStep s c (Dsp.setFlag (Dsp.setS (Dsp.setS k (Dsp.srchB w) k.sb[i]) (Dsp.srchE w) k.si[i]) Dsp.flNF false)
            (k.pc + 1) 4 t))

/-- R264, R266: the move slots: a vector load, a vector store, and a scalar load of the Y slot beside a NOP, each with
the update of its pointer; an address that is not a multiple of the size of its access is an ALIGN fault. R263, R277,
R279 to R282: reads and writes of special registers, WAIT, OUT, TRIG and XFER with their operands in registers, the
end of an XFER and of an OUT. -/
def Obligations.DspMovesAndOutput : Prop :=
  (
  ∀ (c : Fin 64) (s : State), let k := s.vdc.cores[c]; let w := s.coreWord c
  let mx := Dsp.moveX w
  let my := Dsp.moveY w
  let px := (k.p[(Fin.ofNat 8 mx.ptr)]).toNat
  let py := (k.p[(Fin.ofNat 8 (my.ptr + 4))]).toNat
  s.coreIssues c = true → Dsp.isOp w 0 0 = true → k.loops = [] → k.pc < 4095 →
  (mx.op = 1 → my.op = 0 → px % 32 = 0 → Completes (.ctrlNop c) s (CoreStep s c
      { k with v := k.v.set (Fin.ofNat 16 mx.reg) (Dsp.lanesOf (Mem.reads s.sram sramFill (Dsp.xBase c + px) 32))
               p := (Dsp.stepPointer k mx.ptr mx.upd 32).p } (k.pc + 1) 1))
  ∧ (mx.op = 0 → my.op = 3 → py % 4 = 0 → Completes (.ctrlNop c) s (CoreStep s c
      { k with s := k.s.set (Fin.ofNat 16 my.reg) (BitVec.ofNat 32 (s.sramWord (Dsp.yBase c + py) 4))
               p := (Dsp.stepPointer k (my.ptr + 4) my.upd 4).p } (k.pc + 1) 1))
  ∧ (mx.op = 2 → my.op = 0 → px % 32 = 0 → Completes (.ctrlNop c) s fun t => ∃ u : State,
      t = u.groupCheck (groupOf c) ∧ (u.vdc.cores[c]).p = (Dsp.stepPointer k mx.ptr mx.upd 32).p
      ∧ (u.vdc.cores[c]).v = k.v ∧ u.dram = s.dram ∧ u.flash = s.flash
      ∧ (∀ i < 32, (Mem.read u.sram sramFill (Dsp.xBase c + px + i)).toNat = (Dsp.bytesOf (Dsp.vreg k mx.reg)).getD i 0)
      ∧ ∀ a, a < Dsp.xBase c + px ∨ Dsp.xBase c + px + 32 ≤ a →
          Mem.read u.sram sramFill a = Mem.read s.sram sramFill a)
  ∧ (mx.op = 1 → my.op = 0 → px % 32 ≠ 0 → Completes (.ctrlNop c) s fun t =>
      t = (s.coreFault c 2).groupCheck (groupOf c)))
  ∧ (
  ∀ (c : Fin 64) (s : State), let k := s.vdc.cores[c]; let w := s.coreWord c
  let n := Dsp.special w
  let x := Dsp.sreg k (Dsp.fD w)
  (∀ v : BitVec 32, CoreReady s c 5 1 → n ≠ 41 → Dsp.readSpecial s.now c k n = some v → k.fault = 0 →
    Completes (.mfs c) s (CoreStep s c { k with s := k.s.set (Fin.ofNat 16 (Dsp.fD w)) v } (k.pc + 1) 1))
  ∧ (CoreReady s c 5 1 → n = 41 → k.fault = 0 → Completes (.mfs c) s (CoreStep s c
      { k with s := k.s.set (Fin.ofNat 16 (Dsp.fD w)) (BitVec.ofNat 32 s.now)
               stampH := BitVec.ofNat 32 (s.now / 2 ^ 32) } (k.pc + 1) 1))
  ∧ (∀ d : DCore, CoreReady s c 5 2 → Dsp.writeSpecial k n x = some d → (n < 37 ∨ 41 ≤ n) → k.fault = 0 →
      Completes (.mts c) s (CoreStep s c d (k.pc + 1) 1))
  ∧ (CoreReady s c 5 2 → 37 ≤ n → n < 41 → k.fault = 0 → Completes (.mts c) s fun t => ∃ u : State,
      t = (u.irpWrite c (Fin.ofNat 4 (n - 37)) x.toNat).groupCheck (groupOf c)
      ∧ ∃ cy, u.vdc.cores[c] = { k with pc := k.pc + 1, cycle := cy })
  ∧ (CoreReady s c 6 0 → s.anyInput c (Dsp.imm4 w) = true → s.gstate (groupOf c) = gRunning →
      Completes (.wait c) s (CoreStep s c k (k.pc + 1) 1))
  ∧ (CoreReady s c 6 0 → (s.anyInput c (Dsp.imm4 w) = false ∨ s.gstate (groupOf c) ≠ gRunning) →
      Completes (.wait c) s (CoreStep s c { k with waiting := some (Dsp.imm4 w) } k.pc 1))
  ∧ (CoreReady s c 6 1 → x.toNat % 32 = 0 → k.fault = 0 → Completes (.out c) s (CoreStep s c
      { k with
        out := some ⟨x.toNat % 65536, 16 * Dsp.imm8 w, (Dsp.sreg k (Dsp.fA w)).toNat % 65536,
          s.outFull (groupOf c) (16 * Dsp.imm8 w)
            || (groupCores (groupOf c)).any fun i => i != c && (s.vdc.cores[i]).out.isSome⟩ }
      k.pc (1 + (Dsp.imm8 w + 1) / 2)))
  ∧ (CoreReady s c 6 2 → k.fault = 0 → Completes (.trig c) s fun t => ∃ u : State,
      t = (u.trig (groupOf c) (Dsp.imm4 w)).groupCheck (groupOf c)
      ∧ ∃ cy, u.vdc.cores[c] = { k with pc := k.pc + 1, cycle := cy })
  ∧ (CoreReady s c 6 3 → k.xfer = none → xferRange (32 * k.xrem.toNat) k.xlen.toNat = true → s.degraded = false →
      Completes (.xferTo c) s (CoreStep s c { k with
        xerr := false
        xfer := some ⟨true, k.xloc.getLsbD 16, k.xloc.toNat % 65536, 32 * k.xrem.toNat, k.xlen.toNat⟩ } (k.pc + 1) 1))
  ∧ (CoreReady s c 6 4 → k.xfer = none → xferRange (32 * k.xrem.toNat) k.xlen.toNat = true → s.degraded = false →
      Completes (.xferFrom c) s (CoreStep s c { k with
        xerr := false
        xfer := some ⟨false, k.xloc.getLsbD 16, k.xloc.toNat % 65536, 32 * k.xrem.toNat, k.xlen.toNat⟩ } (k.pc + 1) 1))
  ∧ (∀ y : Xfer, k.xfer = some y → y.toRemote = true → y.rem < 0x04000000 → y.len = 1 →
      Completes (.xferDone c) s fun t => (t.vdc.cores[c]).xfer = none ∧ (t.vdc.cores[c]).xerr = k.xerr
        ∧ ∀ a, Mem.read t.sram sramFill a = if a = y.rem
            then Mem.read s.sram sramFill ((if y.y then Dsp.yBase c else Dsp.xBase c) + y.loc % 65536)
            else Mem.read s.sram sramFill a)
  ∧ (∀ y : Xfer, k.xfer = some y → 0x04000000 ≤ y.rem → s.degraded = true →
      Completes (.xferDone c) s fun t => (t.vdc.cores[c]).xfer = none ∧ (t.vdc.cores[c]).xerr = true ∧ BytesKept s t)
  ∧ (∀ o : DOut, k.out = some o → s.gstate (groupOf c) = gRunning → s.outLevel (groupOf c) + 16 + o.len ≤ 16384 →
      k.loops = [] → k.pc < 4095 → Completes (.outComplete c) s fun t => ∃ u : State,
        t = u.groupCheck (groupOf c) ∧ (∃ cy, u.vdc.cores[c] = { k with out := none, pc := k.pc + 1, cycle := cy })
        ∧ (shut s.streams[(5 : Fin 7)] = false → s.streams[(5 : Fin 7)].waitq = [] →
            u.streams[(5 : Fin 7)].queue.length = s.streams[(5 : Fin 7)].queue.length + 1)))

/-- R257, R259, R265, R267, R275, R277, R286: a wake clears its group, LOADING ends with the reply, SUSPENDING times
out, an item leaves the input and is written, with its end at IWP, or dropped and counted, and a fault of a core ends
the run of its group and records the first. -/
def Obligations.DspGroupsAndFaults : Prop :=
  (∀ (g : Fin 8) (s : State), s.gstate g = gWaking →
    Completes (.groupWakeDone g) s fun t => ∃ u : State, t = u.jobDone s.vdc.groups[g].wakeJob ∧ u.gstate g = gIdle
      ∧ u.domOn (dDSP g) = true ∧ u.bit R.VDC_STAT_AWAKE g = true ∧ u.bit R.VDC_STAT_RUNNING g = false
      ∧ (∀ i : Fin 8, u.vdc.cores[(Fin.ofNat 64 (8 * g.val + i.val))] = dcoreInit)
      ∧ ∀ a, Dsp.xBase (8 * g.val) ≤ a → a < Dsp.xBase (8 * g.val + 8) → Mem.read u.sram sramFill a = sramFill)
  ∧ (∀ (g : Fin 8) (p : Packet) (s : State), s.gstate g = gLoading → s.vdc.groups[g].load = some p →
    Completes (.kernelLoadDone g) s fun t => ∃ u : State, t = u.reply p OK 0 ∧ u.gstate g = gIdle
      ∧ u.vdc.groups[g].load = none ∧ u.sram = s.sram)
  ∧ (∀ (g : Fin 8) (s : State), s.gstate g = gSuspending →
    Completes (.suspendTimeout g) s fun t => ∃ u : State, t = u.jobSuspended (s.rd (R.VDC_GRP_JOB_HANDLE g))
      ∧ u.gstate g = gSuspended ∧ u.vdc = s.vdc)
  ∧ (∀ (v : VItem) (r : List VItem) (s : State), s.vdcIn = v :: r → (∀ i : Fin 64, s.on (R.VDC_BIND_EN i) = false) →
    Completes .vdcItemDeliver s fun t => t = { s with vdcIn := r })
  ∧ (∀ (v : VItem) (r : List VItem) (i : Fin 64) (pay : List Nat) (point : Nat) (s : State), s.vdcIn = v :: r →
    s.bindPayload i v = some (pay, point) → (∀ j : Fin 64, j ≠ i → s.on (R.VDC_BIND_EN j) = false) →
    s.gruns (groupOf (s.bindCore i)) = true →
    s.bit (R.VDC_GRP_STAT_MASK (groupOf (s.bindCore i))) ((s.bindCore i).val % 8) = true →
    (s.vdc.cores[s.bindCore i]).halted = false →
    s.rd (R.VDC_BIND_SIZE i) - 32 - s.ringUsed (s.bindCore i) (Fin.ofNat 4 (s.rd (R.VDC_BIND_CHAN i)))
      < (itemBytes v i (s.vdc.missed[i]) point pay).length →
    Completes .vdcItemDeliver s fun t => t.vdc.cores = s.vdc.cores
      ∧ t.rd (R.VDC_BIND_DROPPED i) = min (s.rd (R.VDC_BIND_DROPPED i) + 1) (2 ^ 32 - 1)
      ∧ t.vdc.missed[i] = min (s.vdc.missed[i] + 1) (2 ^ 16 - 1)
      ∧ t.bit R.VDC_EVENT_DROP (groupOf (s.bindCore i)) = true ∧ BytesKept s t)
  ∧ (∀ (v : VItem) (i : Fin 64) (pay : List Nat) (point : Nat) (s : State),
    let c := s.bindCore i
    let ch : Fin 4 := Fin.ofNat 4 (s.rd (R.VDC_BIND_CHAN i))
    let base := s.rd (R.VDC_BIND_BASE i)
    let size := s.rd (R.VDC_BIND_SIZE i)
    let w := ((s.vdc.cores[c]).iwp[ch]).toNat
    let bytes := itemBytes v i (s.vdc.missed[i]) point pay
    s.vdcIn = [v] → s.bindPayload i v = some (pay, point) → (∀ j : Fin 64, j ≠ i → s.on (R.VDC_BIND_EN j) = false) →
    s.gstate (groupOf c) = gRunning → s.bit (R.VDC_GRP_STAT_MASK (groupOf c)) (c.val % 8) = true →
    (s.vdc.cores[c]).halted = false → bytes.length ≤ size - 32 - s.ringUsed c ch →
    Completes .vdcItemDeliver s fun t => ∃ u : State, t = (u.waitCheck c).groupCheck (groupOf c)
      ∧ (u.vdc.cores[c]).iwp[ch] = BitVec.ofNat 16 (base + (w - base + bytes.length) % size)
      ∧ u.vdc.missed[i] = 0
      ∧ (base ≤ w → w + bytes.length ≤ base + size → ∀ k < bytes.length,
          (Mem.read u.sram sramFill (Dsp.xBase c + w + k)).toNat = bytes.getD k 0 % 256))
  ∧ (∀ (c : Fin 64) (s : State), s.coreIssues c = true → Dsp.legal (s.coreWord c) = false →
    Completes (.illegalInstruction c) s fun t => t = s.coreFault c 1)
  ∧ (∀ (c : Fin 64) (s : State), CoreIssues s c 0 2 → 8 ≤ (s.vdc.cores[c]).calls.length →
    Completes (.call c) s fun t => t = (s.coreFault c 3).groupCheck (groupOf c))
  ∧ (∀ (c : Fin 64) (s : State), CoreIssues s c 0 3 → (s.vdc.cores[c]).calls = [] →
    Completes (.ret c) s fun t => t = (s.coreFault c 3).groupCheck (groupOf c))
  ∧ (∀ (c : Fin 64) (s : State), CoreIssues s c 0 4 → 4 ≤ (s.vdc.cores[c]).loops.length →
    Dsp.sreg s.vdc.cores[c] (Dsp.ctrlS (s.coreWord c)) ≠ 0#32 →
    Completes (.loop c) s fun t => t = (s.coreFault c 4).groupCheck (groupOf c))
  ∧ (∀ (c : Fin 64) (s : State), CoreIssues s c 6 3 → (s.vdc.cores[c]).xfer = none →
    xferRange (32 * (s.vdc.cores[c]).xrem.toNat) (s.vdc.cores[c]).xlen.toNat = false →
    Completes (.xferTo c) s fun t => t = (s.coreFault c 6).groupCheck (groupOf c))
  ∧ ∀ (c : Fin 64) (code : Nat) (s : State), code < 16 → ∃ u : State,
      s.coreFault c code = u.jobFailed (s.rd (R.VDC_GRP_JOB_HANDLE (groupOf c))) E_DSP_FAULT (c.val % 8 * 4096 + code)
      ∧ u.gstate (groupOf c) = gIdle ∧ u.bit R.VDC_EVENT_FAULT (groupOf c) = true
      ∧ u.bit R.VDC_EVENT_DONE (groupOf c) = true ∧ u.on (R.VDC_GRP_FAULT_VALID (groupOf c)) = true
      ∧ (s.on (R.VDC_GRP_FAULT_VALID (groupOf c)) = false → u.rd (R.VDC_GRP_FAULT_CODE (groupOf c)) = code
          ∧ u.rd (R.VDC_GRP_FAULT_CORE (groupOf c)) = c.val % 8
          ∧ u.rd (R.VDC_GRP_FAULT_PC (groupOf c)) = (s.vdc.cores[c]).pc % 2 ^ 12)
      ∧ (s.on (R.VDC_GRP_FAULT_VALID (groupOf c)) = true →
          u.rd (R.VDC_GRP_FAULT_CODE (groupOf c)) = s.rd (R.VDC_GRP_FAULT_CODE (groupOf c)))
      ∧ ∀ e ∈ groupCores (groupOf c), (u.vdc.cores[e]).halted = true ∧ (u.vdc.cores[e]).xfer = none
          ∧ (u.vdc.cores[e]).out = none

/-- R291, R292, R295, R300, R302, R303, R305, R308, R309: arming with its check, DISARM, the end of the fill, a unit
that is stored in its slot or dropped, the completion of a RAW segment, re-arm, release, and a freed slot. -/
def Obligations.AcquisitionChannels : Prop :=
  (∀ (k : Fin 4) (s : State), s.domOn dCORE = true → s.armCheck k = (OK, 0) →
    Completes (.acqArmWrite k) s fun t => t.rd (R.ACQ_CH_STAT_JOB k) = 1 ∧ t.bit R.ACQ_STAT_ARMED k = true
      ∧ t.cstate k = (if s.chPre k = 0 then cReady else cFilling) ∧ t.rd (R.ACQ_CH_STAT_SLOT k) = 0
      ∧ t.rd (R.ACQ_CH_STRIDE_VALUE k) = s.chStride k % 2 ^ 32 ∧ t.rd (R.ACQ_CH_SEGS_COUNT k) = 0
      ∧ t.rd (R.ACQ_CH_CHECK_CHECK k) = 0 ∧ t.acq.ch[k].usize = s.chUsize k ∧ t.acq.ch[k].busy = [])
  ∧ (∀ (k : Fin 4) (st c : Nat) (s : State), s.domOn dCORE = true → s.armCheck k = (st, c) → c ≠ 0 →
    Completes (.acqArmWrite k) s fun t => t.acq = s.acq ∧ t.rd (R.ACQ_CH_CHECK_CHECK k) = c
      ∧ t.rd (R.ACQ_CH_CHECK_STATUS k) = st ∧ t.rd (R.ACQ_CH_STAT_JOB k) = s.rd (R.ACQ_CH_STAT_JOB k))
  ∧ (∀ (k : Fin 4) (s : State), s.domOn dCORE = true → s.chLive k = true →
    Completes (.acqDisarmWrite k) s fun t => ∃ u : State, t = u.chCheckEnd k ∧ u.acq.ch[k].draining = true
      ∧ u.acq.ch[k].seg = s.acq.ch[k].seg ∧ u.regs = s.regs)
  ∧ (∀ (k : Fin 4) (s : State), s.cstate k = cFilling →
    s.chPre k ≤ (if s.rd (R.ACQ_CH_CFG0_SRC k) = 0 then s.tbu.raw - s.acq.ch[k].fillRaw else s.acq.ch[k].filled) →
    Completes (.preFilled k) s fun t => t.cstate k = cReady ∧ t.acq = s.acq)
  ∧ (∀ (k : Fin 4) (level : BitVec 17) (ecc : Ecc) (u : CapUnit) (r : List CapUnit) (s : State),
    s.acq.ch[k].inq = u :: r → s.cstate k = cReady → s.on (R.ACQ_CH_CFG0_MEM k) = false → s.acq.ch[k].seg = none →
    Completes (.acqUnitStore k level ecc) s fun t => t.acq.ch[k].inq = r
      ∧ t.acq.ch[k].filled = s.acq.ch[k].filled + 1
      ∧ t.acq.ch[k].units = (s.acq.ch[k].units ++ [u]).drop (s.acq.ch[k].units.length + 1 - s.rd (R.ACQ_CH_SEG_UNITS k))
      ∧ t.dram = s.dram ∧ t.flash = s.flash ∧ t.regs = s.regs
      ∧ (0 < s.rd (R.ACQ_CH_STRIDE_VALUE k) → u.bytes.length ≤ s.acq.ch[k].usize →
          s.acq.ch[k].usize ≤ s.rd (R.ACQ_CH_STRIDE_VALUE k) →
          let a := acqBase + (s.chRegion k).1 + s.rd (R.ACQ_CH_STAT_SLOT k) * s.rd (R.ACQ_CH_STRIDE_VALUE k)
          ∀ b, b < a ∨ a + s.rd (R.ACQ_CH_STRIDE_VALUE k) ≤ b →
            Mem.read t.sram sramFill b = Mem.read s.sram sramFill b))
  ∧ (∀ (k : Fin 4) (level : BitVec 17) (ecc : Ecc) (u : CapUnit) (r : List CapUnit) (s : State),
    s.acq.ch[k].inq = u :: r → s.cstate k = cReady → s.on (R.ACQ_CH_CFG0_MEM k) = true →
    65536 < level.toNat + s.acq.ch[k].usize →
    Completes (.acqUnitStore k level ecc) s fun t => t.acq.ch[k].inq = r ∧ t.acq.ch[k].units = s.acq.ch[k].units
      ∧ t.acq.ch[k].drops = s.acq.ch[k].drops ++ [u.stamp] ∧ t.bit R.ACQ_EVENT_OVERRUN k = true ∧ BytesKept s t)
  ∧ (∀ (k : Fin 4) (level : BitVec 17) (ecc : Ecc) (s : State), s.acq.ch[k].inq = [] → s.rd (R.ACQ_CH_CFG0_SRC k) = 0 →
    s.chWrites k = true → s.on (R.ACQ_CH_CFG0_MEM k) = true →
    s.acq.ch[k].fillRaw + s.chLatency k + 32 ≤ s.tbu.raw + 1 →
    Completes (.acqUnitStore k level ecc) s fun t => BytesKept s t
      ∧ (if 65536 < level.toNat + 194 then
          t.acq.ch[k].drops = s.acq.ch[k].drops
              ++ [s.acq.ch[k].fillRaw + 32 * ((s.tbu.raw + 1 - s.chLatency k - s.acq.ch[k].fillRaw) / 32 - 1)]
            ∧ t.bit R.ACQ_EVENT_OVERRUN k = true ∧ t.acq.ch[k].buffer = level.toNat
        else t.acq.ch[k].drops = s.acq.ch[k].drops ∧ t.acq.ch[k].buffer = level.toNat + 194
          ∧ (s.rd R.ACQ_CTRL_PANIC_TH * 1024 ≤ level.toNat + 194 → t.on R.ACQ_STAT_PANIC = true)))
  ∧ (∀ (k : Fin 4) (xs : List Codes) (ecc : Ecc) (g : Segment) (s : State),
    s.acq.ch[k].seg = some g → s.rd (R.ACQ_CH_CFG0_SRC k) = 0 → s.cstate k = cPost → s.rawEnd k g ≤ s.tbu.raw →
    s.acq.ch[k].suspending = false →
    Completes (.segmentComplete k xs ecc) s fun t => ∃ (u : State) (d : Segment), t = u.chTryRelease k 64
      ∧ u.acq.ch[k].seg = none ∧ u.cstate k = cRearm ∧ u.acq.ch[k].busy = s.acq.ch[k].busy ++ [g.slot]
      ∧ u.acq.ch[k].recorded = s.acq.ch[k].recorded + 1 ∧ u.acq.ch[k].done = s.acq.ch[k].done ++ [d]
      ∧ d.first = g.first ∧ d.last = g.last ∧ d.pre = g.pre ∧ d.post = g.post
      ∧ (∀ b < (g.pre + g.post) / 32, b ∈ (s.eccOf (s.chMem k) ecc).ue → ∀ i < 192, d.data[192 * b + i]? = some 0))
  ∧ (∀ (k : Fin 4) (s : State), s.cstate k = cRearm → s.counted k = false → s.acq.ch[k].draining = false →
    Completes (.rearmDone k) s fun t => if s.nextFree k then
        t.rd (R.ACQ_CH_STAT_SLOT k) = s.acq.ch[k].next % 2 ^ 9 ∧ t.acq.ch[k].filled = 0
          ∧ t.cstate k = (if s.chPre k = 0 then cReady else cFilling)
      else t.cstate k = cFull ∧ t.acq = s.acq)
  ∧ (∀ (k : Fin 4) (s : State), s.cstate k = cRearm → (s.counted k = true ∨ s.acq.ch[k].draining = true) →
    Completes (.rearmDone k) s fun t => t = s.chCheckEnd k)
  ∧ (∀ (k : Fin 4) (g : Segment) (r : List Segment) (s : State), s.acq.ch[k].done = g :: r →
    overlaps ((s.ports[s.chPort k].courses).map fun c => (c.stamp, Arith.stampAdd c.stamp (10 * c.len - 1))) g.first g.last
      = 0 →
    Completes (.segmentRelease k) s fun t => ∃ u : State, t = u.chTryRelease k 63 ∧ u.acq.ch[k].done = r
      ∧ u.rd (R.ACQ_CH_SEGS_COUNT k) = (s.rd (R.ACQ_CH_SEGS_COUNT k) + 1) % 2 ^ 32
      ∧ u.bit R.ACQ_EVENT_RELEASE k = true)
  ∧ (∀ (k : Fin 4) (g : Segment) (r : List Segment) (s : State), s.acq.ch[k].done = g :: r →
    (∃ c ∈ s.ports[s.chPort k].courses,
      Arith.stampLt g.last c.stamp = false ∧ Arith.stampLt (Arith.stampAdd c.stamp (10 * c.len - 1)) g.first = false) →
    Completes (.segmentRelease k) s fun t => t = s)
  ∧ ∀ (k : Fin 4) (slot : BitVec 9) (s : State), s.domOn dCORE = true → slot.toNat < 256 →
    s.rd (R.ACQ_CH_DIR_WORD k slot.toNat 15) / 2 ^ 31 = 1 →
    Completes (.slotFree k slot) s fun t => ∃ u : State, t = u.slotFreed k slot.toNat ∧ u.acq = s.acq
      ∧ u.rd (R.ACQ_CH_DIR_WORD k slot.toNat 15) = s.rd (R.ACQ_CH_DIR_WORD k slot.toNat 15) % 2 ^ 31

/-- R300 to R302: where a trigger with stamp T finds a channel: counted as INPOST, MISSED, NOSLOT or LATE with
LOSTTRIG, or the start of a RAW segment whose first tick is T − PRE brought down to a multiple of 32, or, cut short,
the oldest tick of the history. Stamps are compared on their circle, about the present tick. -/
def Obligations.TriggerPlacesSegment : Prop :=
  ∀ (k : Fin 4) (x cond input origin : Nat) (array : Bool) (s : State), s.acq.ch[k].draining = false →
    s.acq.ch[k].suspending = false →
    let t := s.chTrigger k x cond input array origin
    let lost (f : Field) : Prop := t.rd f = min (s.rd f + 1) (2 ^ 16 - 1) ∧ t.bit R.ACQ_EVENT_LOSTTRIG k = true
      ∧ t.acq.ch[k].seg = s.acq.ch[k].seg ∧ t.cstate k = s.cstate k
    let seg := s.rd (R.ACQ_CH_SEG_UNITS k)
    let near (x : Nat) : Int := (s.now : Int) + Arith.toSigned 64 (Arith.stampSub x s.now)
    let f : Int := 32 * ((near x - s.chPre k) / 32)
    let old : Int := max (32 * -(-((s.now : Int) - seg + 64) / 32)) (near s.acq.ch[k].fillStart)
    let opens (first : Int) (cut : Nat) : Prop := t.cstate k = cPost ∧ t.acq.ch[k].lost = 0
      ∧ ∃ g, t.acq.ch[k].seg = some g ∧ g.first = Arith.stampAdd 0 first ∧ g.last = Arith.stampAdd 0 (first + seg - 1)
        ∧ g.trig = x ∧ g.flags = cut ∧ g.slot = s.rd (R.ACQ_CH_STAT_SLOT k)
    (s.cstate k = cPost → lost (R.ACQ_CH_LOSS0_INPOST k))
    ∧ (s.cstate k = cRearm → lost (R.ACQ_CH_LOSS0_MISSED k))
    ∧ (s.cstate k = cFull → lost (R.ACQ_CH_LOSS1_NOSLOT k))
    ∧ (s.cstate k = cIdle → t = s)
    ∧ ((s.cstate k = cReady ∨ s.cstate k = cFilling) → s.rd (R.ACQ_CH_CFG0_SRC k) = 0 →
        (near x < old → lost (R.ACQ_CH_LOSS1_LATE k))
        ∧ ((s.now : Int) + 16777216 < near x → lost (R.ACQ_CH_LOSS1_LATE k))
        ∧ (old ≤ f → near x ≤ s.now + 16777216 → opens f 0)
        ∧ (f < old → old ≤ near x → near x ≤ s.now + 16777216 → opens old 1))

/-- R296 to R299, R464: software triggers, timers, and the registers that enable and disable the sequencer. -/
def Obligations.TriggerSequencer : Prop :=
  (∀ (mask : BitVec 16) (i : Fin 16) (s : State), s.domOn dCORE = true → s.acq.inbox = [] →
    (s.acq.tinAt ≠ s.sys.uptime ∨ s.acq.tinMask.testBit i = false) →
    s.on R.ACQ_SEQ_CTRL_EN = true → s.on (R.ACQ_TIN_EN i) = true → s.rd (R.ACQ_TIN_SRC i) = 6 →
    mask.toNat.testBit i = true → s.rd (R.ACQ_SEQ_STATE_COND_A (s.rd R.ACQ_SEQ_STAT_STATE)) = i.val →
    (s.rd (R.ACQ_SEQ_STATE_ACT_A (s.rd R.ACQ_SEQ_STAT_STATE))).testBit 4 = false →
    Completes (.acqSwtrigWrite mask) s fun t => ∃ u : State,
      t.rd R.ACQ_SEQ_STAT_STATE = s.rd (R.ACQ_SEQ_STATE_NEXT_A (s.rd R.ACQ_SEQ_STAT_STATE)) % 2 ^ 4
      ∧ u.rd R.ACQ_SEQ_STAT_STATE = s.rd (R.ACQ_SEQ_STATE_NEXT_A (s.rd R.ACQ_SEQ_STAT_STATE)) % 2 ^ 4
      ∧ t = u.seqAct (s.rd (R.ACQ_SEQ_STATE_ACT_A (s.rd R.ACQ_SEQ_STAT_STATE))) i (i, s.now, 0))
  ∧ (∀ (mask : BitVec 16) (s : State), s.domOn dCORE = true → s.acq.inbox = [] → s.on R.ACQ_SEQ_CTRL_EN = false →
    s.acq.tinAt ≠ s.sys.uptime →
    Completes (.acqSwtrigWrite mask) s fun t =>
      ∃ m, t = { s with acq := { s.acq with tinAt := s.sys.uptime, tinMask := m } })
  ∧ (∀ (mask : BitVec 16) (s : State), s.domOn dCORE = true → s.acq.inbox = [] → s.acq.tinAt = s.sys.uptime →
    (∀ j ∈ s.inputsOf 6 none mask.toNat.testBit, s.acq.tinMask.testBit j = true) →
    Completes (.acqSwtrigWrite mask) s fun t => t.rd R.ACQ_TIN_MERGED_COUNT
          = min (s.rd R.ACQ_TIN_MERGED_COUNT + (s.inputsOf 6 none mask.toNat.testBit).length) (2 ^ 32 - 1)
      ∧ t.acq = s.acq ∧ t.rd R.ACQ_SEQ_STAT_STATE = s.rd R.ACQ_SEQ_STAT_STATE)
  ∧ (∀ (x : Nat) (s : State), s.acq.tmr0 = some x →
    Completes (.seqTimerExpire 0) s fun t => ∃ u : State, t = (u.seqCycle []).drainInbox 16 ∧ u.acq.tmr0 = none
      ∧ u.acq.exp0 = s.now ∧ u.on R.ACQ_SEQ_STAT_TMR0_EXP = true ∧ u.acq.tmr1 = s.acq.tmr1)
  ∧ (∀ (x : Nat) (s : State), s.acq.tmr1 = some x →
    Completes (.seqTimerExpire 1) s fun t => ∃ u : State, t = (u.seqCycle []).drainInbox 16 ∧ u.acq.tmr1 = none
      ∧ u.acq.exp1 = s.now ∧ u.on R.ACQ_SEQ_STAT_TMR1_EXP = true ∧ u.acq.tmr0 = s.acq.tmr0)
  ∧ (∀ (start : BitVec 4) (s : State), s.domOn dCORE = true → s.on R.ACQ_SEQ_CTRL_EN = false →
    Completes (.seqEnable start) s fun t => t.on R.ACQ_SEQ_CTRL_EN = true ∧ t.rd R.ACQ_SEQ_STAT_STATE = start.toNat
      ∧ t.rd R.ACQ_CNT0_COUNT = 0 ∧ t.rd R.ACQ_CNT1_COUNT = 0 ∧ t.acq.tmr0 = none ∧ t.acq.tmr1 = none
      ∧ t.on R.ACQ_SEQ_STAT_TMR0_EXP = false ∧ t.on R.ACQ_SEQ_STAT_TMR1_EXP = false)
  ∧ (∀ (start : BitVec 4) (s : State), s.domOn dCORE = true → s.on R.ACQ_SEQ_CTRL_EN = true →
    Completes (.seqEnable start) s fun t => t.rd R.ACQ_SEQ_CTRL_START = start.toNat
      ∧ t.rd R.ACQ_SEQ_STAT_STATE = s.rd R.ACQ_SEQ_STAT_STATE ∧ t.acq = s.acq)
  ∧ ∀ s : State, s.domOn dCORE = true → s.on R.ACQ_SEQ_CTRL_EN = true →
    Completes .seqDisable s fun t => t.on R.ACQ_SEQ_CTRL_EN = false ∧ t.acq.tmr0 = none ∧ t.acq.tmr1 = none
      ∧ t.rd R.ACQ_SEQ_STAT_STATE = s.rd R.ACQ_SEQ_STAT_STATE ∧ t.rd R.ACQ_CNT0_COUNT = s.rd R.ACQ_CNT0_COUNT

/-- R313 to R315, R321 to R324, R330: what CMP reads, the flush, and the end of a tile: released as the encoder made
it, as stored blocks after a failed verification, kept while the ring has no room, or cut at its TIMEOUT. -/
def Obligations.CompressionEngine : Prop :=
  (∀ (f : Frame) (r : List CmpItem) (s : State), s.cmpIn = .frame f :: r →
    Completes .cmpRow s fun t => ∃ u : State, t = u.cmpStops u.cmpIn.length ∧ u.cmpIn = r
      ∧ u = s.defsOn.foldl (fun (v : State) d => v.frameRow f d) { s with cmpIn := r })
  ∧ (∀ (x : TProf) (r : List CmpItem) (s : State), s.cmpIn = .profile x :: r →
    Completes .cmpRow s fun t => ∃ u : State, t = u.cmpStops u.cmpIn.length ∧ u.cmpIn = r
      ∧ u = s.defsOn.foldl (fun (v : State) d => v.profileRow x d) { s with cmpIn := r })
  ∧ (∀ (n : Nat) (g : Gap) (r : List CmpItem) (s : State), s.cmpIn = .gap n g :: r →
    Completes .cmpGap s fun t => ∃ u : State, t = u.cmpStops u.cmpIn.length ∧ u.cmpIn = r
      ∧ u = ({ s with cmpIn := r } : State).gapArrive n g)
  ∧ (∀ (mask : Word) (s : State), s.domOn dCORE = true →
    Completes (.cmpFlushWrite mask) s fun t => ∀ d : Fin 32,
      if d ∈ s.defsOn ∧ mask.toNat.testBit d = true then t.cmp.defs[d].rows = [] else t.cmp.defs[d] = s.cmp.defs[d])
  ∧ (∀ (n : Fin 4) (ecc : Ecc) (x : Tile) (r : List EngItem) (s : State), s.cmp.engs[n].queue = .tile x :: r →
    x.t < 32 → (∀ g q, r ≠ .gap g :: q) → Deflate.inflate (s.engBody n x) = some x.payload →
    (s.eccOf (if s.on (R.CMP_DEF_MEM x.t) then 4 else 2) ecc).ue = [] → s.ringFits n (s.engBody n x).length = true →
    Completes (.tileRelease n 0 ecc) s fun t => t.cmp.engs[n].queue = r
      ∧ t.rd (R.CMP_DEF_TILES x.t) = (s.rd (R.CMP_DEF_TILES x.t) + 1) % 2 ^ 32
      ∧ t.rd R.CMP_VFAIL_COUNT = s.rd R.CMP_VFAIL_COUNT ∧ t.rd R.CMP_BAD_COUNT = s.rd R.CMP_BAD_COUNT
      ∧ (shut s.streams[(1 : Fin 7)] = false → s.streams[(1 : Fin 7)].waitq = [] → ∃ y : Rec,
          t.streams[(1 : Fin 7)].queue = s.streams[(1 : Fin 7)].queue ++ [y] ∧ y.lane = n.val
          ∧ y.body.drop 64 = s.engBody n x))
  ∧ (∀ (n : Fin 4) (fault : Fin 3) (ecc : Ecc) (x : Tile) (r : List EngItem) (s : State),
    s.cmp.engs[n].queue = .tile x :: r → x.t < 32 → (∀ g q, r ≠ .gap g :: q) → fault ≠ 0 →
    s.cmp.engs[n].again = false → s.ringFits n (Deflate.stored x.payload.length x.payload).length = true →
    Completes (.tileRelease n fault ecc) s fun t => t.cmp.engs[n].queue = r
      ∧ t.rd R.CMP_VFAIL_COUNT = min (s.rd R.CMP_VFAIL_COUNT + 1) (2 ^ 32 - 1) ∧ t.bit R.CMP_EVENT_VERIFY n = true
      ∧ (fault = 2 ∨ (s.eccOf (if s.on (R.CMP_DEF_MEM x.t) then 4 else 2) ecc).ue ≠ [] →
          t.rd R.CMP_BAD_COUNT = min (s.rd R.CMP_BAD_COUNT + 1) (2 ^ 32 - 1) ∧ t.on R.CMP_EVENT_BAD = true))
  ∧ (∀ (n : Fin 4) (ecc : Ecc) (x : Tile) (r : List EngItem) (s : State), s.cmp.engs[n].queue = .tile x :: r →
    Deflate.inflate (s.engBody n x) = some x.payload →
    (s.eccOf (if s.on (R.CMP_DEF_MEM x.t) then 4 else 2) ecc).ue = [] → s.ringFits n (s.engBody n x).length = false →
    Completes (.tileRelease n 0 ecc) s fun t => t.cmp = s.cmp ∧ t.bit R.CMP_STAT_STALL n = true
      ∧ t.rd (R.CMP_DEF_TILES x.t) = s.rd (R.CMP_DEF_TILES x.t))
  ∧ ∀ (n : Fin 4) (x : Tile) (r : List EngItem) (k : Nat) (s : State),
    s.cmp.engs[n].queue = .tile x :: r → x.t < 32 → s.bit R.CMP_STAT_STALL n = true → s.ringRoom n = some k → 96 ≤ k →
    Completes (.tileTimeout n) s fun t =>
      t.rd (R.CMP_DEF_TRUNC x.t) = min (s.rd (R.CMP_DEF_TRUNC x.t) + 1) (2 ^ 16 - 1)
      ∧ t.bit R.CMP_EVENT_TRUNC n = true ∧ t.rd (R.CMP_DEF_TILES x.t) = (s.rd (R.CMP_DEF_TILES x.t) + 1) % 2 ^ 32

/-- R313, R316: what an arriving row does to the open set of a definition: skipped and counted where it lacks a point
or no set is free, laid beside the rows of the set, and closing the set that it fills. R319, R322: the shadow decoder
reads from the stored blocks of a re-emission the payload they were made of. -/
def Obligations.TilesAndStoredBlocks : Prop :=
  (
  ∀ (d : Fin 32) (r : TRow) (v : List Nat) (s : State),
    (∀ x l, s.cmp.defs[d].rows = x :: l → rowCloses s.cmp.defs[d] r = none) →
    (s.cmp.defs[d].rows = [] → s.setsBusy d < 2) →
    (s.cmp.defs[d].rows.length + 1 < s.rd (R.CMP_DEF_DEPTH d) →
      (s.rowArrive d r (some v)).cmp.defs[d].rows = s.cmp.defs[d].rows ++ [{ r with vals := v }])
    ∧ (s.rd (R.CMP_DEF_DEPTH d) ≤ s.cmp.defs[d].rows.length + 1 →
      let t := s.rowArrive d r (some v)
      t.cmp.defs[d].rows = [] ∧ t.cmp.defs[d].set = s.cmp.defs[d].set + 1 ∧ t.cmp.defs[d].missed = 0
        ∧ t.cmp.engs[s.defEng d].queue.length = s.cmp.engs[s.defEng d].queue.length + (s.columns d).length)
    ∧ (let t := s.rowArrive d r none
      t.cmp.defs[d].rows = [] ∧ t.rd (R.CMP_DEF_SKIPPED d) = min (s.rd (R.CMP_DEF_SKIPPED d) + 1) (2 ^ 16 - 1)))
  ∧ (
  ∀ l : List Nat, l ≠ [] → (∀ b ∈ l, b < 256) → Deflate.inflate (Deflate.stored l.length l) = some l)

/-- R356, R358, R362, R363, R365 to R368: the renderer's tile and GAP line, COMMIT and TCOMMIT, the latch at vertical
blanking, the end of a frame, an underrun, and the edges, delay and timeout of PNL_TE. -/
def Obligations.ScanOut : Prop :=
  (∀ (x : Tile) (r : List EngItem) (s : State), s.sco.queue = .tile x :: r → s.memc.outage = false →
    Completes .scoTile s fun t => ∃ u : State, t = u.scoPass r.length ∧ u.sco.queue = r
      ∧ (∃ taken, u.sco.cur = some (x.first, x.rows, taken)) ∧ u.sram = s.sram ∧ u.flash = s.flash)
  ∧ (∀ (i : EngItem) (r : List EngItem) (s : State), s.sco.queue = i :: r → s.memc.outage = true →
    Completes .scoTile s fun t => t = s)
  ∧ (∀ (g : Gap) (r : List EngItem) (s : State), s.sco.queue = .gap g :: r → s.memc.outage = false →
    s.rd R.SCO_PIX_FORMAT ≤ 2 →
    Completes .scoGapRecord s fun t => ∃ u : State, t = u.scoPass r.length ∧ u.sco.queue = r ∧ u.sco.cur = none
      ∧ u.rd R.SCO_STAT_WR_LINE = (s.setFinish.rd R.SCO_STAT_WR_LINE + 1) % s.fbLines % 2 ^ 13
      ∧ ∀ x < s.hact, u.dramGet (s.pixAddr (s.setFinish.rd R.SCO_STAT_WR_LINE) x) s.pixBytes
          = s.pixelOf (s.rd R.SCO_COL_GAP_RGB))
  ∧ (∀ s : State, s.domOn dCORE = true →
    Completes .scoCommitWrite s fun t => t.sco = { s.sco with pend := some (s.rd R.SCO_FB_BASE_ADDR, s.rd R.SCO_FB_TOP_TOP) }
      ∧ t.on R.SCO_STAT_PENDING = true)
  ∧ (∀ s : State, s.domOn dCORE = true →
    Completes .scoTcommitWrite s fun t =>
      if timingBad s.scoShadow then t.sco = s.sco ∧ t.on R.SCO_EVENT_CFG_REJECT = true
      else if s.scoState = scoOff then t.sco = { s.sco with timing := s.scoShadow }
      else t.sco = { s.sco with tpend := some s.scoShadow } ∧ t.on R.SCO_STAT_TPENDING = true)
  ∧ (∀ (b top : Nat) (s : State), s.frameOn = true → s.sco.pend = some (b, top) →
    Completes .vblankStart s fun t => t.sco.base = b ∧ t.sco.pend = none ∧ t.on R.SCO_STAT_PENDING = false
      ∧ t.on R.SCO_EVENT_LATCHED = true ∧ t.rd R.SCO_STAT_LINE = (s.linesAhead + s.vact) % 2 ^ 13
      ∧ (s.on R.SCO_MAP_AUTO_TOP = false → t.sco.top = top))
  ∧ (∀ s : State, s.frameOn = true → s.sco.pend = none →
    Completes .vblankStart s fun t => t.rd R.SCO_STAT_LINE = (s.linesAhead + s.vact) % 2 ^ 13 ∧ t.on R.SCO_STAT_PANIC = false
      ∧ t.sco = if s.on R.SCO_MAP_AUTO_TOP
          then { s.sco with top := ((((s.rd R.SCO_STAT_WR_LINE : Nat) : Int) - s.vact) % s.fbLines).toNat } else s.sco)
  ∧ (∀ s : State, s.frameOn = true → s.scoState = scoRun →
    Completes .frameEnd s fun t => t.sco.sending = false ∧ t.rd R.SCO_STAT_LINE = 0
      ∧ t.sco.timing = s.sco.tpend.getD s.sco.timing ∧ t.sco.tpend = none
      ∧ t.on R.SCO_STAT_BLACK = s.sco.tpend.isSome)
  ∧ (∀ s : State, s.frameOn = true → s.scoState = scoStopping →
    Completes .frameEnd s fun t => ∃ u : State, t = u.jobDone s.sco.stopJob ∧ u.scoState = scoOff
      ∧ u.sco.queue = s.sco.queue ∧ u.sco.under = [] ∧ u.holdsHods .sco = false)
  ∧ (∀ (line x : BitVec 13) (s : State), s.frameOn = true → line.toNat < s.vact → x.toNat < s.hact →
    (∀ u ∈ s.sco.under, u.1 ≠ line.toNat) →
    Completes (.lineUnderrun line x) s fun t => t.sco = { s.sco with under := s.sco.under ++ [(line.toNat, x.toNat)] }
      ∧ t.rd R.SCO_STAT_LINE = (s.linesAhead + line.toNat) % 2 ^ 13 ∧ t.on R.SCO_EVENT_UNDERRUN = true
      ∧ t.rd R.SCO_UNDERRUN_COUNT = min (s.rd R.SCO_UNDERRUN_COUNT + 1) (2 ^ 32 - 1))
  ∧ (∀ (rising : Bool) (s : State), s.scoState ≠ scoOff → s.scoCmd = true →
    rising = (tget s.sco.timing R.SCO_TCFG_TEPOL == 0) →
    Completes (.pnlTeEdge rising) s fun t => if s.sco.sending
      then t.sco = s.sco ∧ t.rd R.SCO_TE_CNT_EARLY = min (s.rd R.SCO_TE_CNT_EARLY + 1) (2 ^ 16 - 1)
      else t.sco = { s.sco with delaying := true } ∧ t.regs = s.regs)
  ∧ (∀ s : State, s.sco.delaying = true → s.scoState ≠ scoOff →
    Completes .teDelayEnd s fun t => t.sco = { s.sco with delaying := false, sending := true } ∧ t.regs = s.regs)
  ∧ ∀ s : State, s.scoState ≠ scoOff → s.scoCmd = true → s.sco.sending = false → s.sco.delaying = false →
    Completes .teTimeout s fun t => t.sco = { s.sco with sending := true } ∧ t.on R.SCO_EVENT_TE_MISS = true
      ∧ t.rd R.SCO_TE_CNT_MISS = min (s.rd R.SCO_TE_CNT_MISS + 1) (2 ^ 16 - 1)

/-- R329, R330, R380, R381, R383, R387: a record leaves its stream over PCIe, with the write count behind it, or over
Ethernet, or as far as the ring of the host has room; the host's read count; the message that waits. `turnTo` puts the
record of the ring whose turn it is first. -/
def Obligations.Streams : Prop :=
  (∀ (st : Fin 7) (r : Rec) (l : List Rec) (s : State),
    let q := turnTo st s.streams[st]
    let bytes := recordBytes st (q.seq + 1) r
    let size := 2 ^ s.rd (R.HIF_STR_CFG_SIZE st)
    q.queue = r :: l → q.dest = 1 → s.pcieUp = true → q.part = 0 → q.closing = false → q.waitq = [] →
    bytes.length ≤ size - (q.written + 2 ^ 64 - s.rd (R.HIF_STR_RD_VALUE st)) % 2 ^ 64 → bytes.length ≤ 65536 →
    q.written % size + bytes.length ≤ size →
    Completes (.streamRecordSend st) s fun t => t.streams[st].queue = l ∧ t.streams[st].seq = (q.seq + 1) % 2 ^ 32
      ∧ t.rd (R.CMP_STR_SEQ_SEQ st) = (q.seq + 1) % 2 ^ 32
      ∧ t.streams[st].written = (q.written + bytes.length) % 2 ^ 64
      ∧ ∃ more, t.out = s.out ++ .hostWrite (s.rd (R.HIF_STR_BASE_VALUE st) + q.written % size) bytes
          :: .hostWrite (s.rd (R.HIF_STR_WADDR_VALUE st)) (Arith.leBytes 8 ((q.written + bytes.length) % 2 ^ 64)) :: more)
  ∧ (∀ (st : Fin 7) (r : Rec) (l : List Rec) (s : State),
    let q := turnTo st s.streams[st]
    let room := 2 ^ s.rd (R.HIF_STR_CFG_SIZE st) - (q.written + 2 ^ 64 - s.rd (R.HIF_STR_RD_VALUE st)) % 2 ^ 64
    q.queue = r :: l → q.dest = 1 → s.pcieUp = true → q.part = 0 → room < (recordBytes st (q.seq + 1) r).length →
    Completes (.streamRecordSend st) s fun t => t.streams[st].queue = r :: l ∧ t.streams[st].part = room
      ∧ t.streams[st].seq = q.seq ∧ t.rd (R.CMP_STR_SEQ_SEQ st) = s.rd (R.CMP_STR_SEQ_SEQ st))
  ∧ (∀ (st : Fin 7) (r : Rec) (l : List Rec) (m : Fin 2) (s : State),
    let q := turnTo st s.streams[st]
    q.queue = r :: l → q.dest = 2 → q.ethM = m.val → q.closing = false → q.waitq = [] → s.ethUp m = true →
    s.ethNext m = some st → s.hif.pause[m] ≤ s.sys.uptime → s.hif.paced[m] ≤ s.sys.uptime →
    Completes (.streamRecordSend st) s fun t => t.streams[st].queue = l ∧ t.streams[st].seq = (q.seq + 1) % 2 ^ 32
      ∧ t.hif.ethTurn[m] = st.val)
  ∧ (∀ (st : Fin 7) (rd : DWord) (s : State), s.domOn dCORE = true → st ≠ 0 →
    Completes (.strRdWrite st rd) s fun t => t = s.wr (R.HIF_STR_RD_VALUE st) rd.toNat)
  ∧ (∀ (rd : DWord) (s : State), Completes (.strRdWrite 0 rd) s fun t => t = s)
  ∧ ∀ (st : Fin 7) (s : State),
    Completes (.strCoalesceTimer st) s fun t => if s.streams[st].coal
      then ∃ u : State, t = u.signal st ∧ u.streams[st].coal = false ∧ u.streams[st].lastMsg = some s.sys.uptime
        ∧ u.regs = s.regs
      else t = s

/-- R376, R377, R379, R394: a new tail; a descriptor and packet that are read; a descriptor or packet that fails; a
ring that waits since nothing is to be fetched, the store of held completions is full or no place is free. R378, R379,
R383: a completion is written with its result, held while the ring is full, or lost; entries are freed; the coalesced
message leaves after COAL_US. -/
def Obligations.HostRings : Prop :=
  (
  (∀ (v : Word) (s : State), s.domOn dCORE = true →
    Completes (.sqTailWrite v) s fun t => t.rd R.HIF_SQ_TAIL_INDEX = v.toNat % 4096
      ∧ RegsKept [R.HIF_SQ_TAIL_INDEX.key] s t ∧ t.hif = s.hif ∧ t.cmd = s.cmd ∧ BytesKept s t)
  ∧ (∀ (d : Vector Word 8) (l : List Byte) (b : BusEnd) (s : State), s.sqFetches = true → descBad d = false →
    (s.on R.HIF_SQ_CFG_CRC_EN = false ∨ packetCrc (l.map BitVec.toNat) = true) →
    packetLength (l.map BitVec.toNat) = false →
    let p := packetOf .pcie (l.map BitVec.toNat) d[3].toNat (d[4].toNat + d[5].toNat * 2 ^ 32) b
    (∀ st, s.packetCheck p ≠ some (9, st)) →
    Completes (.descriptorFetch d l false b) s fun t => ∃ u : State, t = u.accept p
      ∧ u.rd R.HIF_SQ_HEAD_INDEX = (s.rd R.HIF_SQ_HEAD_INDEX + 1) % 2 ^ (s.rd R.HIF_SQ_CFG_SIZE + 4) % 4096
      ∧ RegsKept [R.HIF_SQ_HEAD_INDEX.key] s u ∧ u.cmd = s.cmd ∧ u.hif = s.hif ∧ u.out = s.out)
  ∧ (∀ (d : Vector Word 8) (l : List Byte) (b : BusEnd) (s : State), s.sqFetches = true →
    (descBad d = true ∨ s.on R.HIF_SQ_CFG_CRC_EN = true ∧ packetCrc (l.map BitVec.toNat) = false
      ∨ packetLength (l.map BitVec.toNat) = true) →
    Completes (.descriptorFetch d l false b) s fun t => ∃ u : State,
      t = u.sendCompletion ⟨⟨0, 0xFF, 0, E_PARAM, s.rd R.HIF_SQ_HEAD_INDEX, 0, s.now, []⟩, 0, 0, false⟩
      ∧ u.rd R.HIF_SQ_HEAD_INDEX = (s.rd R.HIF_SQ_HEAD_INDEX + 1) % 2 ^ (s.rd R.HIF_SQ_CFG_SIZE + 4) % 4096
      ∧ u.on R.HIF_EVENT_DESC_ERR = true ∧ u.rd R.HIF_EVENT_DMA_ERR = s.rd R.HIF_EVENT_DMA_ERR ∧ u.cmd = s.cmd
      ∧ u.hif = s.hif)
  ∧ (∀ (d : Vector Word 8) (l : List Byte) (b : BusEnd) (s : State), s.sqFetches = true →
    Completes (.descriptorFetch d l true b) s fun t => ∃ u : State,
      t = u.sendCompletion ⟨⟨0, 0xFF, 0, E_PARAM, s.rd R.HIF_SQ_HEAD_INDEX, 0, s.now, []⟩, 0, 0, false⟩
      ∧ u.rd R.HIF_SQ_HEAD_INDEX = (s.rd R.HIF_SQ_HEAD_INDEX + 1) % 2 ^ (s.rd R.HIF_SQ_CFG_SIZE + 4) % 4096
      ∧ u.on R.HIF_EVENT_DESC_ERR = true ∧ u.on R.HIF_EVENT_DMA_ERR = true ∧ u.cmd = s.cmd ∧ u.hif = s.hif)
  ∧ (∀ (d : Vector Word 8) (l : List Byte) (b : BusEnd) (st : Nat) (s : State), descBad d = false →
    (s.on R.HIF_SQ_CFG_CRC_EN = false ∨ packetCrc (l.map BitVec.toNat) = true) →
    packetLength (l.map BitVec.toNat) = false →
    s.packetCheck (packetOf .pcie (l.map BitVec.toNat) d[3].toNat (d[4].toNat + d[5].toNat * 2 ^ 32) b) = some (9, st) →
    Completes (.descriptorFetch d l false b) s fun t => t = s)
  ∧ ∀ (d : Vector Word 8) (l : List Byte) (dma : Bool) (b : BusEnd) (s : State),
    (s.on R.HIF_SQ_CFG_EN = false ∨ s.rd R.HIF_SQ_HEAD_INDEX = s.rd R.HIF_SQ_TAIL_INDEX ∨ s.pcieUp = false
      ∨ 64 ≤ s.hif.held.length) →
    Completes (.descriptorFetch d l dma b) s fun t => t = s)
  ∧ (
  (∀ (c : Completion) (s : State), s.on R.HIF_CQ_CFG_EN = true → s.hif.held = [] → s.cqFull = false → s.pcieUp = true →
    let n := 2 ^ (s.rd R.HIF_CQ_CFG_SIZE + 4)
    let tail := s.rd R.HIF_CQ_TAIL_INDEX
    let bytes := Arith.bytesOfWords c.reply.result
    let entry := Arith.bytesOfWords (replyHeader c.reply ++ [s.rd R.HIF_SQ_HEAD_INDEX,
      Arith.ofBool s.hif.phase * 2 ^ 31 + Arith.ofBool (decide (c.rcap < bytes.length)) * 2 ^ 30])
    let t := s.sendCompletion c
    (∃ l, t.out = s.out ++ (if bytes = [] ∨ c.rcap = 0 then [] else [.hostWrite c.addr (bytes.take c.rcap)])
        ++ [.hostWrite (s.rd R.HIF_CQ_BASE_ADDR * 4096 + 32 * tail) entry] ++ l
      ∧ (l = [] ∨ l = [.msix 0]))
    ∧ t.rd R.HIF_CQ_TAIL_INDEX = (tail + 1) % n % 4096 ∧ t.rd R.HIF_CQ_LOST_COUNT = s.rd R.HIF_CQ_LOST_COUNT
    ∧ t.hif.phase = (if tail + 1 = n then !s.hif.phase else s.hif.phase) ∧ t.hif.held = []
    ∧ t.cmd = if c.own then (s.tagFree .pcie c.reply.tag).cmd else s.cmd)
  ∧ (∀ (c : Completion) (s : State), s.on R.HIF_CQ_CFG_EN = true → s.cqFull = true →
    (s.hif.held.length < 64 ∨ c.own = true) →
    let t := s.sendCompletion c
    t.hif.held = s.hif.held ++ [c] ∧ t.on R.HIF_EVENT_CQ_FULL = true ∧ t.cmd = s.cmd
      ∧ t.rd R.HIF_CQ_TAIL_INDEX = s.rd R.HIF_CQ_TAIL_INDEX ∧ t.rd R.HIF_CQ_LOST_COUNT = s.rd R.HIF_CQ_LOST_COUNT)
  ∧ (∀ (c : Completion) (s : State), 64 ≤ s.hif.held.length → c.own = false →
    let t := s.sendCompletion c
    t.rd R.HIF_CQ_LOST_COUNT = min (s.rd R.HIF_CQ_LOST_COUNT + 1) (2 ^ 32 - 1) ∧ t.hif = s.hif ∧ t.out = s.out
      ∧ t.cmd = s.cmd)
  ∧ (∀ (c : Completion) (s : State), s.on R.HIF_CQ_CFG_EN = false →
    let t := s.sendCompletion c
    t.rd R.HIF_CQ_LOST_COUNT = min (s.rd R.HIF_CQ_LOST_COUNT + 1) (2 ^ 32 - 1) ∧ t.hif = s.hif ∧ t.out = s.out
      ∧ RegsKept [R.HIF_CQ_LOST_COUNT.key] s t)
  ∧ (∀ (v : Word) (s : State), s.domOn dCORE = true →
    Completes (.cqHeadWrite v) s fun t => t.rd R.HIF_CQ_HEAD_INDEX = v.toNat % 4096
      ∧ (s.hif.held = [] → RegsKept [R.HIF_CQ_HEAD_INDEX.key] s t ∧ t.hif = s.hif ∧ t.out = s.out)
      ∧ ∃ u : State, t = u.drainHeld 192 ∧ u.rd R.HIF_CQ_HEAD_INDEX = v.toNat % 4096 ∧ u.hif = s.hif)
  ∧ (∀ s : State, s.hif.cqNew ≠ 0 → s.on (R.HIF_MSIX_MASK 0) = false → s.on R.HIF_STAT_D3HOT = false →
    s.on R.HIF_STAT_LINK_UP = true →
    Completes .cqCoalesceTimer s fun t => t.out = s.out ++ [.msix 0] ∧ t.hif.cqNew = 0 ∧ t.regs = s.regs)
  ∧ ∀ s : State, s.hif.cqNew = 0 → Completes .cqCoalesceTimer s fun t => t = s)

/-- R373 to R375, R382: link training, a link-down or function level reset, and the power states of the endpoint. -/
def Obligations.PcieLinkAndPower : Prop :=
  let shut (s t : State) : Prop := t.on R.HIF_SQ_CFG_EN = false ∧ t.on R.HIF_CQ_CFG_EN = false ∧ t.hif.held = []
    ∧ t.on R.HIF_STAT_D3HOT = false ∧ (∀ v, v < 64 → t.on (R.HIF_MSIX_MASK v) = true)
    ∧ (∀ st : Fin 7, (s.streams[st]).dest = 1 → (t.streams[st]).dest = 0) ∧ t.hif.cutoff = s.cmd.arrivals
    ∧ t.cmd.jobs = s.cmd.jobs ∧ t.sys = s.sys
  (∀ (sp : BitVec 3) (w : BitVec 2) (s : State), s.sys.phase ≠ .held → s.sys.phase ≠ .tripped →
    s.sys.phase ≠ .standby → s.on R.HIF_STAT_LINK_UP = false →
    Completes (.pcieLinkUp sp w) s fun t => t.on R.HIF_STAT_LINK_UP = true ∧ t.rd R.HIF_STAT_SPEED = sp.toNat
      ∧ t.rd R.HIF_STAT_WIDTH = w.toNat
      ∧ RegsKept [R.HIF_STAT_LINK_UP.key, R.HIF_STAT_SPEED.key, R.HIF_STAT_WIDTH.key] s t ∧ t.hif = s.hif)
  ∧ (∀ s : State, s.domOn dCORE = true → s.on R.HIF_STAT_LINK_UP = true → (∀ st : Fin 7, (s.streams[st]).queue = []
      ∧ (s.streams[st]).waitq = []) →
    Completes .pcieLinkDown s fun t => shut s t ∧ t.on R.HIF_STAT_LINK_UP = false ∧ t.on R.HIF_EVENT_PCIE_LINK = true
      ∧ t.rd R.HIF_CQ_LOST_COUNT = min (s.rd R.HIF_CQ_LOST_COUNT + s.hif.held.length) (2 ^ 32 - 1))
  ∧ (∀ s : State, s.domOn dCORE = true → s.on R.HIF_STAT_LINK_UP = true → (∀ st : Fin 7, (s.streams[st]).queue = []
      ∧ (s.streams[st]).waitq = []) →
    Completes .flr s fun t => shut s t ∧ t.on R.HIF_STAT_LINK_UP = true ∧ t.on R.HIF_EVENT_FLR = true
      ∧ t.rd R.HIF_CQ_LOST_COUNT = min (s.rd R.HIF_CQ_LOST_COUNT + s.hif.held.length) (2 ^ 32 - 1))
  ∧ (∀ s : State, s.on R.HIF_STAT_LINK_UP = true →
    Completes .d3hotEntry s fun t => t.on R.HIF_STAT_D3HOT = true ∧ RegsKept [R.HIF_STAT_D3HOT.key] s t
      ∧ t.hif = s.hif ∧ t.streams = s.streams ∧ t.out = s.out)
  ∧ (∀ (v : Nat) (s : State), s.on R.HIF_STAT_D3HOT = true → v < 64 →
    let t := s.signal v
    t.bit (R.HIF_PBA_PENDING (v / 32)) (v % 32) = true ∧ t.out = s.out)
  ∧ ∀ s : State, s.on R.HIF_STAT_D3HOT = true → s.on R.HIF_STAT_LINK_UP = true →
    Completes .d0Return s fun t => ∃ u : State, t = u.drainHeld 192 ∧ u.on R.HIF_STAT_D3HOT = false
      ∧ u.rd R.HIF_SQ_HEAD_INDEX = s.rd R.HIF_SQ_HEAD_INDEX ∧ u.rd R.HIF_CQ_TAIL_INDEX = s.rd R.HIF_CQ_TAIL_INDEX
      ∧ u.hif = s.hif
      ∧ ∀ v, v < 64 → s.bit (R.HIF_PBA_PENDING (v / 32)) (v % 32) = true → s.on (R.HIF_MSIX_MASK v) = false →
        .msix v ∈ u.out ∧ u.bit (R.HIF_PBA_PENDING (v / 32)) (v % 32) = false

/-- R385, R386: a command datagram is handed over, discarded and counted, or answered again from the kept replies.
R84, R85, R384, R388, R389: frames that arrive, changes of a link, and the timestamps of PTP event messages. -/
def Obligations.EthernetAndPtp : Prop :=
  (
  ∀ (m : Fin 2) (a : BitVec 128) (port : BitVec 16) (l : List Byte) (frag : Bool) (b : BusEnd) (s : State),
    s.on (R.HIF_ETH_CFG_EN m) = true → s.ethUp m = true →
    let q : Requester := .eth m a.toNat port.toNat
    let bytes := l.map BitVec.toNat
    let p := packetOf q bytes 0 0 b
    let bad := frag || packetLength bytes || !packetCrc bytes
    (s.hif.net[m] ≠ [] → bad = false → s.sys.phase = .up → s.keptReply p = none → p.words.length ≤ 1020 →
      Completes (.cmdDatagram m a port l frag b) s fun t => ∃ u : State, t = u.accept p ∧ u.cmd = s.cmd ∧ u.hif = s.hif
        ∧ u.out = s.out ∧ u.rd (R.HIF_ETH_RXOK_COUNT m) = min (s.rd (R.HIF_ETH_RXOK_COUNT m) + 1) (2 ^ 32 - 1)
        ∧ RegsKept [(R.HIF_ETH_RXOK_COUNT m).key] s u)
    ∧ (∀ r : Reply, s.hif.net[m] ≠ [] → bad = false → s.sys.phase = .up → s.keptReply p = some r →
      Completes (.cmdDatagram m a port l frag b) s fun t => t.cmd = s.cmd
        ∧ t.out = s.out ++ [.datagram m a.toNat port.toNat (Arith.bytesOfWords (replyHeader r ++ r.result))])
    ∧ (s.hif.net[m] ≠ [] → bad = true →
      Completes (.cmdDatagram m a port l frag b) s fun t => t.on R.HIF_EVENT_ETH_CMD_ERR = true ∧ t.cmd = s.cmd
        ∧ t.rd (R.HIF_ETH_CMDBAD_COUNT m) = min (s.rd (R.HIF_ETH_CMDBAD_COUNT m) + 1) (2 ^ 32 - 1)
        ∧ t.rd (R.HIF_ETH_RXOK_COUNT m) = min (s.rd (R.HIF_ETH_RXOK_COUNT m) + 1) (2 ^ 32 - 1))
    ∧ (s.hif.net[m] = [] →
      Completes (.cmdDatagram m a port l frag b) s fun t => t.cmd = s.cmd ∧ t.out = s.out
        ∧ t.rd (R.HIF_ETH_DISCARD_COUNT m) = min (s.rd (R.HIF_ETH_DISCARD_COUNT m) + 1) (2 ^ 32 - 1)))
  ∧ (
  (∀ (m : Fin 2) (s : State), s.on (R.HIF_ETH_CFG_EN m) = true → s.ethUp m = true →
    let counted (f : Field) (t : State) : Prop := t.rd f = min (s.rd f + 1) (2 ^ 32 - 1)
    Completes (.ethFrameRx m .bad) s (fun t => counted (R.HIF_ETH_RXBAD_COUNT m) t ∧ t.hif = s.hif ∧ t.out = s.out)
    ∧ Completes (.ethFrameRx m .other) s (fun t => counted (R.HIF_ETH_RXOK_COUNT m) t
        ∧ counted (R.HIF_ETH_DISCARD_COUNT m) t ∧ t.hif = s.hif ∧ t.out = s.out)
    ∧ (∀ (kind : String) (l : List Byte), Completes (.ethFrameRx m (.ask kind l)) s fun t =>
        counted (R.HIF_ETH_RXOK_COUNT m) t ∧ counted (R.HIF_ETH_TXOK_COUNT m) t
          ∧ t.out = s.out ++ [.frame m kind (l.map BitVec.toNat)] ∧ t.hif = s.hif)
    ∧ (∀ q : BitVec 16, Completes (.ethFrameRx m (.pause q)) s fun t => counted (R.HIF_ETH_RXOK_COUNT m) t
        ∧ t.hif.pause[m] = if s.on (R.HIF_ETH_CFG_PAUSE_EN m)
            then s.sys.uptime + Arith.ceilDiv (q.toNat * (if s.on (R.HIF_ETH_CFG_SPEED m) then 256 else 640)) 10
            else s.hif.pause[m])
    ∧ ∀ (e : Option (Fin 4)) (st : Fin 4) (o d : Word) (gm : DWord) (c : Option (BitVec 80)) (master : Bool),
      Completes (.ethFrameRx m (.ptp e st o d gm c master)) s fun t =>
        if s.ptpOn m then ∃ u : State, t = (c.map BitVec.toInt).elim u u.ptpCorrect ∧ counted (R.HIF_ETH_RXOK_COUNT m) u
            ∧ u.hif.ptpState = st.val ∧ u.hif.ptpOffset = o.toInt ∧ u.hif.ptpDelay = d.toNat ∧ u.hif.ptpGm = gm.toNat
            ∧ (∀ k, e = some k → u.hif.ptpRx[k] = s.ptpIngress m)
            ∧ u.hif.ptpMaster = (master && (s.hif.ptpMaster || s.rd R.TBU_STAT_EPOCH_SRC == 2))
          else counted (R.HIF_ETH_RXOK_COUNT m) t ∧ counted (R.HIF_ETH_DISCARD_COUNT m) t ∧ t.hif = s.hif)
  ∧ (∀ (x : Int) (s : State), s.on R.TBU_STAT_ACT_ARMED = true →
    (s.rd R.TBU_STAT_EPOCH_SRC ≠ 2 ∨ s.rd R.SYN_CTRL_SLEW_LIMIT * 3200000 < x.natAbs) → s.ptpCorrect x = s)
  ∧ (∀ (up : Bool) (s : State), s.domOn dCORE = true → s.ethUp 0 = !up →
    (up = true → s.on (R.HIF_ETH_CFG_EN 0) = true) →
    Completes (.ethLinkChange 0 up) s fun t => t.ethUp 0 = up ∧ t.on R.HIF_EVENT_ETH0_LINK = true ∧ t.ethUp 1 = s.ethUp 1
      ∧ t.hif = s.hif ∧ t.streams = s.streams)
  ∧ (∀ (up : Bool) (s : State), s.domOn dCORE = true → s.ethUp 1 = !up →
    (up = true → s.on (R.HIF_ETH_CFG_EN 1) = true) →
    Completes (.ethLinkChange 1 up) s fun t => t.ethUp 1 = up ∧ t.on R.HIF_EVENT_ETH1_LINK = true ∧ t.ethUp 0 = s.ethUp 0
      ∧ t.hif = s.hif ∧ t.streams = s.streams)
  ∧ (∀ (m : Fin 2) (a u : Nat) (l : List Nat) (s : State), s.ethUp m = false → s.udpSend m a u l = s)
  ∧ ∀ (m : Fin 2) (k : Fin 4) (one : Bool) (s : State), s.on (R.HIF_ETH_CFG_EN m) = true → s.ethUp m = true →
    s.ptpOn m = true →
    let x := s.ptpEgress m
    let stamp (x : Nat) := Arith.leBytes 6 (ptpTime x).1 ++ Arith.leBytes 4 (ptpTime x).2.1 ++ Arith.leBytes 8 (ptpTime x).2.2
    let epoch := s.rd R.TBU_STAT_EPOCH_SRC = 2
    ((k = 0 → s.hif.ptpMaster = true ∨ epoch) →
      Completes (.ptpEventEgress m k one) s fun t => t.hif.ptpTx = s.hif.ptpTx.set k x
        ∧ t.rd (R.HIF_ETH_RXOK_COUNT m) = s.rd (R.HIF_ETH_RXOK_COUNT m)
        ∧ (k = 0 → t.hif.ptpMaster = true ∧ t.out = s.out ++ (if one = true ∧ epoch then [.frame m "Sync" (stamp x)]
            else [.frame m "Sync" [], .frame m "Follow_Up" (stamp x)]))
        ∧ (k = 1 → t.out = s.out ++ [.frame m "Delay_Req" []]) ∧ (k = 2 → t.out = s.out ++ [.frame m "Pdelay_Req" []])
        ∧ (k = 3 → t.out = s.out ++ (if one = true ∧ epoch then [.frame m "Pdelay_Resp"
              (Arith.leBytes 8 (Arith.roundDiv (((x + 2 ^ 64 - s.hif.ptpRx[2]) % 2 ^ 64 * 262144 : Nat) : Int) 5).toNat)]
            else [.frame m "Pdelay_Resp" (stamp s.hif.ptpRx[2]), .frame m "Pdelay_Resp_Follow_Up" (stamp x)])))
    ∧ (k = 0 → s.hif.ptpMaster = false → ¬ epoch → Completes (.ptpEventEgress m k one) s fun t => t = s))

/-- R390: the operations of the SPI slave, and a packet that fails, one that finds 8 replies waiting, and an early
end. R391, R463: the commands of the console. R393: the instructions of the test port, IDCODE, and TRST_N. -/
def Obligations.SerialAndTestPorts : Prop :=
  (
  (∀ (off : BitVec 24) (v : Word) (s : State), s.reaches .spi = true →
    Completes (.spiWriteWord off v) s fun t => t = s.bar0Write off.toNat true v.toNat)
  ∧ (∀ (off : BitVec 24) (s : State), s.reaches .spi = true →
    Completes (.spiReadWord off) s fun t => ∃ (v : Nat) (u : State), s.bar0Read off.toNat true = (v, u)
      ∧ t = u.emit (.spi (Arith.leBytes 4 v)))
  ∧ (∀ (l : List Byte) (b : BusEnd) (s : State), s.reaches .spi = true → packetCrc (l.map BitVec.toNat) = true →
    packetLength (l.map BitVec.toNat) = false → s.hif.spi.length < 8 →
    Completes (.spiWritePacket l b) s fun t => t = s.accept (packetOf .spi (l.map BitVec.toNat) 0 0 b))
  ∧ (∀ (l : List Byte) (b : BusEnd) (s : State), s.reaches .spi = true → packetCrc (l.map BitVec.toNat) = false →
    Completes (.spiWritePacket l b) s fun t => t.hif.spiErr = true ∧ t.hif.spi = s.hif.spi ∧ t.cmd = s.cmd)
  ∧ (∀ (l : List Byte) (b : BusEnd) (s : State), s.reaches .spi = true → s.domOn dCORE = true →
    8 ≤ s.hif.spi.length →
    Completes (.spiWritePacket l b) s fun t => t.hif.spiOvf = true ∧ t.on R.HIF_EVENT_SPI_OVF = true
      ∧ t.hif.spi = s.hif.spi ∧ t.cmd = s.cmd)
  ∧ (∀ (r : Reply) (l : List Reply) (s : State), s.reaches .spi = true → s.hif.spi = r :: l →
    Completes .spiReadReply s fun t => t.hif.spi = l ∧ t.out = s.out ++ [.spi (Arith.bytesOfWords (replyHeader r ++ r.result))]
      ∧ t.regs = s.regs)
  ∧ (∀ s : State, s.reaches .spi = true →
    Completes .spiReadStatus s fun t => t.hif.spiErr = false ∧ t.hif.spiOvf = false ∧ t.hif.spi = s.hif.spi
      ∧ t.regs = s.regs ∧ t.out = s.out ++ [.spi (Arith.leBytes 4
        ((match s.hif.spi with | [] => 0 | r :: _ => 6 + r.result.length) * 65536 + Arith.ofBool s.hif.spiErr * 4
          + Arith.ofBool s.hif.spiOvf * 2 + Arith.ofBool (!s.hif.spi.isEmpty)))])
  ∧ ∀ s : State, s.reaches .spi = true →
    Completes .spiAbort s fun t => t.hif = { s.hif with spiErr := true } ∧ t.regs = s.regs ∧ t.out = s.out)
  ∧ (
  ∀ s : State, s.reaches .console = true →
    Completes .consoleHelp s (fun t => t.out = s.out ++ [.text "help" [], .text "ok" []] ∧ t.regs = s.regs)
    ∧ Completes .consoleStatus s (fun t => t.regs = s.regs ∧ t.out = s.out ++ [.text "status" [s.sys.mode,
        s.rd R.SYS_BOOT_LAST_REASON, s.rd R.SYS_BOOT_FOOT_REASON, s.rd R.SYS_BOOT_FAILS, s.rd R.SYS_BOOT_SLOT,
        s.rd R.SYS_ID_DEVICE * 65536 + s.rd R.SYS_ID_REV_MAJOR * 256 + s.rd R.SYS_ID_REV_MINOR, s.rd R.MGT_TJ_TJ],
        .text "ok" []])
    ∧ (∀ n : BitVec 16, Completes (.consoleLog n) s fun t => t.regs = s.regs ∧ ∃ l : List (List Nat),
        l <:+ s.logHeld ∧ l.length = min n.toNat s.logHeld.length ∧ t.out = s.out ++ [.text "log" l.flatten, .text "ok" []])
    ∧ (∀ (l : List Byte) (b : BusEnd), packetCrc (l.map BitVec.toNat) = true →
        packetLength (l.map BitVec.toNat) = false →
        Completes (.consolePkt l b) s fun t => t = s.accept (packetOf .console (l.map BitVec.toNat) 0 0 b))
    ∧ (∀ (l : List Byte) (b : BusEnd), packetCrc (l.map BitVec.toNat) = false →
        Completes (.consolePkt l b) s fun t => t.out = s.out ++ [.text "err" [E_PARAM]] ∧ t.cmd = s.cmd)
    ∧ (∀ k : Fin 2, s.mayActivate k = true → Completes (.consoleBoot k) s fun t => ∃ u : State, t = u.activate k
        ∧ u.out = s.out ++ [.text "ok" []] ∧ u.regs = s.regs ∧ u.sys = s.sys)
    ∧ (∀ k : Fin 2, s.mayActivate k = false → Completes (.consoleBoot k) s fun t =>
        t.out = s.out ++ [.text "err" [E_AUTH]] ∧ t.regs = s.regs ∧ t.sys = s.sys)
    ∧ Completes .consoleReset s (fun t => ∃ u : State, t = u.resetCmd false ∧ u.out = s.out ++ [.text "ok" []]
        ∧ u.sys = s.sys)
    ∧ Completes .consoleFoot s (fun t => ∃ u : State, t = u.resetCmd true ∧ u.out = s.out ++ [.text "ok" []]
        ∧ u.sys = s.sys)
    ∧ ∀ r : BitVec 20, r.toNat ∈ [9600, 57600, 230400, 460800, 921600] →
      Completes (.consoleBaud r) s fun t => t.hif.baud = r.toNat ∧ t.out = s.out ++ [.text "ok" []] ∧ t.regs = s.regs)
  ∧ (
  ∀ (balls tdi : List Bool) (s : State),
    let kept (t : State) : Prop := t.regs = s.regs ∧ t.sys = s.sys ∧ t.cmd = s.cmd ∧ BytesKept s t
    let bypass (i : Nat) (t : State) : Prop := t.hif.jtag = i ∧ t.hif.boundary = s.hif.boundary
      ∧ t.out = s.out ++ [.tdo ((false :: tdi).take tdi.length)] ∧ kept t
    let scan (i : Nat) (t : State) : Prop := t.hif.jtag = i ∧ t.hif.boundary = (balls ++ tdi).drop tdi.length
      ∧ t.out = s.out ++ [.tdo ((balls ++ tdi).take tdi.length)] ∧ kept t
    Completes (.jtagBypass tdi) s (bypass 0) ∧ Completes (.jtagClamp tdi) s (bypass 4)
    ∧ Completes (.jtagHighz tdi) s (bypass 5) ∧ Completes (.jtagSamplePreload balls tdi) s (scan 2)
    ∧ Completes (.jtagExtest balls tdi) s (scan 3)
    ∧ Completes (.jtagIdcode tdi) s (fun t => t.hif.jtag = 1 ∧ t.hif.boundary = s.hif.boundary ∧ kept t
        ∧ ∃ l, t.out = s.out ++ [.tdo l] ∧ l.length = tdi.length
          ∧ ∀ i, i < 32 → i < tdi.length → l[i]? = some ((0x1008456B : Nat).testBit i))
    ∧ Completes .trstNAssert s fun t => t.hif.jtag = 1 ∧ t.out = s.out ∧ kept t)

/-- R21, R434, R446, R452 to R454, R458, R466, R467: what each reset leaves: the always-on domain alone is on, the
flash and the fuses stay, the retention is as the reason says, and the balls are driven to their reset values. -/
def Obligations.DeviceResets : Prop :=
  let cold (s t : State) : Prop := t.sys.phase = .held ∧ t.sys.domains = 1 ∧ t.sys.mode = 0 ∧ t.regs = [] ∧ t.sram = []
    ∧ t.dram = [] ∧ t.flash = s.flash ∧ t.cmd = State.reset.cmd ∧ t.streams = State.reset.streams ∧ t.hodHeld = []
    ∧ t.sys.revoked = s.sys.revoked ∧ t.sys.svn = s.sys.svn ∧ t.sys.prefRecord = s.sys.prefRecord
    ∧ t.out = s.out ++ resetBalls
    ∧ (∀ n, n < 4 → .ball "GATE" n 0 ∈ t.out ∧ .ball "TRIG_RM" n 0 ∈ t.out ∧ .ball "BIAS" n 0 ∈ t.out)
    ∧ .ball "ILK_OUT_N" 0 1 ∈ t.out
  let cleared (s t : State) : Prop := cold s t ∧ t.sys.ret.fails = 0 ∧ t.sys.ret.reason = rPowerOn
    ∧ t.sys.ret.footReq = false ∧ t.sys.ret.trip = false ∧ t.sys.boots = 0
    ∧ t.sys.ret.preferred = s.sys.prefRecord.getD 0
  (∀ s : State, Completes .porNAssert s (cleared s) ∧ Completes .vdda18Brownout s (cleared s)
    ∧ Completes .rstNAssert s (fun t => cold s t
        ∧ t.sys.ret = { s.sys.ret with reason := if s.sys.ret.trip then rThermal else rRstPin }))
  ∧ (∀ (v : Word) (s : State), s.domOn dMGT = true → v.toNat / 65536 = 0xA55A → v.toNat.testBit 0 = true →
    Completes (.sysRstCtrlWrite v) s fun t => cold s t
      ∧ t.sys.ret = if v.toNat.testBit 1 then { s.sys.ret with footReq := true, reason := rFootCmd }
          else { s.sys.ret with fails := 0, reason := rResetCmd })
  ∧ (∀ (v : Word) (s : State), (v.toNat / 65536 ≠ 0xA55A ∨ v.toNat.testBit 0 = false) →
    Completes (.sysRstCtrlWrite v) s fun t => t = s)
  ∧ (∀ s : State, s.sys.phase ≠ .held → s.sys.phase ≠ .tripped →
    Completes .thermalTrip s fun t => t.sys.phase = .tripped ∧ t.sys.domains = 1 ∧ t.sys.ret = { s.sys.ret with trip := true }
      ∧ t.regs = [] ∧ t.flash = s.flash ∧ t.out = s.out ++ resetBalls)
  ∧ (∀ s : State, s.mgt.change = none → (s.sys.phase = .lock ∨ s.sys.phase = .dram) →
    Completes .bootWatchdog s fun t => cold s t
      ∧ t.sys.ret = { s.sys.ret with fails := min 3 (s.sys.ret.fails + 1), reason := rWdtBoot })
  ∧ (∀ s : State, (s.sys.phase = .up ∨ s.sys.phase = .footFw) →
    Completes .runWatchdog s fun t => cold s t
      ∧ t.sys.ret = if s.sys.uptime - s.sys.doneAt < 600 * 1250000000
          then { s.sys.ret with fails := min 3 (s.sys.ret.fails + 1), reason := rWdtRun }
          else { s.sys.ret with reason := rWdtRun })
  ∧ (∀ s : State, s.sys.phase = .up → s.sys.settled = false →
    Completes .failsClear s fun t => t.sys.ret.fails = 0 ∧ t.sys.settled = true ∧ t.sys.ret.preferred = s.sys.ret.tried
      ∧ t.sys.svn = max s.sys.svn (s.slotWord s.sys.ret.tried 12 % 64) ∧ t.sys.phase = .up ∧ t.flash = s.flash)
  ∧ (∀ s : State, s.sys.phase = .standby → s.sys.wakeAfter ≠ 0 →
    Completes .standbyWakeTimer s fun t => cold s t ∧ t.sys.ret = { s.sys.ret with reason := rStandbyWake })
  ∧ ∀ s : State, s.sys.phase = .standby →
    Completes .standbyWakeCs s fun t => cold s t ∧ t.sys.ret = { s.sys.ret with reason := rStandbyWake }

/-- R53, R429, R455 to R459, R520: the release of a reset, the wait for the die to cool, the clocks of step 4 and
their timeout, and boot complete. -/
def Obligations.BootSteps : Prop :=
  let rom (s t : State) : Prop :=
    if s.sys.ret.fails = 3 then t.sys.phase = .footRom ∧ t.sys.ret.footReason = rBootLimit ∧ t.sys.mode = 2
    else if s.sys.ret.footReq then t.sys.phase = .footRom ∧ t.sys.ret.footReason = rFootCmd ∧ t.sys.mode = 2
    else ∃ u : State, t = u.timeOn ∧ u.sys.phase = .lock ∧ u.sys.ret = { s.sys.ret with footReq := false }
  (∀ (tj : Word) (rail bad : Bool) (s : State), s.sys.phase = .held → tj.toInt < 25600 →
    Completes (.resetRelease tj rail bad) s fun t => ∃ u : State, t = u.bootRom ∧ rom u t ∧ u.domOn dMGT = true
      ∧ u.sys.boots = (s.sys.boots + 1) % 65536 ∧ u.sys.ret.fails = s.sys.ret.fails ∧ u.sys.ret.trip = false
      ∧ u.sys.ret.reason = (if s.sys.ret.trip then rThermal else s.sys.ret.reason)
      ∧ u.rd R.SYS_BOOT_LAST_REASON = u.sys.ret.reason % 16 ∧ u.rd R.SYS_BOOT_BOOTS = u.sys.boots
      ∧ u.rdS R.MGT_TJ_TJ = tj.toInt)
  ∧ (∀ (tj : Word) (rail bad : Bool) (s : State), s.sys.phase = .held → 25600 ≤ tj.toInt →
    Completes (.resetRelease tj rail bad) s fun t => t.sys.phase = .hot ∧ t.domOn dMGT = true
      ∧ t.sys.boots = (s.sys.boots + 1) % 65536 ∧ t.domOn dTIME = s.domOn dTIME ∧ t.rdS R.MGT_TJ_TJ = tj.toInt)
  ∧ (∀ s : State, s.sys.phase = .hot → Completes .bootThermalWaitEnd s (rom s))
  ∧ (∀ s : State, let t := s.timeOn
    t.domOn dTIME = true ∧ t.bit R.SYN_CTRL_EN 0 = true ∧ t.bit R.SYN_CTRL_EN 1 = true
      ∧ t.on R.SYN_CTRL_WAIT_RDY = false ∧ t.sys.phase = s.sys.phase)
  ∧ (∀ s : State, s.sys.phase = .lock → s.mgt.change = none → s.bit R.SYN_STAT_LOCK 1 = false →
    Completes .bootLockTimeout s fun t => t.sys.phase = .held ∧ t.sys.domains = 1
      ∧ t.sys.ret = { s.sys.ret with fails := min 3 (s.sys.ret.fails + 1), reason := rRefFail })
  ∧ (∀ s : State, s.bit R.SYN_STAT_LOCK 1 = true → Completes .bootLockTimeout s fun t => t = s)
  ∧ ∀ s : State, s.sys.phase = .dram → s.mgt.change = none → s.memState ≠ memTraining →
    Completes .bootComplete s fun t => ∃ u : State, t = u.calNext ∧ u.sys.phase = .up ∧ u.sys.mode = 4
      ∧ u.rd R.PWR_STAT_MODE = 4 ∧ u.sys.ret = s.sys.ret ∧ u.sys.doneAt = s.sys.uptime
      ∧ u.rd R.SYS_BOOT_TIME_US = (s.sys.uptime - s.sys.doneAt) / 1250 % 2 ^ 32 ∧ u.on R.MGT_EVENT_LOG_NEW = true

/-- R427, R430, R431, R459: a mode change reaches FOOTING, STANDBY, or WATCH or RUN from below, and one that fails
leaves the part in FOOTING. -/
def Obligations.ModeChanges : Prop :=
  ∀ (c : Change) (j : Job) (failed : Bool) (s : State), s.mgt.change = some c → s.job? c.job = some j → live j = true →
    j.notify = false →
    (c.target = 2 →
      Completes (.modeChangeDone failed) s fun t => t.sys.mode = 2 ∧ t.sys.phase = .footFw ∧ t.rd R.PWR_STAT_MODE = 2
        ∧ (∀ d, 3 ≤ d → d < 17 → t.domOn d = false) ∧ t.domOn dTIME = (c.time && s.domOn dTIME) ∧ t.mgt.change = none
        ∧ t.on R.PWR_STAT_BUSY = false ∧ t.on R.PWR_EVENT_MODE_DONE = true ∧ t.sys.ret.footReason = rMode
        ∧ t.hodHeld = [] ∧ t.hodQueue = []
        ∧ (∃ k, t.job? c.job = some k ∧ k.state = .done ∧ k.status = OK) ∧ t.sram = [] ∧ t.flash = s.flash)
    ∧ (c.target = 1 →
      Completes (.modeChangeDone failed) s fun t => t.sys.phase = .standby ∧ t.sys.mode = 1 ∧ t.sys.domains = 1
        ∧ t.sys.ret = s.sys.ret ∧ t.sys.wakeAfter = s.sys.wakeAfter ∧ t.sys.uptime = s.sys.uptime ∧ t.regs = []
        ∧ t.flash = s.flash)
    ∧ (3 ≤ c.target → c.target ≤ 4 → s.sys.phase = .dram → s.memState ≠ memTraining →
      Completes (.modeChangeDone false) s fun t => ∃ u : State, t = u.calNext ∧ u.sys.phase = .up
        ∧ u.sys.mode = c.target ∧ u.rd R.PWR_STAT_MODE = c.target ∧ u.mgt.change = none ∧ u.on R.PWR_STAT_BUSY = false
        ∧ u.on R.PWR_EVENT_MODE_DONE = true ∧ (∃ k, u.job? c.job = some k ∧ k.state = .done ∧ k.status = OK))
    ∧ (3 ≤ c.target → s.sys.phase = .dram →
      Completes (.modeChangeDone true) s fun t => t.sys.phase = .footFw ∧ t.sys.mode = s.sys.mode ∧ t.mgt.change = none
        ∧ t.on R.PWR_STAT_BUSY = false ∧ (∀ d, 3 ≤ d → d < 17 → t.domOn d = false)
        ∧ t.domOn dTIME = (c.time && s.domOn dTIME)
        ∧ ∃ k, t.job? c.job = some k ∧ k.state = .failed ∧ k.status = E_INTERNAL)
    ∧ (3 ≤ c.target → s.sys.phase = .dram → s.memState = memTraining →
      Completes (.modeChangeDone false) s fun t => t = s)

/-- R340 to R344, R519: the steps of the training ladder, each passing or failing; the entry to READY with its
effects; the entry to DEGRADED; parts that fail identification; and a training that a register write starts. R334,
R340, R345, R346, R349 to R351: self-refresh, postponed and forced refreshes, panic, MR4, row disturbance and the
scrubber. -/
def Obligations.Dram : Prop :=
  (
  let trains (s : State) : Prop := s.memState = memTraining ∨ s.memState = memRetraining
  let ready (s t : State) : Prop := ∃ u : State, t = u.outageEnd.memJobEnd .done OK ∧ u.memState = memReady
    ∧ u.rd R.MEM_STAT_OP = s.memc.op % 4 ∧ u.memc.step = 0 ∧ u.rd R.MEM_DRAM_STAT_CAP_MB = s.capMb % 2 ^ 15
    ∧ u.rd R.MEM_TRAIN_STAMP_STAMP = s.now % 2 ^ 64 ∧ u.rd R.MEM_TRAIN_TEMP_TEMP = s.rd R.MGT_TJ_TJ % 2 ^ 32
    ∧ u.on R.SYS_GSTAT_DRAM_DEGRADED = false ∧ u.on R.MEM_EVENT_TRAINED = true
    ∧ (s.memState = memRetraining → s.memc.op ≠ s.memc.fromOp → u.on R.MEM_EVENT_STEP_DOWN = true)
  let at3 (op : Nat) (t : State) : Prop := t.memc.step = 3 ∧ t.memc.op = op ∧ t.rd (R.SYN_PLL_CFG_OP 2) = op % 4
    ∧ t.on (R.SYN_PLL_STAT_SEARCH_BUSY 2) = true ∧ t.bit R.SYN_CTRL_EN 2 = false
  let degraded (t : State) : Prop := t.memState = memDegraded ∧ t.rd R.MEM_DRAM_STAT_CAP_MB = 0
    ∧ t.on R.MEM_STAT_HODS = false ∧ t.on R.SYS_GSTAT_DRAM_DEGRADED = true ∧ t.on R.MEM_EVENT_DEGRADED = true
    ∧ t.bit R.SYN_CTRL_EN 2 = false ∧ t.memc.step = 0 ∧ t.memc.outage = false
  let down (op : Nat) (t : State) : Prop := if op < 2 then at3 (op + 1) t else degraded t
  (∀ (r : Fin 3) (s : State), trains s → s.memc.step = 1 →
    (r ≠ 2 ∨ s.memc.job = 0 ∨ s.memState = memRetraining) →
    Completes (.dramTrainingStep r) s fun t => t.rd R.MEM_STAT_DEBT0 = 0 ∧ t.rd R.MEM_STAT_DEBT1 = 0
      ∧ if s.memState = memTraining ∨ s.memc.op ≠ s.memc.fromOp then at3 s.memc.op t
        else t.memc = { s.memc with step := 2 })
  ∧ (∀ s : State, trains s → s.memc.step = 2 → Completes (.dramTrainingStep 1) s (ready s))
  ∧ (∀ s : State, trains s → s.memc.step = 2 →
    Completes (.dramTrainingStep 0) s (if s.memc.byTarget then at3 s.memc.op else down s.memc.op))
  ∧ (∀ s : State, trains s → s.memc.step = 3 → s.bit R.SYN_STAT_LOCK 2 = true →
    Completes (.dramTrainingStep 1) s fun t => t.memc = { s.memc with step := 4 } ∧ t.regs = s.regs)
  ∧ (∀ s : State, trains s → s.memc.step = 3 → Completes (.dramTrainingStep 0) s (down s.memc.op))
  ∧ (∀ s : State, trains s → s.memc.step = 4 → s.rd R.MEM_DRAM_CFG_DENSITY ≠ 3 →
    Completes (.dramTrainingStep 1) s (ready s))
  ∧ (∀ s : State, trains s → s.memc.step = 4 → Completes (.dramTrainingStep 0) s (down s.memc.op))
  ∧ (∀ (j : Job) (s : State), s.memState = memTraining → s.job? s.memc.job = some j → live j = true →
    j.notify = false →
    Completes (.dramTrainingStep 2) s fun t => t.memState = s.memc.fromState % 8 ∧ t.on R.MEM_STAT_HODS = false
      ∧ t.holdsHods .dram = false ∧ t.memc.job = 0 ∧ t.bit R.SYN_CTRL_EN 2 = false
      ∧ ∃ k, t.job? s.memc.job = some k ∧ k.state = .failed ∧ k.status = E_MEM_CONFIG)
  ∧ (∀ s : State, s.domOn dMEM = true → s.memUp = true → s.memWaits = false →
    Completes .memCtrlRetrain s fun t => t.memState = memRetraining ∧ t.memc.outage = true ∧ t.memc.step = 1
      ∧ (s.memc.outage = false → t.on R.MEM_EVENT_OUTAGE = true)
      ∧ t.memc.op = s.rd R.MEM_CTRL_TARGET ∧ t.memc.fromOp = s.rd R.MEM_STAT_OP ∧ t.memc.byTarget = true)
  ∧ (∀ s : State, s.domOn dMEM = true → (s.memState = memOff ∨ s.memState = memDegraded) → s.memWaits = false →
    s.rd R.MEM_DRAM_CFG_DENSITY ≠ 3 → s.holdsHods .dram = false → s.hodQueue = [] →
    s.hodFits { user := .dram, hods := 6, cls := 0, tmo := 0, job := 0 } = true →
    Completes .memCtrlRetrain s fun t => t.memState = memTraining ∧ t.on R.MEM_STAT_HODS = true
      ∧ t.hodHeld = s.hodHeld ++ [(.dram, 6)] ∧ t.memc.step = 1 ∧ t.memc.op = s.rd R.MEM_CTRL_TARGET)
  ∧ (∀ s : State, s.memUp = true → let t := s.memLockLoss
    t.memState = memRetraining ∧ t.memc.outage = true ∧ t.memc.relock = true ∧ t.memc.step = 0
      ∧ t.rd R.MEM_STAT_DEBT0 = 0 ∧ t.rd R.MEM_STAT_DEBT1 = 0 ∧ t.on R.MEM_EVENT_OUTAGE = true
      ∧ t.memRelock.memc.step = 1 ∧ t.memRelock.memc.relock = false ∧ t.memRelock.memState = memRetraining)
  ∧ (∀ s : State, s.memDefers = true →
    s.sys.uptime < s.memc.deferAt + 1250000000 * s.rd R.MEM_TRAIN_DEFER_MAX →
    Completes .retrainDeferEnd s fun t => t = s)
  ∧ ∀ s : State, s.memc.deferred = true → s.memUp = true → s.memc.outage = false →
    (s.memDefers = false ∨ s.memc.deferAt + 1250000000 * s.rd R.MEM_TRAIN_DEFER_MAX ≤ s.sys.uptime) →
    Completes .retrainDeferEnd s fun t => t.memState = memRetraining ∧ t.memc.outage = true ∧ t.memc.deferred = false
      ∧ t.memc.op = s.rd R.MEM_STAT_OP ∧ t.on R.MEM_EVENT_OUTAGE = true)
  ∧ (
  (∀ s : State, s.memState = memReady → s.on R.MEM_CTRL_SR_EN = true → s.memc.outage = false →
    (∀ k : Fin 4, s.on (R.ACQ_CH_CFG0_MEM k) = false ∨ s.rd (R.ACQ_CH_STAT_JOB k) ≠ 1) →
    Completes .selfRefreshEntry s fun t => t.memState = memSr ∧ t.rd R.MEM_STAT_DEBT0 = 0 ∧ t.rd R.MEM_STAT_DEBT1 = 0
      ∧ RegsKept [R.MEM_STAT_STATE.key, R.MEM_STAT_DEBT0.key, R.MEM_STAT_DEBT1.key] s t ∧ BytesKept s t)
  ∧ (∀ (k : Fin 4) (s : State), s.on (R.ACQ_CH_CFG0_MEM k) = true → s.rd (R.ACQ_CH_STAT_JOB k) = 1 →
    Completes .selfRefreshEntry s fun t => t = s)
  ∧ (∀ s : State, s.memState = memSr →
    Completes .selfRefreshExit s fun t => t.memState = memReady ∧ RegsKept [R.MEM_STAT_STATE.key] s t ∧ BytesKept s t)
  ∧ (∀ (c : Fin 2) (s : State), s.memState = memReady → s.memc.outage = false → s.rd R.MEM_STAT_PANIC ≠ 0 →
    Completes (.refreshDue c) s fun t =>
      if s.rd (debtOf c) < 8 then t.rd (debtOf c) = s.rd (debtOf c) + 1 ∧ t.rd (debtOf (1 - c)) = s.rd (debtOf (1 - c))
          ∧ t.rd R.MEM_REF_CNT_POSTPONED = min (s.rd R.MEM_REF_CNT_POSTPONED + 1) (2 ^ 16 - 1)
      else t.rd (debtOf c) = s.rd (debtOf c) ∧ t.on R.MEM_EVENT_FORCED = true
          ∧ t.rd R.MEM_REF_CNT_FORCED = min (s.rd R.MEM_REF_CNT_FORCED + 1) (2 ^ 16 - 1))
  ∧ (∀ (c : Fin 2) (s : State), s.rd R.MEM_STAT_PANIC = 0 → Completes (.refreshDue c) s fun t => t = s)
  ∧ (∀ (lv : Vector (BitVec 17) 4) (lb : BitVec 16) (left : Bool) (s : State),
    let fetches := s.frameOn && left && !s.sco.failed
    Completes (.panicChange lv lb left) s fun t =>
      t.rd R.MEM_STAT_PANIC = (t.rd R.ACQ_STAT_PANIC + 2 * t.rd R.SCO_STAT_PANIC) % 4
      ∧ (t.rd R.ACQ_STAT_PANIC = 0 → t.rd R.SCO_STAT_PANIC = 0 → t.rd R.MEM_STAT_DEBT0 = 0 ∧ t.rd R.MEM_STAT_DEBT1 = 0)
      ∧ (∀ k : Fin 4, t.acq.ch[k].buffer = min s.acq.ch[k].buffer lv[k].toNat)
      ∧ (t.on R.ACQ_STAT_PANIC = true ↔ ∃ k : Fin 4, s.on (R.ACQ_CH_CFG0_MEM k) = true
          ∧ s.rd R.ACQ_CTRL_PANIC_TH * 1024 ≤ t.acq.ch[k].buffer)
      ∧ (fetches = true → lb.toNat < s.rd R.SCO_LB_URGENT → t.on R.SCO_STAT_PANIC = true)
      ∧ (fetches = false → t.on R.SCO_STAT_PANIC = false)
      ∧ (s.rd R.SCO_LB_URGENT ≤ lb.toNat → t.on R.SCO_STAT_PANIC
          = (fetches && decide (lb.toNat < s.rd R.SCO_LB_CALM) && s.on R.SCO_STAT_PANIC))
      ∧ RegsKept [R.MEM_STAT_PANIC.key, R.MEM_STAT_DEBT0.key, R.MEM_STAT_DEBT1.key, R.ACQ_STAT_PANIC.key,
          R.SCO_STAT_PANIC.key] s t)
  ∧ (∀ (k : Fin 5) (s : State), s.memUp = true →
    Completes (.mr4Poll (some k)) s fun t => t.rd R.MEM_REF_MULT = k.val
      ∧ (k.val = 0 → t.rd R.MEM_REF_TREFI = 15624) ∧ (k.val = 1 → t.rd R.MEM_REF_TREFI = 7812)
      ∧ (k.val = 2 → t.rd R.MEM_REF_TREFI = 3906) ∧ (k.val = 3 → t.rd R.MEM_REF_TREFI = 1953)
      ∧ RegsKept [R.MEM_REF_MULT.key, R.MEM_REF_TREFI.key] s t)
  ∧ (∀ s : State, s.memUp = true →
    Completes (.mr4Poll none) s fun t => t.rd R.MEM_REF_MULT = 4 ∧ t.on R.MEM_EVENT_DRAM_HOT = true)
  ∧ (∀ (l : List (Fin 2 × Fin 2 × Fin 16 × Fin 16)) (c r : Fin 2) (b q : Fin 16) (s : State),
    Completes (.rhWindowEnd (l ++ [(c, r, b, q)])) s fun t => t.rd R.MEM_RH_LOG_CHAN = c.val ∧ t.rd R.MEM_RH_LOG_RANK = r.val
      ∧ t.rd R.MEM_RH_LOG_BANK = b.val ∧ t.rd R.MEM_RH_LOG_REQ = q.val ∧ t.on R.MEM_EVENT_RH = true
      ∧ t.rd R.MEM_RH_CNT_COUNT = min (s.rd R.MEM_RH_CNT_COUNT + l.length + 1) (2 ^ 32 - 1))
  ∧ (∀ s : State, s.on R.MEM_CTRL_SCRUB_EN = true →
    Completes (.scrubLine ⟨0, []⟩) s fun t => t.memc = { s.memc with line := (s.memc.line + 1) % 1048576 }
      ∧ t.regs = s.regs ∧ BytesKept s t)
  ∧ (∀ (n : Nat) (s : State), s.on R.MEM_CTRL_SCRUB_EN = true → 0 < n →
    Completes (.scrubLine ⟨n, []⟩) s fun t => t.rd R.MEM_ERR_CE_COUNT = min (s.rd R.MEM_ERR_CE_COUNT + n) (2 ^ 32 - 1)
      ∧ t.on R.MEM_EVENT_CE = true ∧ t.rd R.MEM_ERR_ADDR_ADDR = s.rd R.MEM_ERR_ADDR_ADDR)
  ∧ ∀ (i : Nat) (s : State), s.on R.MEM_CTRL_SCRUB_EN = true → s.on R.MEM_EVENT_UE = false → s.memc.line < 524288 →
    Completes (.scrubLine ⟨0, [i]⟩) s fun t => t.rd R.MEM_ERR_ADDR_ADDR = 64 * s.memc.line + 8 * (i % 8)
      ∧ t.rd R.MEM_ERR_INFO_MEM = 0 ∧ t.rd R.MEM_ERR_INFO_REQ = 13 ∧ t.on R.MEM_EVENT_UE = true
      ∧ t.rd R.MEM_ERR_UE_COUNT = min (s.rd R.MEM_ERR_UE_COUNT + 1) (2 ^ 32 - 1))

/-- R428, R429, R435 to R438: the governor grants from the head of its queue and times requests out, and an idle
port's domain turns off with its registers. R447 to R449: the timers of Plumb make targets pending again, the next
target takes its hods, and a target without an allowed tick is set aside and tried again. -/
def Obligations.GovernorAndCalibration : Prop :=
  (
  (∀ (r : HodReq) (q : List HodReq) (s : State), s.hodQueue = r :: q → s.hodFits r = true →
    Completes .hodGrant s fun t => ∃ u : State, t = govern 31 (u.hodBegin r) ∧ u.hodQueue = q
      ∧ u.hodHeld = s.hodHeld ++ [(r.user, r.hods)] ∧ u.on R.PWR_EVENT_GRANT = true ∧ u.granted = s.granted + r.hods
      ∧ u.rd R.PWR_STAT_GRANTED = (s.granted + r.hods) % 512 ∧ u.rd R.PWR_STAT_QUEUED = q.length % 64)
  ∧ (∀ (r : HodReq) (q : List HodReq) (s : State), s.hodQueue = r :: q → s.hodFits r = false →
    Completes .hodGrant s fun t => t = s)
  ∧ (∀ (r : HodReq) (s : State), s.hodFits r = true ↔ s.granted + r.hods ≤ s.rd R.PWR_BUDGET_BUDGET
    ∧ (r.cls = 1 → s.on R.PWR_STAT_HOT = false))
  ∧ (∀ (u : HodUser) (r : HodReq) (s : State), (s.hodQueue.find? fun x => x.user == u) = some r →
    Completes (.hodTimeout u) s fun t => ∃ v : State, t = v.hodFail r ∧ (∀ x ∈ v.hodQueue, x.user ≠ u)
      ∧ (∀ x ∈ s.hodQueue, x.user ≠ u → x ∈ v.hodQueue) ∧ v.hodHeld = s.hodHeld ∧ v.on R.PWR_EVENT_TIMEOUT = true
      ∧ v.cmd.jobs = s.cmd.jobs)
  ∧ (∀ (r : HodReq) (j : Job) (s : State), (r.user = .sco ∨ ∃ g, r.user = .group g) → s.job? r.job = some j → live j = true →
    j.notify = false → ∃ k, (s.hodFail r).job? r.job = some k ∧ k.state = .failed ∧ k.status = E_POWER)
  ∧ ∀ (n : Fin 4) (s : State), s.pstate n = stIdle → s.portOn n = true → s.mgt.calRun ≠ some n.val →
    s.mgt.calRun ≠ some (4 + n.val) →
    Completes (.portPowerOff n) s fun t => ∃ u : State, t = (u.calLeave n).calLeave (4 + n) ∧ u.portOn n = false
      ∧ (∀ d, d ≠ 3 + n.val → u.domOn d = s.domOn d)
      ∧ ∀ f : Field, portOfOffset (f.key / 32 * 4) = some n.val → retainedAt (f.key / 32 * 4) = false →
        u.rd f = f.reset)
  ∧ (
  let pends (t : Fin 9) (s' : State) : Prop := ∃ u : State, s' = u.calNext ∧ u.bit R.MGT_CAL_PEND_PENDING t = true
  (∀ (t : Fin 9) (s : State), s.on R.MGT_CAL_CFG_AUTO = true → (s.mgt.calTj[t]).isSome = true →
    Completes (.cal24hTimer t) s (pends t))
  ∧ (∀ (t : Fin 9) (s : State), s.mgt.calRetry.testBit t = true →
    Completes (.calRetryTimer t) s fun s' => ∃ u : State, s' = u.calNext ∧ u.bit R.MGT_CAL_PEND_PENDING t = true
      ∧ u.mgt.calRetry.testBit t = false)
  ∧ (∀ (t : Nat) (s : State), s.mgt.calRun = none → s.mgt.calWait = none → 3 ≤ s.sys.mode → s.calPick = some t →
    s.calJobOf t = none → s.hodQueue = [] → s.holdsHods (.cal t) = false →
    s.hodFits { user := .cal t, hods := 2, cls := 1, tmo := 0, job := 0 } = true →
    Completes .plumbHodRetry s fun s' => s'.mgt.calRun = some t ∧ s'.mgt.calStep = 0 ∧ s'.holdsHods (.cal t) = true
      ∧ s'.granted = s.granted + 2 ∧ (t = 8 → s.rsf.phase ≠ 3 → s'.rsf.selfcal = true))
  ∧ (∀ (t : Nat) (s : State), t < 9 → s.mgt.calRun = some t → s.mgt.calIn = false →
    Completes .calBlocked s fun s' => ∃ u : State, s' = u.calNext ∧ u.bit R.MGT_CAL_PEND_BLOCKED t = true
      ∧ u.mgt.calRun = none ∧ u.holdsHods (.cal t) = false)
  ∧ ∀ (t : Fin 9) (s : State), s.bit R.MGT_CAL_PEND_BLOCKED t = true →
    Completes (.calBlockedRetry t) s fun s' => ∃ u : State, s' = u.calNext
      ∧ u.bit R.MGT_CAL_PEND_BLOCKED t = false ∧ u.rd R.MGT_CAL_PEND_PENDING = s.rd R.MGT_CAL_PEND_PENDING)

/-- R424, R434, R439, R440, R444, R445: sensors, PMBus rails and PM_ALERT_N; the end of the checks of an update; and
the copy of a snapshot. -/
def Obligations.SensorsUpdateSnapshot : Prop :=
  (∀ (die : Vector Word 8) (sup : Vector Word 7) (s : State), s.domOn dMGT = true → s.chadihus = true →
    Completes (.sensorSample die sup) s fun t => ∃ u : State, t = u.calTemp.memTemp
      ∧ (∀ i : Fin 8, die[i].toInt ≤ u.rdS R.MGT_TJ_TJ) ∧ (∃ i : Fin 8, u.rdS R.MGT_TJ_TJ = die[i].toInt)
      ∧ u.on R.PWR_STAT_HOT = decide (256 * (s.rd R.PWR_TLIM_HOT : Int) ≤ u.rdS R.MGT_TJ_TJ)
      ∧ (∀ i : Fin 8, ∃ x ∈ u.mgt.sensors, x.id = 1 + i.val ∧ x.value = die[i].toNat ∧ x.at_ = s.sys.uptime)
      ∧ ∀ i : Fin 7, ∃ x ∈ u.mgt.sensors, x.id = 16 + i.val ∧ x.value = sup[i].toNat ∧ x.at_ = s.sys.uptime)
  ∧ (∀ (r : Fin 16) (v i c : Word) (st : BitVec 16) (s : State), s.chadihus = true →
    Completes (.pmbusPoll r v i c st) s fun t => t.mgt.alert = false
      ∧ (∀ p ∈ [(0x100, v), (0x120, i), (0x140, c)], ∃ x ∈ t.mgt.sensors, x.id = p.1 + r.val ∧ x.value = p.2.toNat
          ∧ x.flags = (if st = 0 then 0 else senFault) ∧ x.at_ = s.sys.uptime)
      ∧ (st = 0 → t.regs = s.regs ∧ t.out = s.out)
      ∧ (st ≠ 0 → .clearFaults r.val ∈ t.out)
      ∧ (st ≠ 0 → s.sensorFlags (0x100 + r.val) = 0 → t.on R.MGT_EVENT_SENSOR = true))
  ∧ (∀ s : State, s.domOn dMGT = true → Completes .pmAlert s fun t => t.mgt = { s.mgt with alert := true } ∧ t.regs = s.regs)
  ∧ (∀ (ok : Bool) (u : Update) (j : Job) (s : State), s.mgt.update = some u → s.job? u.job = some j → live j = true →
    j.notify = false → let c := s.imageCheck (s.updateBytes u) (some u.size)
    Completes (.updateVerifyDone ok) s fun t => t.mgt.update = none
      ∧ (c = 0 → ok = true → t.sys.verified.testBit u.slot = true ∧ t.on R.MGT_EVENT_UPDATE = true
        ∧ (∃ k, t.job? u.job = some k ∧ k.state = .done ∧ k.status = OK)
        ∧ (u.staged = true → u.size ≤ 0x800000 →
          (∀ i, i < u.size → Mem.read t.flash flashFill (slotBase u.slot + i) = Mem.read u.cells flashFill i)
          ∧ (∀ i, u.size ≤ i → i < 0x800000 → Mem.read t.flash flashFill (slotBase u.slot + i) = flashFill)
          ∧ ∀ a, a < slotBase u.slot ∨ slotBase u.slot + 0x800000 ≤ a →
            Mem.read t.flash flashFill a = Mem.read s.flash flashFill a))
      ∧ (c = 0 → ok = false → t.sys.verified = s.sys.verified
        ∧ ∃ k, t.job? u.job = some k ∧ k.state = .failed ∧ k.detail = 4096 * 5 ∧ k.status = E_INTERNAL)
      ∧ (c ≠ 0 → t.flash = s.flash ∧ t.sys = s.sys
        ∧ ∃ k, t.job? u.job = some k ∧ k.state = .failed ∧ k.detail = 4096 * c
          ∧ k.status = if c = 1 then E_PARAM else E_AUTH))
  ∧ ∀ (h n : Nat) (j : Job) (s : State), s.Canonical → s.mgt.snap = some (h, n) → s.job? h = some j → live j = true →
    j.notify = false →
    Completes .snapshotDone s fun t => t.mgt.snap = none ∧ t.regs = s.regs ∧ t.sram = s.sram
      ∧ (∃ k, t.job? h = some k ∧ k.state = .done ∧ k.result = [snapBase % 2 ^ 32, snapBase / 2 ^ 32])
      ∧ (∀ i, i < 0x800000 → Mem.read t.dram dramFill (snapBase + i) = Mem.read s.sram sramFill (0x800000 * n + i))
      ∧ ∀ a, a < snapBase ∨ snapBase + 0x800000 ≤ a → Mem.read t.dram dramFill a = Mem.read s.dram dramFill a

/-- R469 to R472, R475 to R477, R479 to R481, R483, R484, R486: what the master of an array does with each datagram
that it hears. -/
def Obligations.ArrayMaster : Prop :=
  let from_ (s : State) (p : AryPkt) : Prop := ∃ m ∈ s.ary.roster, m.id = srcId p ∧ m.addr = p.addr
  let member (s : State) (p : AryPkt) : Prop := from_ s p ∧ srcId p ≠ s.ary.id
  (∀ (p : AryPkt) (s : State), AryHears s tJOIN p → s.aryMaster = true → from_ s p →
    Completes (.aryJoin p) s fun t => ∃ u : State, t = u.arySend p.addr tACCEPT [] ∧ u.ary = s.ary)
  ∧ (∀ (p : AryPkt) (s : State), AryHears s tJOIN p → s.aryMaster = true → (∀ m ∈ s.ary.roster, m.id ≠ srcId p) →
    (bodyWord p 0).testBit 0 = s.on R.ARY_STAT_TIME → (bodyWord p 0).testBit 1 = true →
    Completes (.aryJoin p) s fun t => ∃ u : State,
      t = (if s.on R.ARY_STAT_ARMED && !s.ary.disarming then u.arySend p.addr tARM [s.ary.armMask] else u)
      ∧ (∃ m ∈ u.ary.roster, m.id = srcId p ∧ m.addr = p.addr ∧ m.missed = 0 ∧ m.armAck = false)
      ∧ u.rd (R.ARY_MEM_STATE (srcId p)) = 1 ∧ u.ary.seq = s.ary.seq + 1
      ∧ u.rd R.ARY_STAT_MEMBERS = u.ary.roster.length % 2 ^ 13
      ∧ ∃ v : State, u = v.arySend p.addr tACCEPT [])
  ∧ (∀ (p : AryPkt) (c : Nat) (s : State), AryHears s tJOIN p → s.aryMaster = true → ¬ from_ s p →
    (c = 1 ∧ (∃ m ∈ s.ary.roster, m.id = srcId p) ∨ (∀ m ∈ s.ary.roster, m.id ≠ srcId p)
      ∧ (c = 3 ∧ (bodyWord p 0).testBit 0 ≠ s.on R.ARY_STAT_TIME
        ∨ c = 4 ∧ (bodyWord p 0).testBit 0 = s.on R.ARY_STAT_TIME ∧ (bodyWord p 0).testBit 1 = false)) →
    Completes (.aryJoin p) s fun t => ∃ u : State, t = u.arySend p.addr tREFUSE [c] ∧ u.ary = s.ary)
  ∧ (∀ (p : AryPkt) (s : State), AryHears s tBEAT_ACK p → s.aryMaster = true → member s p →
    Completes (.aryBeatAck p) s fun t => (∃ m ∈ t.ary.roster, m.id = srcId p ∧ m.missed = 0)
      ∧ t.rd (R.ARY_MEM_TQ (srcId p)) = bodyWord p 0 % 8
      ∧ t.rd (R.ARY_MEM_STATE (srcId p)) = (if (bodyWord p 0).testBit 31 = false then 3
          else if s.rd R.ARY_LAG_VALUE < bodyWord p 2 then 2 else 1)
      ∧ (s.rd (R.ARY_MEM_STATE (srcId p)) ≠ 3 → (bodyWord p 0).testBit 31 = false → t.on R.ARY_EVENT_MEMBER_TIME = true)
      ∧ (s.rd (R.ARY_MEM_STATE (srcId p)) ≠ 2 → (bodyWord p 0).testBit 31 = true →
          s.rd R.ARY_LAG_VALUE < bodyWord p 2 → t.on R.ARY_EVENT_MEMBER_LAG = true))
  ∧ (∀ (p : AryPkt) (s : State), AryHears s tARM_ACK p → s.aryMaster = true → s.on R.ARY_STAT_ARMED = true → member s p →
    s.ary.disarming = false →
    Completes (.aryArmAck p) s fun t => t.on (R.ARY_MEM_ARMED (srcId p)) = true
      ∧ ∀ m ∈ t.ary.roster, m.id = srcId p → m.armAck = true)
  ∧ (∀ (p : AryPkt) (s : State), AryHears s tARM_ACK p → s.aryMaster = true → s.on R.ARY_STAT_ARMED = true → member s p →
    s.ary.disarming = true → JobRuns s s.ary.armJob →
    (∀ m ∈ s.ary.roster, m.id = srcId p ∨ m.armAck = true ∨ s.rd (R.ARY_MEM_STATE m.id) = 4) →
    Completes (.aryArmAck p) s fun t => t.on R.ARY_STAT_ARMED = false ∧ t.ary.disarming = false
      ∧ JobEnds t s.ary.armJob .done OK 0)
  ∧ (∀ (p : AryPkt) (s : State), AryHears s tLEAVE p → s.aryMaster = true → member s p →
    s.ary.disarming = false →
    Completes (.aryLeave p) s fun t => t.ary.roster = s.ary.roster.filter (fun m => m.id != srcId p)
      ∧ t.rd (R.ARY_MEM_STATE (srcId p)) = 0 ∧ t.rd R.ARY_STAT_MEMBERS = t.ary.roster.length % 2 ^ 13)
  ∧ (∀ (p : AryPkt) (s : State), s.aryMaster = true → ¬ member s p →
    (AryHears s tBEAT_ACK p → Completes (.aryBeatAck p) s fun t => t.ary = s.ary)
    ∧ (AryHears s tARM_ACK p → Completes (.aryArmAck p) s fun t => t.ary = s.ary)
    ∧ (AryHears s tLEAVE p → Completes (.aryLeave p) s fun t => t.ary = s.ary))
  ∧ ∀ (p : AryPkt) (s : State), AryHears s tFIRE p → s.aryMaster = true → 2 ≤ s.aryState →
    let x := bodyWord p 0 + bodyWord p 1 * 2 ^ 32
    let o := bodyWord p 4 % 4096
    let l := s.ary.roster.filter fun m => m.id != s.ary.id && m.id != o
    Completes (.aryFire p) s fun t => t.rd R.ARY_FIRES_RECEIVED = min (s.rd R.ARY_FIRES_RECEIVED + 1) (2 ^ 16 - 1)
      ∧ if s.aryMerges x then t.acq.inbox = s.acq.inbox ∧ t.ary = s.ary
            ∧ t.rd R.ARY_MERGED_COUNT = min (s.rd R.ARY_MERGED_COUNT + 1) (2 ^ 32 - 1)
        else t.acq.inbox = s.acq.inbox ++ [(x, o)] ∧ t.ary.seq = s.ary.seq + l.length
            ∧ t.ary.relayed.head? = some (x, s.sys.uptime)
            ∧ t.rd R.ARY_LAT_MAX_COUNT = max (s.rd R.ARY_LAT_MAX_COUNT) (if Arith.stampLt s.now x then 0 else min (Arith.stampSub s.now x) (2 ^ 32 - 1))

/-- R469 to R473, R477, R478, R480, R481, R484, R486: what a joining device or a member does with each datagram that
it hears, and with one that fails the checks of R469. -/
def Obligations.ArrayMember : Prop :=
  (∀ (p : AryPkt) (s : State), AryHears s tACCEPT p → s.aryState = aryJoining → JobRuns s s.ary.joinJob →
    Completes (.aryAccept p) s fun t => t.aryState = ARY_JOINED ∧ t.on R.ARY_EVENT_JOINED = true ∧ t.ary = s.ary
      ∧ ∃ j, t.job? s.ary.joinJob = some j ∧ j.state = .running)
  ∧ (∀ (p : AryPkt) (s : State), AryHears s tREFUSE p → s.aryState = aryJoining → JobRuns s s.ary.joinJob →
    Completes (.aryRefuse p) s fun t => t.aryState = aryOff ∧ t.ary = State.reset.ary
      ∧ JobEnds t s.ary.joinJob .failed
          (if bodyWord p 0 = 3 ∨ bodyWord p 0 = 4 then E_ARRAY_TIME else E_ARRAY_ID) (bodyWord p 0))
  ∧ (∀ (p : AryPkt) (s : State), AryHears s tBEAT p → s.aryMaster = false → 2 ≤ s.aryState →
    Completes (.aryBeat p) s fun t => ∃ u : State, t = u.arySend s.ary.master tBEAT_ACK
        [s.rd R.TBU_STAT_TQ + (if s.on R.ARY_STAT_TIME_OK then 2 ^ 31 else 0), s.aryOffset, s.rd R.ARY_LAT_MAX_COUNT,
          s.aryChanMask]
      ∧ u.aryState = ARY_JOINED ∧ u.ary = s.ary)
  ∧ (∀ (p : AryPkt) (s : State), AryHears s tARM p → s.aryMaster = false → 2 ≤ s.aryState →
    s.aryArmable (bodyWord p 0) = [] →
    Completes (.aryArm p) s fun t => ∃ u : State, t = u.arySend s.ary.master tARM_ACK [0] ∧ u.acq = s.acq ∧ u.ary = s.ary)
  ∧ (∀ (p : AryPkt) (k : Fin 4) (s : State), AryHears s tARM p → s.aryMaster = false → 2 ≤ s.aryState →
    s.domOn dCORE = true → s.aryArmable (bodyWord p 0) = [k] → s.chLive k = false → s.armCheck k = (OK, 0) →
    Completes (.aryArm p) s fun t => ∃ u : State, t = u.arySend s.ary.master tARM_ACK [2 ^ k.val, OK]
      ∧ u.rd (R.ACQ_CH_STAT_JOB k) = 1 ∧ u.bit R.ACQ_STAT_ARMED k = true ∧ u.ary.chans.testBit k.val = true)
  ∧ (∀ (p : AryPkt) (k : Fin 4) (st c : Nat) (s : State), AryHears s tARM p → s.aryMaster = false → 2 ≤ s.aryState →
    s.domOn dCORE = true → s.aryArmable (bodyWord p 0) = [k] → s.chLive k = false → s.armCheck k = (st, c) →
    st ≠ OK →
    Completes (.aryArm p) s fun t => ∃ u : State, t = u.arySend s.ary.master tARM_ACK [2 ^ k.val, st] ∧ u.acq = s.acq
      ∧ u.ary = s.ary)
  ∧ (∀ (p : AryPkt) (s : State), AryHears s tDISARM p → s.aryMaster = false → 2 ≤ s.aryState →
    Completes (.aryDisarm p) s fun t => ∃ u : State, t = (u.aryChansEnd false).arySend s.ary.master tARM_ACK [0]
      ∧ u.acq = s.acq ∧ u.ary = s.ary)
  ∧ (∀ (p : AryPkt) (s : State), AryHears s tCANCEL p → s.aryMaster = false → 2 ≤ s.aryState →
    Completes (.aryCancel p) s fun t => t.ary.chans = 0 ∧ ∃ u : State, t = u.aryChansEnd true ∧ u.acq = s.acq
      ∧ u.ary = s.ary)
  ∧ (∀ (c : Bool) (k : Fin 4) (s : State), s.aryChans = [k] → ∃ u : State, s.aryChansEnd c = u
      ∧ u.acq = (if c then s.chCancel k else s.chDisarm k).acq ∧ u.ary.chans = 0)
  ∧ (∀ (p : AryPkt) (s : State), AryHears s tFIRE p → s.aryMaster = false → 2 ≤ s.aryState →
    let x := bodyWord p 0 + bodyWord p 1 * 2 ^ 32
    Completes (.aryFire p) s fun t => t.rd R.ARY_FIRES_RECEIVED = min (s.rd R.ARY_FIRES_RECEIVED + 1) (2 ^ 16 - 1)
      ∧ t.acq.inbox = s.acq.inbox ++ [(x, bodyWord p 4 % 4096)] ∧ t.ary = s.ary
      ∧ t.rd R.ARY_LAT_MAX_COUNT = max (s.rd R.ARY_LAT_MAX_COUNT) (if Arith.stampLt s.now x then 0 else min (Arith.stampSub s.now x) (2 ^ 32 - 1)))
  ∧ (∀ (p : AryPkt) (s : State), AryHears s tDISSOLVE p → s.aryMaster = false → 2 ≤ s.aryState → s.ary.armJob = 0 →
    s.aryChans = [] → JobRuns s s.ary.joinJob →
    Completes (.aryDissolve p) s fun t => t.aryState = aryOff ∧ t.on R.ARY_EVENT_LEFT = true ∧ t.ary = State.reset.ary
      ∧ JobEnds t s.ary.joinJob .done OK 1)
  ∧ ∀ (p : AryPkt) (s : State), s.on (R.HIF_ETH_CFG_EN s.aryEth) = true → s.ethUp s.aryEth = true →
    (s.aryState = aryOff ∨ aryCrcOk p tFIRE = false ∨ p.no.toNat ≠ s.rd R.ARY_ARRAY_NO_VALUE ∨ s.aryKnows p.addr = false) →
    Completes (.aryFire p) s fun t => t.ary = s.ary ∧ t.acq = s.acq
      ∧ t.rd (R.HIF_ETH_DISCARD_COUNT s.aryEth) = min (s.rd (R.HIF_ETH_DISCARD_COUNT s.aryEth) + 1) (2 ^ 32 - 1)
      ∧ t.rd R.ARY_FIRES_RECEIVED = s.rd R.ARY_FIRES_RECEIVED

/-- R469, R472, R473, R475 to R478, R480, R481: the datagram that ARY sends, and the timers of the master, of a
joining device and of a member. -/
def Obligations.ArrayTimers : Prop :=
  (∀ (a typ : Nat) (body : List Nat) (s : State), s.ethUp s.aryEth = true →
    let b := Arith.bytesOfWords ([typ * 2 ^ 24 + 65536 + s.ary.id, s.rd R.ARY_ARRAY_NO_VALUE,
      (s.ary.seq + 1) % 2 ^ 32, 4 * body.length] ++ body)
    (s.arySend a typ body).out = s.out ++ [.datagram s.aryEth a s.ary.udp (b ++ Arith.leBytes 4 (Arith.crc32 b))]
      ∧ (s.arySend a typ body).ary = { s.ary with seq := s.ary.seq + 1 })
  ∧ (∀ s : State, s.aryMaster = true → s.aryState = ARY_JOINED → (s.ary.roster.map Member.id).Nodup →
    Completes .aryBeatTimer s fun t => t.ary.seq = s.ary.seq + s.others.length
      ∧ (∀ m ∈ s.others, ∃ e ∈ t.ary.roster, e.id = m.id ∧ e.missed = m.missed + 1)
      ∧ (∀ m ∈ s.others, 3 ≤ m.missed → t.rd (R.ARY_MEM_STATE m.id) = 4)
      ∧ ∀ m ∈ s.others, 3 ≤ m.missed → s.rd (R.ARY_MEM_STATE m.id) ≠ 4 → t.on R.ARY_EVENT_MEMBER_LOST = true)
  ∧ (∀ (i : BitVec 12) (s : State), s.aryMaster = true → i.toNat ≠ s.ary.id → s.rd (R.ARY_MEM_STATE i.toNat) = 4 →
    s.ary.disarming = false →
    Completes (.aryOrphanRemove i) s fun t => t.ary.roster = s.ary.roster.filter (fun m => m.id != i.toNat)
      ∧ t.rd (R.ARY_MEM_STATE i.toNat) = 0 ∧ t.rd R.ARY_STAT_MEMBERS = t.ary.roster.length % 2 ^ 13)
  ∧ (∀ s : State, s.on R.ARY_STAT_ARMED = true → s.ary.disarming = false →
    Completes .aryArmResend s fun t => t = s.arySendAll (s.others.filter fun m => !m.armAck) tARM [s.ary.armMask]
      ∧ t.ary.seq = s.ary.seq + (s.others.filter fun m => !m.armAck).length ∧ t.acq = s.acq)
  ∧ (∀ s : State, s.ary.disarming = true → JobRuns s s.ary.armJob →
    Completes .aryDisarmTimeout s fun t => t.on R.ARY_STAT_ARMED = false ∧ t.ary.disarming = false ∧ t.ary.armJob = 0
      ∧ JobEnds t s.ary.armJob .done OK 0)
  ∧ (∀ s : State, s.domOn dCORE = true → s.aryMaster = false →
    Completes .aryTimeCheck s fun t => RegsKept [R.ARY_STAT_TIME_OK.key] s t ∧ t.ary = s.ary
      ∧ (t.on R.ARY_STAT_TIME_OK = true ↔ s.rd R.TBU_STAT_TQ ≤ 1 ∧ if s.on R.ARY_STAT_TIME
        then s.rd R.TBU_STAT_EPOCH_SRC = 2 ∧ s.hif.ptpState = 2 ∧ s.hif.ptpOffset.natAbs ≤ 12800
        else s.rd R.TBU_STAT_EPOCH_SRC ≠ 0 ∧ s.on R.TBU_STAT_PPS_OK = true ∧ (s.rdS R.TBU_PPS_ERR_ERR).natAbs ≤ 640))
  ∧ (∀ s : State, s.aryMaster = false → s.aryState = ARY_JOINED →
    Completes .aryBeatTimeout s fun t => t.aryState = ARY_ORPHAN ∧ t.on R.ARY_EVENT_ORPHAN = true ∧ t.ary = s.ary)
  ∧ (∀ s : State, s.aryState = ARY_ORPHAN → s.aryChans = [] → JobRuns s s.ary.joinJob →
    Completes .aryOrphanLeave s fun t => t.aryState = aryOff ∧ t.on R.ARY_EVENT_LEFT = true ∧ t.ary = State.reset.ary
      ∧ JobEnds t s.ary.joinJob .failed E_ARRAY_MEMBER 0)
  ∧ (∀ s : State, s.aryState = aryJoining →
    Completes .aryJoinRetry s fun t => t = s.arySend s.ary.master tJOIN
      [(if s.on R.ARY_STAT_TIME then 1 else 0) + 2 * if s.on R.ARY_STAT_TIME_OK then 1 else 0])
  ∧ ∀ s : State, s.aryState = aryJoining → JobRuns s s.ary.joinJob →
    Completes .aryJoinTimeout s fun t => t.aryState = aryOff ∧ t.ary = State.reset.ary
      ∧ JobEnds t s.ary.joinJob .failed E_ARRAY_MEMBER 0

/-- R5, R9 to R11, R29, R41, R112, R383, R394, R435, R511: BAR0 writes: those that are discarded, those of the
management registers by access type, PWR_BUDGET, event flags, and both words of a 64-bit register. -/
def Obligations.RegisterWrites : Prop :=
  (∀ (off : BitVec 24) (z : Bool) (v : Word) (s : State), s.pcieDecode ≠ .serve →
    Completes (.registerWrite off z v) s fun t => t = s)
  ∧ (∀ (off : BitVec 24) (z : Bool) (v : Word) (s : State), s.pcieDecode = .serve → (z = false ∨ off.toNat % 4 ≠ 0) →
    Completes (.registerWrite off z v) s fun t => t.on R.SYS_GSTAT_BAD_ACCESS = true
      ∧ RegsKept [R.SYS_GSTAT_BAD_ACCESS.key] s t ∧ t.wbuf = s.wbuf ∧ t.out = s.out ∧ BytesKept s t)
  ∧ (∀ (off : BitVec 24) (d : Nat) (v : Word) (s : State), s.pcieDecode = .serve → off.toNat % 4 = 0 →
    domainOf off.toNat = some d → s.domOn d = false → retainedAt off.toNat = false →
    Completes (.registerWrite off true v) s fun t => t.on R.SYS_GSTAT_PD_ACCESS = true
      ∧ RegsKept [R.SYS_GSTAT_PD_ACCESS.key] s t ∧ t.wbuf = s.wbuf ∧ t.out = s.out ∧ BytesKept s t)
  ∧ (∀ (off : BitVec 24) (v : Word) (s : State), s.pcieDecode = .serve → off.toNat % 4 = 0 →
    (domainOf off.toNat = none ∨ (∃ d, domainOf off.toNat = some d ∧ s.domOn d = true) ∧ regAt off.toNat = none) →
    Completes (.registerWrite off true v) s fun t => t = s)
  ∧ (∀ (off : BitVec 24) (h : Hit) (v : Word) (s : State), s.pcieDecode = .serve → s.domOn dMGT = true →
    0x20000 ≤ off.toNat → off.toNat < 0x40000 → off.toNat % 4 = 0 → regAt off.toNat = some h →
    Completes (.registerWrite off true v) s fun t => ∀ f ∈ h.reg.fields,
      let x := Arith.slice v.toNat (f.lo h.reg.base) f.width
      t.rd (f.shift h.d) = match f.acc with
        | .rw => f.norm.apply x % 2 ^ f.width
        | .w1c => (s.rd (f.shift h.d) &&& (2 ^ f.width - 1 - x)) % 2 ^ f.width
        | _ => s.rd (f.shift h.d))
  ∧ (∀ (v : Word) (s : State), s.pcieDecode = .serve → s.domOn dMGT = true →
    let b := max 1 (min 256 (v.toNat % 512))
    Completes (.registerWrite 0x10000 true v) s fun t =>
      if b < s.granted then t.rd R.PWR_BUDGET_BUDGET = s.rd R.PWR_BUDGET_BUDGET ∧ t.on R.PWR_EVENT_CFG_REJECT = true
      else t.rd R.PWR_BUDGET_BUDGET = b ∧ RegsKept [R.PWR_BUDGET_BUDGET.key] s t)
  ∧ (∀ (v : Word) (s : State), s.pcieDecode = .serve → s.domOn dCORE = true →
    let l := [R.HIF_EVENT_PCIE_LINK, R.HIF_EVENT_ETH0_LINK, R.HIF_EVENT_ETH1_LINK, R.HIF_EVENT_FLR, R.HIF_EVENT_CQ_FULL,
      R.HIF_EVENT_DESC_ERR, R.HIF_EVENT_DMA_ERR, R.HIF_EVENT_ETH_CMD_ERR, R.HIF_EVENT_SPI_OVF, R.HIF_EVENT_CFG_REJECT]
    Completes (.registerWrite 0x340004 true v) s fun t =>
      (∀ i : Fin 10, t.on l[i] = true ↔ s.rd l[i] % 2 = 1 ∧ v.toNat.testBit i = false)
      ∧ ((∀ f ∈ l, s.rd f < 2) → (∃ i : Fin 10, s.on l[i] = true ∧ v.toNat.testBit i = false) →
          .msix 23 ∈ t.out ∨ t.bit (R.HIF_PBA_PENDING 0) 23 = true))
  ∧ (∀ (v : Word) (s : State), s.pcieDecode = .serve → s.domOn dCORE = true → s.on R.HIF_SQ_CFG_EN = false →
    Completes (.registerWrite 0x340018 true v) s fun t => t.rd R.HIF_SQ_CFG_SIZE = min 8 (v.toNat % 16)
      ∧ t.on R.HIF_SQ_CFG_CRC_EN = v.toNat.testBit 30 ∧ t.on R.HIF_SQ_CFG_EN = v.toNat.testBit 31
      ∧ (v.toNat.testBit 31 = true → t.rd R.HIF_SQ_HEAD_INDEX = 0 ∧ t.rd R.HIF_SQ_TAIL_INDEX = 0))
  ∧ (∀ (v : Word) (s : State), s.pcieDecode = .serve → s.domOn dCORE = true → s.on R.HIF_SQ_CFG_EN = true →
    v.toNat.testBit 31 = true →
    Completes (.registerWrite 0x340018 true v) s fun t => t.on R.HIF_EVENT_CFG_REJECT = true
      ∧ t.rd R.HIF_SQ_CFG_SIZE = s.rd R.HIF_SQ_CFG_SIZE ∧ t.rd R.HIF_SQ_CFG_EN = s.rd R.HIF_SQ_CFG_EN
      ∧ t.rd R.HIF_SQ_HEAD_INDEX = s.rd R.HIF_SQ_HEAD_INDEX)
  ∧ (∀ (off : BitVec 24) (h : Hit) (v : Word) (s : State), s.pcieDecode = .serve → off.toNat % 4 = 0 →
    regAt off.toNat = some h → h.reg.wide = true → h.hi = false →
    (∃ d, domainOf off.toNat = some d ∧ s.domOn d = true) →
    let reject := s.lowReject h ((dimIdx h.reg.dims h.d).getD 0 0) ((dimIdx h.reg.dims h.d).getD 1 0)
    (reject = none → Completes (.lowWordWrite off v) s fun t => Bank.get t.wbuf off.toNat 0 = v.toNat ∧ t.regs = s.regs
      ∧ (∀ k, k ≠ off.toNat → Bank.get t.wbuf k 0 = Bank.get s.wbuf k 0) ∧ BytesKept s t)
    ∧ (∀ f, reject = some f → Completes (.lowWordWrite off v) s fun t => t = s.ev f))
  ∧ (∀ (n : Fin 4) (v : Word) (s : State), s.pcieDecode = .serve → s.domOn dCORE = true → s.domOn (dPORT n) = true →
    s.busyPort n = true →
    Completes (.lowWordWrite (BitVec.ofNat 24 (0x83000 + 0x4000 * n.val + 32 * s.route n)) v) s fun t =>
      t.on (R.PPE_EVENT_STORE_REJECT n) = true ∧ t.wbuf = s.wbuf ∧ t.shadow = s.shadow ∧ BytesKept s t)
  ∧ (∀ (off : BitVec 24) (h : Hit) (v : Word) (s : State), s.pcieDecode = .serve → off.toNat % 4 = 0 →
    regAt off.toNat = some h → h.reg.wide = true → h.hi = true →
    (∃ d, domainOf off.toNat = some d ∧ s.domOn d = true) →
    Completes (.highWordWrite off v) s fun t =>
      t = s.writeReg h (v.toNat * 2 ^ 32 + Bank.get s.wbuf (off.toNat - 4) 0))
  ∧ ∀ (v : Word) (s : State), s.pcieDecode = .serve → s.domOn dCORE = true → s.on R.HIF_SQ_CFG_EN = false →
    Bank.get s.wbuf 0x340010 0 < 2 ^ 32 →
    Completes (.highWordWrite 0x340014 v) s fun t =>
      t.rd R.HIF_SQ_BASE_ADDR = (v.toNat * 2 ^ 32 + Bank.get s.wbuf 0x340010 0) / 4096
        ∧ RegsKept [R.HIF_SQ_BASE_ADDR.key] s t

/-- R9 to R11, R14, R29, R41: BAR0 reads, of 32-bit registers, of both words of a 64-bit register, and those that give
0. -/
def Obligations.RegisterReads : Prop :=
  (∀ (off : BitVec 24) (z : Bool) (s : State), s.pcieDecode = .zero →
    Completes (.lowWordRead off z) s fun t => t = s.emit (.bar0 0))
  ∧ (∀ (off : BitVec 24) (z : Bool) (s : State), s.pcieDecode = .serve → (z = false ∨ off.toNat % 4 ≠ 0) →
    Completes (.lowWordRead off z) s fun t => t.out = s.out ++ [.bar0 0] ∧ t.on R.SYS_GSTAT_BAD_ACCESS = true
      ∧ RegsKept [R.SYS_GSTAT_BAD_ACCESS.key] s t ∧ t.shadow = s.shadow)
  ∧ (∀ (off : BitVec 24) (d : Nat) (s : State), s.pcieDecode = .serve → off.toNat % 4 = 0 →
    domainOf off.toNat = some d → s.domOn d = false → retainedAt off.toNat = false →
    Completes (.lowWordRead off true) s fun t => t.out = s.out ++ [.bar0 0] ∧ t.on R.SYS_GSTAT_PD_ACCESS = true
      ∧ RegsKept [R.SYS_GSTAT_PD_ACCESS.key] s t ∧ t.shadow = s.shadow)
  ∧ (∀ (off : BitVec 24) (s : State), s.pcieDecode = .serve → off.toNat % 4 = 0 →
    (domainOf off.toNat = none ∨ (∃ d, domainOf off.toNat = some d ∧ s.domOn d = true) ∧ regAt off.toNat = none) →
    Completes (.lowWordRead off true) s fun t => t = s.emit (.bar0 0))
  ∧ (∀ (off : BitVec 24) (h : Hit) (s : State), s.pcieDecode = .serve → s.domOn dMGT = true → 0x20000 ≤ off.toNat →
    off.toNat < 0x40000 → off.toNat % 4 = 0 → regAt off.toNat = some h →
    Completes (.lowWordRead off true) s fun t =>
      t = s.emit (.bar0 (h.reg.fields.map fun f => s.rd (f.shift h.d) * 2 ^ f.lo h.reg.base).sum))
  ∧ (∀ s : State, s.pcieDecode = .serve → s.domOn dTIME = true → s.now < 2 ^ 64 →
    Completes (.lowWordRead 0x50010 true) s fun t => t.out = s.out ++ [.bar0 (s.now % 2 ^ 32)] ∧ t.regs = s.regs
      ∧ Bank.get t.shadow 0x50010 0 = s.now / 2 ^ 32
      ∧ ∀ k, k ≠ 0x50010 → Bank.get t.shadow k 0 = Bank.get s.shadow k 0)
  ∧ ∀ s : State, s.pcieDecode = .serve → s.domOn dTIME = true →
    Completes (.lowWordRead 0x50014 true) s fun t => t = s.emit (.bar0 (Bank.get s.shadow 0x50010 0))

/-- R41, R43 to R46: BAR2 reads and writes of on-chip memory and DRAM, what is denied, empty or beyond the capacity,
and the shapes that stop with a fault. -/
def Obligations.Bar2Access : Prop :=
  let dramAt (s : State) (off : Nat) : Nat :=
    s.rd (R.SYS_BAR2_PAGE_PAGE ((off - 0x20000000) / 0x4000000)) * 0x4000000 + off % 0x4000000
  (∀ (off : BitVec 30) (n : BitVec 7) (e : Ecc) (l : List Byte) (s : State),
    (n.toNat = 0 ∨ 64 < off.toNat % 64 + n.toNat ∨ n.toNat ∈ [2, 4, 8] ∧ off.toNat % n.toNat ≠ 0 →
      exec (.bar2Read off n e) s = .fault (.illFormed "BAR2_READ"))
    ∧ (l.length = 0 ∨ 64 < off.toNat % 64 + l.length ∨ l.length ∈ [2, 4, 8] ∧ off.toNat % l.length ≠ 0 → exec (.bar2Write off l) s = .fault (.illFormed "BAR2_WRITE")))
  ∧ (∀ (off : BitVec 30) (n : BitVec 7) (e : Ecc) (l : List Byte) (s : State), s.pcieDecode = .zero →
    (bar2Shape off.toNat n.toNat = true →
      Completes (.bar2Read off n e) s fun t => t = s.emit (.bar2 (List.replicate n.toNat 0)))
    ∧ (bar2Shape off.toNat l.length = true → Completes (.bar2Write off l) s fun t => t = s))
  ∧ (∀ (off : BitVec 30) (n : BitVec 7) (s : State), s.pcieDecode = .serve → bar2Shape off.toNat n.toNat = true →
    (off.toNat < 0x04000000 → s.domOn dMEM = true → (∀ i, i < n.toNat → s.sramOpen (off.toNat + i) = false) →
      Completes (.bar2Read off n ⟨0, []⟩) s fun t => t = s.emit (.bar2 (Mem.reads s.sram sramFill off.toNat n.toNat)))
    ∧ (off.toNat < 0x04000000 → s.domOn dMEM = true →
      Completes (.bar2Read off n ⟨0, []⟩) s fun t => t.regs = s.regs ∧ BytesKept s t
        ∧ ∃ l, t.out = s.out ++ [.bar2 l] ∧ l.length = n.toNat ∧ ∀ b ∈ l, b < 256)
    ∧ (0x05000000 ≤ off.toNat → off.toNat < 0x20000000 →
      Completes (.bar2Read off n ⟨0, []⟩) s fun t => t = s.emit (.bar2 (List.replicate n.toNat 0)))
    ∧ (0x20000000 ≤ off.toNat → (s.degraded = true ∨ s.capacity ≤ dramAt s off.toNat) →
      Completes (.bar2Read off n ⟨0, []⟩) s fun t => t.out = s.out ++ [.bar2 (List.replicate n.toNat 0)]
        ∧ t.on R.SYS_GSTAT_BAR2_RANGE = true ∧ RegsKept [R.SYS_GSTAT_BAR2_RANGE.key] s t)
    ∧ (0x20000000 ≤ off.toNat → s.degraded = false → dramAt s off.toNat + n.toNat ≤ s.capacity →
      (∀ i, i < n.toNat → s.dramOpen (dramAt s off.toNat + i) = false) →
      Completes (.bar2Read off n ⟨0, []⟩) s fun t =>
        t = s.emit (.bar2 (Mem.reads s.dram dramFill (dramAt s off.toNat) n.toNat))))
  ∧ ∀ (off : BitVec 30) (l : List Byte) (s : State), s.pcieDecode = .serve → bar2Shape off.toNat l.length = true →
    (off.toNat < 0x02000000 → s.domOn dMEM = true → s.portShows (Fin.ofNat 4 (off.toNat / 0x800000)) ≠ 0 →
      Completes (.bar2Write off l) s fun t => t.on R.SYS_GSTAT_BAR2_DENIED = true
        ∧ RegsKept [R.SYS_GSTAT_BAR2_DENIED.key] s t ∧ BytesKept s t)
    ∧ (0x02000000 ≤ off.toNat → off.toNat < 0x03000000 → s.domOn dMEM = true → s.rd R.ACQ_STAT_ARMED ≠ 0 →
      Completes (.bar2Write off l) s fun t => t.on R.SYS_GSTAT_BAR2_DENIED = true
        ∧ RegsKept [R.SYS_GSTAT_BAR2_DENIED.key] s t ∧ BytesKept s t)
    ∧ (0x04000000 ≤ off.toNat → off.toNat < 0x05000000 → off.toNat % 0x40000 < 0x28000 →
      s.domOn (dDSP (off.toNat / 0x200000 % 8)) = true → s.gkernel (off.toNat / 0x200000 % 8) = true →
      Completes (.bar2Write off l) s fun t => t.on R.SYS_GSTAT_BAR2_DENIED = true
        ∧ RegsKept [R.SYS_GSTAT_BAR2_DENIED.key] s t ∧ BytesKept s t)
    ∧ (off.toNat < 0x04000000 → s.domOn dMEM = true → s.bar2Denied off.toNat = false →
      Completes (.bar2Write off l) s fun t => t.regs = s.regs ∧ t.dram = s.dram ∧ t.flash = s.flash
        ∧ (∀ i : Fin l.length, Mem.read t.sram sramFill (off.toNat + i.val) = l[i])
        ∧ ∀ a, a < off.toNat ∨ off.toNat + l.length ≤ a → Mem.read t.sram sramFill a = Mem.read s.sram sramFill a)
    ∧ (0x05000000 ≤ off.toNat → off.toNat < 0x20000000 → Completes (.bar2Write off l) s fun t => t = s)
    ∧ (0x20000000 ≤ off.toNat → (s.degraded = true ∨ s.capacity ≤ dramAt s off.toNat) →
      Completes (.bar2Write off l) s fun t => t.on R.SYS_GSTAT_BAR2_RANGE = true
        ∧ RegsKept [R.SYS_GSTAT_BAR2_RANGE.key] s t ∧ BytesKept s t)
    ∧ (0x20000000 ≤ off.toNat → s.degraded = false → dramAt s off.toNat < s.capacity →
      Completes (.bar2Write off l) s fun t => t.regs = s.regs ∧ t.sram = s.sram ∧ t.flash = s.flash
        ∧ (∀ i : Fin l.length, Mem.read t.dram dramFill (dramAt s off.toNat + i.val) = l[i])
        ∧ ∀ a, a < dramAt s off.toNat ∨ dramAt s off.toNat + l.length ≤ a →
          Mem.read t.dram dramFill a = Mem.read s.dram dramFill a)

/-- R386, R390, R395, R399 to R402, R404, R405: what every command packet's row does with its packet: it is
dispatched, waits under FENCE, is refused with the first check that it fails, or is taken by its interface; and what
frees waiting packets. -/
def Obligations.CommandChecks : Prop :=
  (∀ (i : Instr) (op : Nat) (p : Packet) (s : State), packetRow i = some (op, p) →
    let q := { p with op := op }
    (Admitted s q → exec i s = .next (run q (Taken s q)))
    ∧ (s.reaches p.req = false → exec i s = .next s)
    ∧ (∀ k st, s.reaches p.req = true → p.words.length ≤ 1020 → (∀ w ∈ p.words, w < 2 ^ 32) →
      (∀ m a u, p.req = .eth m a u → s.keptReply q = none) → (p.req = .spi → s.hif.spi.length < 8) →
      s.packetCheck q = some (k, st) → (k = 9 → p.req ≠ .pcie) → exec i s = .next (s.answer q st (0xF000 + k)))
    ∧ (∀ (m : Fin 2) (a u : Nat) (r : Reply), p.req = .eth m a u → s.sys.phase = .up → p.words.length ≤ 1020 →
      (∀ w ∈ p.words, w < 2 ^ 32) → s.keptReply q = some r →
      exec i s = .next (s.udpSend m a u (Arith.bytesOfWords (replyHeader r ++ r.result))))
    ∧ (p.req = .spi → s.reaches .spi = true → 8 ≤ s.hif.spi.length →
      Completes i s fun t => t.cmd = s.cmd ∧ t.hif.spiOvf = true ∧ t.hif.spi = s.hif.spi)
    ∧ (s.reaches p.req = true → p.words.length ≤ 1020 → (∀ w ∈ p.words, w < 2 ^ 32) → s.packetCheck q = none →
      (∀ m a u, p.req = .eth m a u → s.keptReply q = none) → (p.req = .spi → s.hif.spi.length < 8) → p.urgent = false →
      ((∃ e ∈ s.cmd.waiting, e.2.req = p.req) ∨ p.fence = true ∧ s.settled p.req (s.cmd.arrivals + 1) = false) →
      Completes i s fun t => t.cmd = { s.cmd with
          arrivals := s.cmd.arrivals + 1, waiting := s.cmd.waiting ++ [(s.cmd.arrivals + 1, q)] }
        ∧ t.regs = s.regs ∧ t.out = s.out ∧ t.hif = s.hif))
  ∧ (∀ (q : Packet) (s : State),
    let busy : Prop := ∃ e ∈ s.cmd.open_ ++ s.cmd.waiting, e.2.req = q.req ∧ e.2.tag = q.tag
    let places := if q.urgent then 128 else 120
    let c3 : Prop := q.tag ≤ 127
    let c4 : Prop := c3 ∧ ¬ busy
    let c5 : Prop := c4 ∧ q.op ∈ opcodes
    let c6 : Prop := c5 ∧ q.rsv = 0 ∧ (q.urgent = true → q.op ∈ urgentOps)
    let c7 : Prop := c6 ∧ s.serves q.op = true
    let c8 : Prop := c7 ∧ (q.job = 0 ↔ q.op ∉ jobOps)
    (s.packetCheck q = some (3, E_TAG) ↔ ¬ c3) ∧ (s.packetCheck q = some (4, E_TAG) ↔ c3 ∧ ¬ c4)
      ∧ (s.packetCheck q = some (5, E_OPCODE) ↔ c4 ∧ ¬ c5) ∧ (s.packetCheck q = some (6, E_PARAM) ↔ c5 ∧ ¬ c6)
      ∧ (s.packetCheck q = some (7, E_STATE) ↔ c6 ∧ ¬ c7) ∧ (s.packetCheck q = some (8, E_PARAM) ↔ c7 ∧ ¬ c8)
      ∧ (s.packetCheck q = some (9, E_BUSY) ↔ c8 ∧ places ≤ s.cmd.open_.length + s.cmd.waiting.length)
      ∧ (s.packetCheck q = none ↔ c8 ∧ s.cmd.open_.length + s.cmd.waiting.length < places))
  ∧ (∀ (op : Nat) (s : State), (3 ≤ s.sys.mode → s.serves op = true)
    ∧ (s.sys.mode = 2 → (s.serves op = true ↔ op ∈ footOps)) ∧ (s.sys.mode < 2 → s.serves op = false))
  ∧ (∀ (n : Nat) (q : Packet) (s : State), s.cmd.waiting = [(n, q)] → s.ready (n, q) = true →
    Completes .fenceRelease s fun t => t = run q { s with
      cmd := { s.cmd with waiting := [], arr := n, open_ := s.cmd.open_ ++ [(n, q)] } })
  ∧ (∀ s : State, (∀ e ∈ s.cmd.waiting, s.ready e = false) → Completes .fenceRelease s fun t => t = s)
  ∧ ∀ (n : Nat) (q : Packet) (s : State), s.ready (n, q) = true ↔
    (∀ e ∈ s.cmd.waiting, e.2.req = q.req → n ≤ e.1)
      ∧ (q.fence = true → (∀ e ∈ s.cmd.open_, e.2.req = q.req → n ≤ e.1)
        ∧ ∀ j ∈ s.cmd.jobs, j.req = q.req → j.arr < n → jobSettled j = true)

/-- R386, R388, R390, R395, R397, R400, R407 to R410, R415: the fields of a packet and of a reply header, where a
reply goes and what it frees, the job that a command makes, its notification, and parameters that are refused. -/
def Obligations.RepliesAndJobs : Prop :=
  (∀ (q : Requester) (b : BusEnd) (w0 w1 w2 w3 rcap result : Nat) (l : List Nat), w0 < 2 ^ 32 → w1 < 2 ^ 32 →
    w2 < 2 ^ 32 → w3 < 2 ^ 32 → (∀ w ∈ l, w < 2 ^ 32) →
    packetOf q (Arith.bytesOfWords ([w0, w1, w2, w3] ++ l)) rcap result b = {
      req := q, op := w0 % 2 ^ 16, tag := w0 / 2 ^ 16 % 2 ^ 8, fence := w0.testBit 24, notify := w0.testBit 25,
      urgent := w0.testBit 26, seq := w1 / 2 ^ 16, job := w2, words := l, rcap := rcap, result := result,
      rsv := w0 / 2 ^ 27, bus := b })
  ∧ (∀ r : Reply, r.op < 2 ^ 16 → r.tag < 2 ^ 8 → r.kind < 2 ^ 8 → r.status < 2 ^ 16 → r.detail < 2 ^ 16 →
    replyHeader r = [r.kind * 2 ^ 24 + r.tag * 2 ^ 16 + r.op, r.detail * 2 ^ 16 + r.status, 4 * r.result.length, r.job,
      r.stamp % 2 ^ 32, r.stamp / 2 ^ 32])
  ∧ (∀ (p : Packet) (st d j : Nat) (res : List Nat) (s : State),
    let t := s.reply p st d j res
    let r : Reply := ⟨p.op, p.tag, 0, st, d, j, s.now, res⟩
    let c : Completion := ⟨r, p.rcap, p.result, true⟩
    t.cmd.jobs = s.cmd.jobs ∧ t.cmd.waiting = s.cmd.waiting ∧ BytesKept s t
      ∧ (p.req ≠ .pcie → ∀ e, e ∈ t.cmd.open_ ↔ e ∈ s.cmd.open_ ∧ ¬ (e.2.req = p.req ∧ e.2.tag = p.tag))
      ∧ (p.req = .pcie →
          ((∃ e ∈ s.cmd.open_, e.2.req = .pcie ∧ e.2.tag = p.tag ∧ e.1 ≤ s.hif.cutoff) →
            t.rd R.HIF_CQ_LOST_COUNT = min (s.rd R.HIF_CQ_LOST_COUNT + 1) (2 ^ 32 - 1) ∧ t.out = s.out ∧ t.hif = s.hif
              ∧ ∀ e, e ∈ t.cmd.open_ ↔ e ∈ s.cmd.open_ ∧ ¬ (e.2.req = p.req ∧ e.2.tag = p.tag))
          ∧ ((∀ e ∈ s.cmd.open_, e.2.req = .pcie → e.2.tag = p.tag → s.hif.cutoff < e.1) → t = s.sendCompletion c))
      ∧ (p.req = .spi → t.hif.spi = s.hif.spi ++ [r])
      ∧ (p.req = .console → t.out = s.out ++ [.console (replyHeader r ++ res)])
      ∧ ∀ m a u, p.req = .eth m a u → t.cmd.kept.head? = some (p.req, p.tag, p.seq, r)
        ∧ (s.ethUp m = true → t.out = s.out ++ [.datagram m a u (Arith.bytesOfWords (replyHeader r ++ res))])
        ∧ (s.ethUp m = false → t.out = s.out))
  ∧ (∀ (m : Fin 2) (a u : Nat) (p : Packet) (st d j : Nat) (res : List Nat) (s : State), p.req = .eth m a u →
    ((s.reply p st d j res).cmd.kept.filter fun e => e.1 == p.req).length ≤ 128)
  ∧ (∀ (p : Packet) (typ : Nat) (st : JobState) (s : State),
    let n := s.newJob p typ st
    ∃ j ∈ n.1.cmd.jobs, handle j = n.2 ∧ j.typ = typ ∧ j.state = st ∧ j.op = p.op ∧ j.req = p.req ∧ j.notify = p.notify
      ∧ j.made = s.now ∧ j.rcap = p.rcap ∧ j.addr = p.result ∧ n.2 = typ * 2 ^ 28 + (s.cmd.serial + 1) % 2 ^ 23 * 32 + s.freeEntry
      ∧ n.1.cmd.serial = s.cmd.serial + 1 ∧ (∀ k ∈ s.cmd.jobs, k.entry ≠ s.freeEntry → k ∈ n.1.cmd.jobs))
  ∧ (∀ s : State, (∃ e, e < 32 ∧ ∀ k ∈ s.cmd.jobs, k.entry ≠ e) →
    s.freeEntry < 32 ∧ (∀ k ∈ s.cmd.jobs, k.entry ≠ s.freeEntry)
      ∧ ∀ e, e < s.freeEntry → ∃ k ∈ s.cmd.jobs, k.entry = e)
  ∧ (∀ (p : Packet) (typ : Nat) (st : JobState) (f : State → Nat → State) (s : State),
    (s.jobRoom = false → s.makeJob p typ st f = s.reply p E_BUSY 0)
    ∧ (s.jobRoom = true → ∃ u h, JobMade s p typ st h u ∧ s.makeJob p typ st f = f u h)
    ∧ (s.jobRoom = true ↔ (s.cmd.jobs.filter live).length < 16 ∧ ∀ c, s.mgt.change = some c → 3 ≤ c.target))
  ∧ (∀ (h : Nat) (j : Job) (st : JobState) (status detail : Nat) (res : List Nat) (s : State), s.job? h = some j →
    live j = true → st = .done ∨ st = .cancelled ∨ st = .failed →
    let t := s.endJob h st status detail res
    (∃ k, t.job? h = some k ∧ k.state = st ∧ k.status = status ∧ k.detail = detail ∧ k.result = res ∧ k.ended = s.now)
      ∧ (j.notify = false → t.out = s.out ∧ t.hif = s.hif ∧ t.regs = s.regs)
      ∧ (j.notify = true → ∃ u : State, u.hif = s.hif ∧ u.regs = s.regs
        ∧ t = u.deliver j.req ⟨j.op, 0xFE, 1, status, detail, h, s.now, if st = .done then res else []⟩
          j.rcap j.addr none))
  ∧ ∀ (p : Packet) (masks : List Nat) (f : State → State) (s : State),
    (p.words.length ≠ masks.length → s.params p masks f = s.reply p E_PARAM 0)
    ∧ (p.words.length = masks.length → (∀ x ∈ p.words.zip masks, x.1 ||| x.2 = x.2) → s.params p masks f = f s)
    ∧ ∀ i w m, p.words.length = masks.length → p.words[i]? = some w → masks[i]? = some m → w ||| m ≠ m →
      (∀ k x y, k < i → p.words[k]? = some x → masks[k]? = some y → x ||| y = y) →
      s.params p masks f = s.reply p E_PARAM i

/-- R400, R415, R416, R452: the system opcodes and ECHO: their replies, the registers and bytes that they read and
write, and the device reset of RESET. -/
def Obligations.SystemOpcodes : Prop :=
  (∀ (p : Packet) (s : State), p.words = [] → Served .nop 0x100 p s fun q d t => t = d.reply q OK 0)
  ∧ (∀ (p : Packet) (s : State), Served .echo 0x900 p s fun q d t => t = d.reply q OK 0 0 p.words)
  ∧ (∀ (p : Packet) (s : State), p.words = [] → s.sys.phase ≠ .footRom → s.domOn dMGT = true →
    Served .identify 0x101 p s fun q d t => t = d.reply q OK 0 0
      [s.rd R.SYS_ID_DEVICE * 2 ^ 16 + s.rd R.SYS_ID_REV_MAJOR * 2 ^ 8 + s.rd R.SYS_ID_REV_MINOR, 0x00030000,
        Config.dieNumber.toNat % 2 ^ 32, Config.dieNumber.toNat / 2 ^ 32, s.rd R.MGT_STAT_IMAGE])
  ∧ (∀ (p : Packet) (s : State), p.words = [] → s.sys.phase ≠ .footRom →
    Served .status 0x102 p s fun q d t => ∃ w, t = d.reply q OK 0 0
      [w, s.pstate 0 + s.pstate 1 * 2 ^ 4 + s.pstate 2 * 2 ^ 8 + s.pstate 3 * 2 ^ 12,
        (s.cmd.jobs.filter live).length + (s.cmd.open_.length + s.cmd.waiting.length + 1) * 2 ^ 8,
        s.granted + s.rd R.PWR_BUDGET_BUDGET * 2 ^ 16, s.rd R.TBU_STAT_TQ, s.sys.mode]
      ∧ w = (d.bar0Read 4 true).1 ∧ (s.footing = true → w = 0))
  ∧ (∀ (p : Packet) (off n : Nat) (s : State), p.words = [off, n] → off % 4 = 0 → 1 ≤ n → n ≤ 256 →
    off + 4 * n ≤ 0x1000000 → Served .regRead 0x103 p s fun q d t =>
      t = (readWords n d off []).2.reply q OK 0 0 (readWords n d off []).1 ∧ (readWords n d off []).1.length = n
      ∧ (n = 1 → readWords n d off [] = ([(d.bar0Read off true).1], (d.bar0Read off true).2)))
  ∧ (∀ (p : Packet) (off : Nat) (l : List Nat) (s : State), p.words = off :: l.length :: l → off % 4 = 0 → l ≠ [] →
    l.length ≤ 1018 → off + 4 * l.length ≤ 0x1000000 → Served .regWrite 0x104 p s fun q d t =>
      t = ((l.zip (List.range l.length)).foldl (fun (s : State) e => s.bar0Write (off + 4 * e.2) true e.1) d).reply q OK 0
      ∧ ∀ w, l = [w] → t = (d.bar0Write off true w).reply q OK 0)
  ∧ (∀ (p : Packet) (a n : Nat) (s : State), a < 2 ^ 63 → a % 4 = 0 → n % 4 = 0 → 4 ≤ n → n ≤ 65536 →
    (p.words = [a % 2 ^ 32, a / 2 ^ 32, n] → s.footing = false → a + n ≤ 0x04000000 → s.domOn dMEM = true →
      (∀ i, i < n → s.sramOpen (a + i) = false) → Served .memRead 0x105 p s fun q d t =>
        t = d.reply q OK 0 0 (Arith.wordsOfBytes (Mem.reads s.sram sramFill a n)))
    ∧ (p.words = [a % 2 ^ 32, a / 2 ^ 32 + 2 ^ 31, n] → s.footing = false → s.degraded = false → a + n ≤ s.capacity →
      (∀ i, i < n → s.dramOpen (a + i) = false) → Served .memRead 0x105 p s fun q d t =>
        t = d.reply q OK 0 0 (Arith.wordsOfBytes (Mem.reads s.dram dramFill a n)))
    ∧ (p.words = [a % 2 ^ 32, a / 2 ^ 32 + 2 ^ 31, n] → s.footing = false → s.degraded = true →
      Served .memRead 0x105 p s fun q d t => ∃ u : State, t = u.reply q OK 0 0 (List.replicate (n / 4) 0)
        ∧ u.on R.SYS_GSTAT_BAR2_RANGE = true ∧ u.cmd = d.cmd)
    ∧ (p.words = [a % 2 ^ 32, a / 2 ^ 32 + 2 ^ 31, n] → s.footing = true → Served .memRead 0x105 p s fun q d t =>
        t = d.reply q OK 0 0 (Arith.wordsOfBytes (Mem.reads s.flash flashFill a n))))
  ∧ (∀ (p : Packet) (a : Nat) (l : List Nat) (s : State), a < 2 ^ 63 → a % 4 = 0 → l ≠ [] → l.length ≤ 1017 →
    p.words = [a % 2 ^ 32, a / 2 ^ 32 + 2 ^ 31] ++ l → s.degraded = false → a + 4 * l.length ≤ s.capacity →
    Served .memWrite 0x106 p s fun q d t => ∃ u : State, t = u.reply q OK 0 ∧ u.cmd = d.cmd ∧ u.regs = s.regs
      ∧ Arith.wordsOfBytes (Mem.reads u.dram dramFill a (4 * l.length)) = l ∧ u.sram = s.sram ∧ u.flash = s.flash
      ∧ ∀ b, b < a ∨ a + 4 * l.length ≤ b → Mem.read u.dram dramFill b = Mem.read s.dram dramFill b)
  ∧ (∀ (p : Packet) (a w : Nat) (s : State), a % 4 = 0 → a < 0x04000000 → p.words = [a, 0, w] → s.domOn dMEM = true →
    Served .memWrite 0x106 p s fun q d t => if s.bar2Denied a then t = d.reply q E_STATE 0
      else ∃ u : State, t = u.reply q OK 0 ∧ u.cmd = d.cmd ∧ u.regs = s.regs
        ∧ Arith.wordsOfBytes (Mem.reads u.sram sramFill a 4) = [w])
  ∧ (∀ (p : Packet) (f : Bool) (s : State), p.words = [if f then 1 else 0, 0xA55A] →
    Served .reset 0x107 p s fun q d t => t = (d.reply q OK 0).resetCmd f ∧ t.sys.phase = .held ∧ t.sys.domains = 1
      ∧ t.sys.ret = if f then { s.sys.ret with footReq := true, reason := rFootCmd }
          else { s.sys.ret with fails := 0, reason := rResetCmd })
  ∧ ∀ (p : Packet) (w k : Nat) (s : State), p.words = [w, k] → w < 2 → k ≠ 0xA55A →
    Served .reset 0x107 p s fun q d t => t = d.reply q E_PARAM 1

/-- R56, R57, R76, R79, R80, R96, R102, R109, R169, R179, R204, R208, R284, R415, R417: the configuration opcodes:
what each writes or begins, and its reply. -/
def Obligations.ConfigurationOpcodes : Prop :=
  (∀ (p : Packet) (w : Nat) (s : State), p.words = [w] → w ||| 0xF13 = 0xF13 →
    s.portOn (parPort p 0) = true → Served .patternCheck 0x200 p s fun q d t =>
      let n := parPort p 0
      match s.patCheck n (w.testBit 4) (s.rd (R.ROUTE_RTT n (w / 256))) with
      | none => ∃ u : State, t = u.reply q OK 0 0 [0] ∧ u.rd (R.PPE_CHECK_STATUS n) = 0 ∧ u.rd (R.PPE_CHECK_CHECK n) = 0
          ∧ u.cmd = d.cmd
      | some c => ∃ u : State, t = u.reply q c.2.2 (checkDetail c) 0 [c.2.2 * 2 ^ 16 + checkDetail c] ∧ u.cmd = d.cmd
          ∧ u.rd (R.PPE_CHECK_STATUS n) = c.2.2 % 2 ^ 16 ∧ u.rd (R.PPE_CHECK_CHECK n) = c.1 % 16)
  ∧ (∀ (p : Packet) (w : Nat) (s : State), p.words = [w] → w ||| 0xF03 = 0xF03 → Served .routeSelect 0x201 p s fun q d t =>
      let n := parPort p 0
      (s.routeRefusal n (w / 256) ≠ OK → ∃ u : State, t = u.reply q (s.routeRefusal n (w / 256)) 0 ∧ u.ports = s.ports
        ∧ u.cmd = d.cmd ∧ (s.domOn dCORE = true → u.on (R.PPE_EVENT_ROUTE_REJECT n) = true))
      ∧ (s.routeRefusal n (w / 256) = OK → s.jobRoom = false → t = d.reply q E_BUSY 0)
      ∧ (s.routeRefusal n (w / 256) = OK → s.jobRoom = true → ∃ u h, JobMade d q 3 .running h u
        ∧ t = u.routeTake n (w / 256) h ∧ t.rd (R.RMD_ROUTE_SEL_SEL n) = w / 256 % 16
        ∧ (s.portOn n = true → t.on (R.RMD_ROUTE_STAT_BUSY n) = true ∧ (t.ports[n]).routeNew = w / 256)
        ∧ (s.portOn n = true → s.pstate n ≠ stIdle → t.pstate n = stRouting ∧ (t.ports[n]).routeJob = h)))
  ∧ (∀ (p : Packet) (k : Nat) (s : State), p.words = [k] → k < 2 → Served .slotCommit 0x202 p s fun q d t =>
      (s.csyServes k = true → ∃ u : State, t = u.reply q E_STATE 0 ∧ u.on R.SYN_EVENT_SLOT_REJECT = true ∧ u.syn = s.syn)
      ∧ (s.csyServes k = false → s.csyCheck k = false → ∃ u : State,
        t = u.reply q E_PARAM ((s.csyFirstBad k).1 + 16 * (s.csyFirstBad k).2) ∧ u.on R.SYN_EVENT_SLOT_ERR = true
          ∧ u.syn = s.syn)
      ∧ (s.csyServes k = false → s.csyCheck k = true → ∃ u : State, t = u.reply q OK 0 ∧ u.regs = s.regs
        ∧ u = (d.csyCommit k).1 ∧ u.cmd = d.cmd))
  ∧ (∀ (p : Packet) (s : State), p.words = [] →
      Served .zoneCommit 0x203 p s (fun q d t => if s.zon.busy = 0 then
          t.zon = { s.zon with waiter := some q, busy := 1 } ∧ t.on R.ZON_STAT_BUSY = true ∧ t.cmd = d.cmd ∧ t.out = s.out
        else ∃ u : State, t = u.reply q E_ZONE_BUSY 0 ∧ u.zon = s.zon ∧ u.on R.ZON_EVENT_WRITE_REJECT = true)
      ∧ Served .zoneDiscard 0x204 p s fun q d t => if s.zon.busy = 0 then
          t.zon = { s.zon with waiter := some q, busy := 2 } ∧ t.on R.ZON_STAT_BUSY = true ∧ t.cmd = d.cmd ∧ t.out = s.out
        else ∃ u : State, t = u.reply q E_ZONE_BUSY 0 ∧ u.zon = s.zon ∧ u.on R.ZON_EVENT_WRITE_REJECT = true)
  ∧ (∀ (p : Packet) (n : Fin 4) (v : Nat) (s : State), p.words = [n.val, v] → v < 2 ^ 24 →
      Served .groupIndex 0x205 p s fun q d t => if s.pstate n = stIdle ∧ s.zon.busy = 0 then
          t.zon = { s.zon with waiter := some q, ng := some (n.val, v), busy := 3 } ∧ t.cmd = d.cmd
            ∧ t.on R.ZON_STAT_BUSY = true
        else ∃ u : State, t = u.reply q E_STATE 0 ∧ u.zon = s.zon ∧ u.on R.ZON_EVENT_WRITE_REJECT = true)
  ∧ (∀ (p : Packet) (n : Fin 4) (k c0 c1 o : Nat) (l : List Nat) (s : State), k < 16 → l.length = 288 → s.domOn dCORE = true →
      p.words = [n.val + 256 * k, c0, c1, o] ++ l → c0 ||| rwMask (offOf (R.FDC_PROF_CFG0_EN n k)) =
        rwMask (offOf (R.FDC_PROF_CFG0_EN n k)) → c1 ||| rwMask (offOf (R.FDC_PROF_CFG1_G1 n k)) =
        rwMask (offOf (R.FDC_PROF_CFG1_G1 n k)) → Served .filterProfile 0x206 p s fun q _ t =>
      if s.busyPort n then ∃ u : State, t = u.reply q E_FILTER_RUNNING 0 ∧ u.on (R.FDC_EVENT_CFG_REJECT n) = true
      else ∃ (u : State) (st e : Nat), t = u.reply q st e
        ∧ (st = OK ∧ e = 0 ∨ st = W_CLAMPED ∧ 1 ≤ e ∧ e ≤ 3)
        ∧ (∀ i, i < 32 → l[i]? = some (u.rd (R.FDC_C2_C_EVEN n k i) + u.rd (R.FDC_C2_C_ODD n k i) * 2 ^ 16))
        ∧ ∀ i, i < 256 → l[32 + i]? = some (u.rd (R.FDC_RS_H_EVEN n k i) + u.rd (R.FDC_RS_H_ODD n k i) * 2 ^ 16))
  ∧ (∀ (p : Packet) (k w : Nat) (s : State), k < 16 → w < 512 → p.words = [k, w + 2 ^ 16] → s.domOn dCORE = true →
      Served .detectorProfile 0x207 p s fun q _ t => if ∃ n : Fin 4, s.busyPort n = true then
          ∃ u : State, t = u.reply q E_FILTER_RUNNING 0 ∧ u.on R.EVE_EVENT_CFG_REJECT = true
            ∧ u.rd (R.EVE_DCFG_W k) = s.rd (R.EVE_DCFG_W k)
        else ∃ u : State, u.rd (R.EVE_DCFG_W k) = max 1 (min 256 w)
          ∧ t = if 1 ≤ w ∧ w ≤ 256 then u.reply q OK 0 else u.reply q W_CLAMPED 1)
  ∧ (∀ (p : Packet) (i h l wh wl on off : Nat) (e : Bool) (s : State), i < 256 → s.domOn dCORE = true → h < 2 ^ 24 →
      l < 2 ^ 24 → wh < 2 ^ 24 → wl < 2 ^ 24 → 1 ≤ on → on < 2 ^ 16 → 1 ≤ off → off < 2 ^ 16 →
      p.words = [i, 1 + (if e then 2 ^ 31 else 0), h, l, wh, wl, on + off * 2 ^ 16, 0] →
      Served .thresholdSet 0x208 p s fun q _ t => ∃ u : State, t = u.reply q OK 0 ∧ u.rd (R.EVE_TSET_HIGH i) = h
        ∧ u.rd (R.EVE_TSET_LOW i) = l ∧ u.rd (R.EVE_TSET_W_HIGH i) = wh ∧ u.rd (R.EVE_TSET_W_LOW i) = wl
        ∧ u.rd (R.EVE_TSET_ON_HOLD i) = on ∧ u.rd (R.EVE_TSET_OFF_HOLD i) = off ∧ u.on (R.EVE_TSET_EN i) = e)
  ∧ (∀ (p : Packet) (n : Fin 4) (c w : Nat) (s : State), c < 2 ^ 16 → w < 2 ^ 15 → p.words = [n.val, c + w * 2 ^ 16] →
      Served .biasSet 0x209 p s fun q _ t => ∃ u : State, u.rd (R.LDR_BIAS_CODE n) = c
        ∧ u.rd (R.LDR_BIAS_SLEW n) = max 1 w ∧ (u.ports[n]).biasOut = (s.ports[n]).biasOut
        ∧ t = if 1 ≤ s.pstate n ∧ s.pstate n ≤ 5 then u.reply q W_DEFERRED 0
          else if w = 0 then u.reply q W_CLAMPED 1 else u.reply q OK 0)
  ∧ (∀ (p : Packet) (x a b : Nat) (s : State), p.words = [x, a, b] → x ||| 0x113 = 0x113 →
      Served .timeSet 0x20A p s fun q d t =>
        (x % 4 = 0 → t = d.reply q E_PARAM 0)
        ∧ (x % 4 = 1 ∨ x % 4 = 2 → s.on R.TBU_STAT_ACT_ARMED = true → t = d.reply q E_BUSY 0)
        ∧ (x % 4 = 1 ∨ x % 4 = 2 → s.on R.TBU_STAT_ACT_ARMED = false → x.testBit 4 = true → ∃ u : State,
          t = u.reply q W_DEFERRED 0 ∧ u.on R.TBU_STAT_ACT_ARMED = true
            ∧ u.tbu = { s.tbu with armed := some (x % 4 == 1, a + b * 2 ^ 32) })
        ∧ (x % 4 = 1 ∨ x % 4 = 2 → s.on R.TBU_STAT_ACT_ARMED = false → x.testBit 4 = false → ∃ u v : State,
          let e := actionDelta (x % 4 == 1) (a + b * 2 ^ 32) s.tickCount
          u = v.applyDelta e (x % 4 == 1) ∧ v.tbu = s.tbu
            ∧ t = if s.stepRejected e then u.reply q E_STATE 0 else u.reply q OK 0)
        ∧ (x % 4 = 3 → s.on R.SYN_STAT_HOLDOVER = true → ∃ u : State, t = u.reply q E_STATE 0
          ∧ u.on R.TBU_EVENT_ADJ_REJECT = true)
        ∧ (x % 4 = 3 → s.on R.SYN_STAT_HOLDOVER = false → s.on R.SYN_STAT_SLEWING = false →
          let v := s.rdS R.SYN_SLEW_REM_REM + Arith.toSigned 32 a
          v.natAbs ≤ s.rd R.SYN_CTRL_SLEW_LIMIT * 3200000 → v.natAbs < 2 ^ 31 → ∃ u : State, t = u.reply q OK 0
            ∧ u.rdS R.SYN_SLEW_REM_REM = v ∧ u.on R.SYN_STAT_SLEWING = (v != 0)))
  ∧ (∀ (p : Packet) (w : Nat) (r : List Nat) (s : State), w ||| 0xFFFFF7 = 0xFFFFF7 → p.words = w :: r →
      (w.testBit 1 = true → r.length = 9 ∧ w / 2 ^ 16 ≤ 128) →
      (w.testBit 1 = false → w / 2 ^ 16 ≤ 32 ∧ ∃ u a g, r = [u, a, 0, 0, 0, g, 0, 0, 0]) →
      (∀ x ∈ r, x < 2 ^ 32) → Served .netConfig 0x20B p s fun q d t =>
        t.hif.net = (d.reply q OK 0).hif.net.set (w % 2) p.words (Nat.mod_lt _ (by decide))
          ∧ t.cmd = (d.reply q OK 0).cmd ∧ t.out = (d.reply q OK 0).out ∧ t.regs = (d.reply q OK 0).regs)
  ∧ (∀ (p : Packet) (w a b c e : Nat) (s : State), w ||| 0x7F0F = 0x7F0F → p.words = [w, a, b, c, e] →
      Served .ptpConfig 0x20C p s fun q d t =>
        if s.on (R.HIF_ETH_CFG_EN (w / 2 % 2)) then ∃ u : State, t = u.reply q OK 0
            ∧ u.hif = { s.hif with ptp := p.words, ptpState := w % 2, ptpMaster := false }
        else t = d.reply q E_STATE 0)
  ∧ (∀ (p : Packet) (s : State), p.words = [] → Served .ptpStatus 0x20D p s fun q d t => t = d.reply q OK 0 0
      [s.hif.ptpState, Arith.ofSigned 32 s.hif.ptpOffset, s.hif.ptpDelay, s.hif.ptpGm % 2 ^ 32, s.hif.ptpGm / 2 ^ 32])
  ∧ ∀ (p : Packet) (g : Fin 8) (m a b : Nat) (dr : Bool) (s : State), m < 256 → a < 2 ^ 32 →
      p.words = [g.val + 256 * m, if dr then 1 else 0, a, b] → a % 32 = 0 → Served .kernelLoad 0x210 p s fun q d t =>
        (∀ st k, s.loadCheck g m dr (a + b * 2 ^ 32) = (st, k, none) → t = d.reply q st (k * 4096))
        ∧ ∀ x y i, s.loadCheck g m dr (a + b * 2 ^ 32) = (x, y, some i) → t.gstate g = gLoading
          ∧ (t.vdc.groups[g]).load = some q ∧ t.cmd = d.cmd
          ∧ ∀ c : Fin 64, c.val / 8 = g.val → m.testBit (c.val % 8) = true → (t.vdc.cores[c]).entry = i.entry
            ∧ (t.vdc.cores[c]).fault = 0

/-- R119, R120, R231, R233, R295, R297, R388, R407, R418: the opcodes that start and stop a port, start a temperature
job and command the capture channels: what each begins, with its job, or how it is refused. -/
def Obligations.PortAndCaptureOpcodes : Prop :=
  (∀ (p : Packet) (w tmo : Nat) (s : State), p.words = [w, tmo] → w ||| 0x103 = 0x103 → tmo < 2 ^ 16 →
    let n := parPort p 0
    let watch := w.testBit 8 || s.sys.mode == 3
    s.portOn n = true → s.bit R.SYN_CTRL_EN (3 + csyOf n) = true → Served .portStart 0x300 p s fun q d t =>
      (s.pstate n ≠ stIdle → s.pstate n ≠ stHalted → t = d.reply q E_STATE 0)
      ∧ (s.pstate n = stIdle ∨ s.pstate n = stHalted →
        (s.faults n ≠ 0 → t = d.reply q E_INTERLOCK 0)
        ∧ (∀ c e, s.faults n = 0 → s.released n = true → s.startChecks n false = some (c, e) → ∃ u : State,
          t = u.reply q c e ∧ u.cmd.open_ = d.cmd.open_ ∧ u.pstate n = stIdle ∧ (s.pstate n = stIdle → u = d))
        ∧ (s.faults n = 0 → (s.released n = false ∨ s.startChecks n false = none) → s.jobRoom = false →
          t = d.reply q E_BUSY 0)
        ∧ (s.faults n = 0 → (s.released n = false ∨ s.startChecks n false = none) → s.jobRoom = true → ∃ u h, JobMade d q 1 .queued h u
          ∧ t = u.startBegin n watch tmo h none ∧ t.pstate n = stStarting ∧ (t.ports[n]).startWatch = watch
          ∧ (t.ports[n]).startJob = h ∧ (t.ports[n]).startTmo = tmo ∧ (t.ports[n]).former = s.pstate n
          ∧ (t.ports[n]).startStage = if s.released n then 3 else 1)))
  ∧ (∀ (n : Fin 4) (s : State), (s.startChecks n false = some (E_INTERLOCK, 0) ↔ s.loopClosed = false)
    ∧ (s.startChecks n false = some (E_LOCK, 0) ↔ s.loopClosed = true
      ∧ ¬ (s.bit R.SYN_STAT_LOCK 0 = true ∧ s.bit R.SYN_STAT_LOCK (3 + csyOf n) = true))
    ∧ (s.startChecks n false = some (E_ROUTE, 0) → s.on (R.ROUTE_VALID n (s.comingRoute n)) = false
      ∨ s.on R.RMD_SCAN_CTRL_EN = false)
    ∧ (s.startChecks n true = none → s.loopClosed = true))
  ∧ (∀ (n : Fin 4) (s : State), let t := s.startGo n
    t.pstate n = (if (s.ports[n]).startWatch then stWatch else stRun) ∧ (t.ports[n]).startStage = 0
      ∧ t.rd (R.PPE_LAUNCHES_COUNT n) = 0 ∧ t.rd (R.PPE_SKIPS_COUNT n) = 0)
  ∧ (∀ (p : Packet) (w : Nat) (s : State), p.words = [w] → w < 4 → Served .portStop 0x301 p s fun q d t =>
    let n := parPort p 0
    (s.pstate n = stIdle → t = d.reply q E_STATE 0)
    ∧ (s.pstate n = stStarting → (s.ports[n]).former ≤ 6 → t = (d.startCancel n).reply q OK 0
      ∧ t.pstate n = (s.ports[n]).former ∧ (t.ports[n]).startStage = 0)
    ∧ (s.pstate n ≠ stIdle → s.pstate n ≠ stStarting → s.jobRoom = false → t = d.reply q E_BUSY 0)
    ∧ (s.pstate n ≠ stIdle → s.pstate n ≠ stStarting → s.jobRoom = true →
      ∃ u h, JobMade d q 2 .running h u ∧ t = u.portStop n h
        ∧ (s.pstate n = stRun ∨ s.pstate n = stWatch → t.pstate n = stDraining ∧ h ∈ (t.ports[n]).stopJobs)
        ∧ (s.pstate n = stHalted → t.pstate n = stIdle ∧ (t.ports[n]).stopJobs = [])))
  ∧ (∀ (p : Packet) (w depth tmo : Nat) (s : State), p.words = [w, depth, tmo] → w ||| 0x33 = 0x33 → depth < 2 ^ 32 →
    tmo < 2 ^ 16 → Served .dtsStart 0x302 p s fun q d t =>
      let n := parPort p 0
      let cont := w.testBit 5
      (∀ k st, s.dtsCheck n depth = some (k, st) → t = d.reply q st (k * 4096))
      ∧ (s.dtsCheck n depth = none → s.jobRoom = false → t = d.reply q E_BUSY 0)
      ∧ (s.dtsCheck n depth = none → s.jobRoom = true → ∃ u h, JobMade d q 4 .queued h u
        ∧ (t.rrx[n]).job = h ∧ (t.rrx[n]).depth = depth ∧ (t.rrx[n]).sums = w.testBit 4 ∧ (t.rrx[n]).cont = cont
        ∧ (t.rrx[n]).long = s.dtsLong n depth cont
        ∧ (s.dtsLong n depth cont = false → (t.rrx[n]).state = rjRunning)
        ∧ (s.dtsLong n depth cont = true → s.holdsHods (.dts n) = false → tmo = 0 → s.hodQueue ≠ [] →
          (t.rrx[n]).state = rjFailed
            ∧ (q.notify = false → (∀ k ∈ s.cmd.jobs, k.entry < 32) → JobEnds t h .failed E_POWER (6 * 4096)))
        ∧ (s.dtsLong n depth cont = true → s.holdsHods (.dts n) = false → tmo ≠ 0 → s.hodQueue ≠ [] →
          (t.rrx[n]).state = rjQueued ∧ ∃ r ∈ t.hodQueue, r.user = .dts n ∧ r.hods = 2 ∧ r.tmo = tmo ∧ r.job = h)))
  ∧ (∀ (p : Packet) (w : Nat) (s : State), p.words = [w] → w < 4 → Served .acqArm 0x303 p s fun q d t =>
    let k := parPort p 0
    (s.ary.chans.testBit k = true → s.aryMaster = false → t = d.reply q E_STATE 0)
    ∧ (s.ary.chans.testBit k = false → ∀ st c, s.armCheck k = (st, c) → c ≠ 0 →
      ∃ u : State, t = u.reply q st (c * 4096) ∧ u.rd (R.ACQ_CH_CHECK_CHECK k) = c
        ∧ u.rd (R.ACQ_CH_CHECK_STATUS k) = st ∧ u.acq = s.acq)
    ∧ (s.ary.chans.testBit k = false → s.armCheck k = (OK, 0) → s.jobRoom = false → t = d.reply q E_BUSY 0)
    ∧ (s.ary.chans.testBit k = false → s.armCheck k = (OK, 0) → s.jobRoom = true → ∃ u h, JobMade d q 5 .running h u
      ∧ t = (u.arm k h).1 ∧ t.rd (R.ACQ_CH_STAT_JOB k) = 1 ∧ t.bit R.ACQ_STAT_ARMED k = true
      ∧ t.rd (R.ACQ_CH_JOB_VALUE k) = h % 2 ^ 32))
  ∧ (∀ (p : Packet) (w : Nat) (s : State), p.words = [w] → w < 4 → Served .acqStop 0x304 p s fun q d t =>
    t = if s.chLive (parPort p 0) then (d.chDisarm (parPort p 0)).reply q OK 0 else d.reply q E_STATE 0)
  ∧ ∀ (p : Packet) (m : Nat) (s : State), p.words = [m] → m < 2 ^ 16 → Served .acqTrigger 0x305 p s fun q d t =>
    ∃ u : State, t = u.reply q OK 0
      ∧ u = d.presentNow ((d.inputsOf 6 none m.testBit).map fun i => (i, s.now, 0))

/-- R113, R117, R118, R259, R283, R285, R286, R418, R419, R436, R447 to R449: the opcodes of the interlock, of the DSP
groups and of calibration. -/
def Obligations.InterlockGroupAndCalibrationOpcodes : Prop :=
  (∀ (p : Packet) (b : Bool) (s : State), p.words = [if b then 1 else 0] → Served .ilkStop 0x306 p s fun q d t =>
    ∃ u : State, t = u.reply q OK 0 0 [(u.bar0Read (offOf R.RMD_ILK_STAT_LOOP) true).1]
      ∧ u = ((if s.on R.RMD_ILK_CTRL_SW_STOP = b then d else d.swStop b) : State).showIlk
      ∧ u.on R.RMD_ILK_CTRL_SW_STOP = b
      ∧ (b = true → s.on R.RMD_ILK_CTRL_SW_STOP = false → u.rd R.RMD_ILK_STAT_LOOP = 0))
  ∧ (∀ (p : Packet) (s : State), p.words = [] → Served .ilkClear 0x307 p s fun q d t =>
    ((s.on R.RMD_SCAN_CTRL_EN = false ∨ s.rmd.removed = 0 ∧ ∀ n, n < 4 → s.faults n &&& fRoute = 0) →
      s.rmd.clearWait = [] → ∃ u : State, t = u.reply q OK 0 0 [u.faultWord]
      ∧ t.rmd.clearWait = []
      ∧ ∀ n, n < 4 → u.faults n &&& (fGateOpen + fGateShort + fFibre) = 0 ∧ (s.loopClosed = true → u.faults n &&& fLoop = 0))
    ∧ (s.on R.RMD_SCAN_CTRL_EN = true → (s.rmd.removed ≠ 0 ∨ ∃ n : Fin 4, s.faults n &&& fRoute ≠ 0) →
      t.rmd.clearWait = s.rmd.clearWait ++ [q]
      ∧ t.rmd.clearAsked = true ∧ t.cmd = d.cmd
      ∧ ∀ n, n < 4 → t.faults n &&& (fGateOpen + fGateShort + fFibre) = 0))
  ∧ (∀ (p : Packet) (g : Fin 8) (tmo : Nat) (s : State), p.words = [g.val, tmo] → tmo < 2 ^ 16 →
    Served .groupWake 0x310 p s fun q d t =>
      let busy := s.hasJob 6 fun j => j.words.headD 0 == g.val
      (s.gstate g ≠ gOff → t = d.reply q E_STATE 0)
      ∧ (s.gstate g = gOff → busy = true ∨ s.jobRoom = false → t = d.reply q E_BUSY 0)
      ∧ (s.gstate g = gOff → busy = false → s.jobRoom = true → ∃ u h, JobMade d q 6 .queued h u
        ∧ (s.holdsHods (.group g) = true → t = u.groupWaking g h ∧ t.gstate g = gWaking ∧ (t.vdc.groups[g]).wakeJob = h)
        ∧ (s.holdsHods (.group g) = false → s.hodQueue ≠ [] → tmo = 0 → t = u.jobFailed h E_POWER)
        ∧ (s.holdsHods (.group g) = false → s.hodQueue ≠ [] → tmo ≠ 0 → t.gstate g = gOff
          ∧ ∃ r ∈ t.hodQueue, r.user = .group g ∧ r.hods = 5 ∧ r.tmo = tmo ∧ r.job = h)))
  ∧ (∀ (p : Packet) (g : Fin 8) (s : State), p.words = [g.val] → Served .groupSleep 0x311 p s fun q d t =>
    if s.gstate g = gIdle then t = (d.groupSleep g).reply q OK 0 ∧ t.gstate g = gOff ∧ t.domOn (dDSP g) = false
      ∧ t.holdsHods (.group g) = false
    else t = d.reply q E_STATE 0)
  ∧ (∀ (p : Packet) (g : Fin 8) (m : Nat) (s : State), p.words = [g.val + 256 * m] → m < 256 →
    Served .kernelRun 0x312 p s fun q d t =>
      (∀ st e, s.runCheck g m = (st, e) → st ≠ OK → t = d.reply q st e)
      ∧ ((s.runCheck g m).1 = OK → s.jobRoom = false → t = d.reply q E_BUSY 0)
      ∧ ((s.runCheck g m).1 = OK → s.jobRoom = true → ∃ u h, JobMade d q 7 .running h u ∧ t = u.runBegin g m h
        ∧ t.gstate g = gRunning ∧ t.rd (R.VDC_GRP_STAT_MASK g) = m ∧ t.rd (R.VDC_GRP_JOB_HANDLE g) = h % 2 ^ 32
        ∧ ∀ c : Fin 64, c.val / 8 = g.val → m.testBit (c.val % 8) = true →
          (t.vdc.cores[c]).pc = (s.vdc.cores[c]).entry ∧ (t.vdc.cores[c]).halted = false))
  ∧ (∀ (p : Packet) (m tmo : Nat) (s : State), p.words = [m, tmo] → m < 512 → tmo < 2 ^ 16 →
    Served .calRun 0x400 p s fun q d t =>
      (m = 0 → t = d.reply q E_PARAM 0) ∧ (m ≠ 0 → s.jobRoom = false → t = d.reply q E_BUSY 0)
      ∧ (m ≠ 0 → s.jobRoom = true → ∃ u h, ∃ v : State, JobMade d q 8 .queued h u
        ∧ v.mgt = { u.mgt with calJobs := u.mgt.calJobs ++ [⟨h, m, 0, 0, 0, 0, tmo, false⟩] } ∧ v.cmd = u.cmd
        ∧ (∀ k, k < 9 → v.bit R.MGT_CAL_PEND_PENDING k = (m.testBit k || u.bit R.MGT_CAL_PEND_PENDING k))
        ∧ (s.mgt.calRun = none → t = v.calNext)
        ∧ ∀ k, s.mgt.calRun = some k → t = if m.testBit k then v.jobRuns h else v))
  ∧ (∀ (p : Packet) (s : State), p.words = [] → Served .calStatus 0x401 p s fun q d t =>
    let r (f st : Field) : Nat := s.rd f * 4 + s.rd st
    let port (n : Nat) := r (R.CDG_PORT_STAT_CAL_STALE n) (R.CDG_PORT_STAT_CAL_RESULT n)
    let raman (n : Nat) := r (R.RRX_PORT_STAT_CAL_STALE n) (R.RRX_PORT_STAT_CAL_RESULT n)
    t = d.reply q OK 0 0 [port 0 + port 1 * 2 ^ 4 + port 2 * 2 ^ 8 + port 3 * 2 ^ 12
      + (raman 0 + raman 1 * 2 ^ 4 + raman 2 * 2 ^ 8 + raman 3 * 2 ^ 12) * 2 ^ 16,
        r R.RSF_STAT_CAL_STALE R.RSF_STAT_CAL_RESULT])
  ∧ ∀ (p : Packet) (a : Bool) (k : Nat) (s : State), p.words = [(if a then 1 else 0) + 256 * k] → k < 256 →
    Served .calSchedule 0x402 p s fun q _ t => ∃ u : State, u.on R.MGT_CAL_CFG_AUTO = a
      ∧ u.rd R.MGT_CAL_CFG_DELTA = max 1 (min 50 k)
      ∧ t = if 1 ≤ k ∧ k ≤ 50 then u.reply q OK 0 else u.reply q W_CLAMPED 0

/-- R409 to R412, R420: SUSPEND, RESUME, CANCEL, QUERY and JOB_LIST: the handle that is unknown or final, the kinds of
job that each takes, and what it does to them. -/
def Obligations.JobControlOpcodes : Prop :=
  (∀ (i : Packet → Instr) (op : Nat) (p : Packet) (s : State),
    (i = .suspend ∧ op = 0x500 ∨ i = .resume ∧ op = 0x501 ∨ i = .cancel ∧ op = 0x502) → p.words = [] →
    Served i op p s fun q d t => (s.job? p.job = none → t = d.reply q E_PARAM 1)
      ∧ ∀ j, s.job? p.job = some j → live j = false → t = d.reply q E_STATE 0)
  ∧ (∀ (p : Packet) (j : Job) (s : State), p.words = [] → s.job? p.job = some j → live j = true →
    Served .suspend 0x500 p s fun q d t =>
      let n : Fin 4 := Fin.ofNat 4 (j.words.headD 0)
      let g : Fin 8 := Fin.ofNat 8 (j.words.headD 0)
      let r := d.reply q OK 0
      (j.state ≠ .running ∨ j.typ ∉ [4, 5, 7, 8] → t = d.reply q E_STATE 0)
      ∧ (j.state = .running → j.typ = 4 →
        if (s.rrx[n]).suspending then t = d.reply q E_STATE 0 else t = r.dtsSuspend n)
      ∧ (j.state = .running → j.typ = 5 →
        if s.rd (R.ACQ_CH_JOB_VALUE n) = p.job ∧ s.chLive n = true ∧ (s.acq.ch[n]).draining = false then
          t = r.chSuspend n ∧ t.rd (R.ACQ_CH_STAT_JOB n) = 2
        else t = d.reply q E_STATE 0)
      ∧ (j.state = .running → j.typ = 7 →
        if s.gstate g = gRunning then ∃ u : State, t = u.groupCheck g ∧ u.gstate g = gSuspending ∧ u.vdc = s.vdc
        else t = d.reply q E_STATE 0)
      ∧ (j.state = .running → j.typ = 8 → ∃ u : State, t = u.jobSuspended p.job
        ∧ ∀ e ∈ u.mgt.calJobs, e.job = p.job → e.held = true))
  ∧ (∀ (p : Packet) (j : Job) (s : State), p.words = [] → s.job? p.job = some j → live j = true →
    Served .resume 0x501 p s fun q d t =>
      let n : Fin 4 := Fin.ofNat 4 (j.words.headD 0)
      let g : Fin 8 := Fin.ofNat 8 (j.words.headD 0)
      let r := d.reply q OK 0
      (j.state ≠ .suspended ∨ j.typ ∉ [4, 5, 7, 8] → t = d.reply q E_STATE 0)
      ∧ (j.state = .suspended → j.typ = 4 → (s.rrx[n]).long = false →
        t = r.dtsRun n ∧ (t.rrx[n]).state = rjRunning)
      ∧ (j.state = .suspended → j.typ = 4 → (s.rrx[n]).long = true → s.holdsHods (.dts n) = true →
        ∃ u : State, t = u.reply q OK 0 ∧ (u.rrx[n]).state = rjRunning ∧ (u.rrx[n]).resuming = false)
      ∧ (j.state = .suspended → j.typ = 4 → (s.rrx[n]).long = true → s.holdsHods (.dts n) = false → s.hodQueue ≠ [] →
        j.words.getD 2 0 ≠ 0 → (t.rrx[n]).state = rjQueued ∧ (t.rrx[n]).resumer = some q ∧ t.cmd.open_ = d.cmd.open_
          ∧ ∃ e ∈ t.hodQueue, e.user = .dts n ∧ e.hods = 2 ∧ e.tmo = j.words.getD 2 0)
      ∧ (j.state = .suspended → j.typ = 5 → t = r.chResume n)
      ∧ (j.state = .suspended → j.typ = 7 → t = r.runResume g)
      ∧ (j.state = .suspended → j.typ = 8 → t = ((r.calHold p.job false).jobRuns p.job).calNext))
  ∧ (∀ (p : Packet) (j : Job) (s : State), p.words = [] → s.job? p.job = some j → live j = true →
    Served .cancel 0x502 p s fun q d t =>
      let h := p.job
      let n : Fin 4 := Fin.ofNat 4 (j.words.headD 0)
      let g : Fin 8 := Fin.ofNat 8 (j.words.headD 0)
      let r := d.reply q OK 0
      let refused : Prop := t = d.reply q E_STATE 0
      let ended (u : State) : Prop := t = u.jobCancelled h ∧ (j.notify = false → JobEnds t h .cancelled E_CANCELLED 0)
      (j.typ = 2 ∨ j.typ = 3 ∨ j.typ = 11 → refused)
      ∧ (j.typ = 1 → t = r.startCancel n)
      ∧ (j.typ = 4 → (s.rrx[n]).resumer = none → t = r.dtsCancel n ∧ (t.rrx[n]).state = rjCancelled)
      ∧ (j.typ = 5 → if s.rd (R.ACQ_CH_JOB_VALUE n) = h ∧ s.chLive n = true then t = r.chCancel n else refused)
      ∧ (j.typ = 6 → if j.state = .queued then ended (r.withdrawHods (.group g)) else refused)
      ∧ (j.typ = 7 → t = r.runCancel g)
      ∧ (j.typ = 8 → ∃ u : State, t = u.calNext ∧ ∀ e ∈ u.mgt.calJobs, e.job ≠ h)
      ∧ (j.typ = 9 → if j.state = .queued ∧ j.op = 0x602 then ended (r.tilesNotGranted h) else refused)
      ∧ (j.typ = 10 → if j.state = .queued ∧ j.op = 0x605 then ended (r.withdrawHods .sco) else refused)
      ∧ (j.typ = 12 → t.mgt.update = none ∧ (j.notify = false → JobEnds t h .cancelled E_CANCELLED 0))
      ∧ (j.typ = 13 → if j.state = .queued then t.mgt.change = none ∧ t.on R.PWR_STAT_BUSY = false
          ∧ (j.notify = false → JobEnds t h .cancelled E_CANCELLED 0) else refused)
      ∧ (j.typ = 14 → t = if s.ary.joinJob = h then r.aryJoinCancel else if s.ary.armJob = h then r.aryArmCancel
          else d.reply q E_STATE 0)
      ∧ (j.typ = 15 → t.mgt.snap = none ∧ (j.notify = false → JobEnds t h .cancelled E_CANCELLED 0)))
  ∧ (∀ (p : Packet) (s : State), p.words = [] → Served .query 0x503 p s fun q d t =>
    (s.job? p.job = none → t = d.reply q E_PARAM 1)
    ∧ ∀ j, s.job? p.job = some j → t = d.reply q OK 0 0
      (if live j then [j.typ * 2 ^ 28 + jobCode j.state * 2 ^ 25 + j.op, 0, j.made % 2 ^ 32, j.made / 2 ^ 32, 0, 0,
          j.progress]
        else [j.typ * 2 ^ 28 + jobCode j.state * 2 ^ 25 + j.op, j.status + j.detail % 65536 * 2 ^ 16, j.made % 2 ^ 32,
          j.made / 2 ^ 32, j.ended % 2 ^ 32, j.ended / 2 ^ 32, j.progress]))
  ∧ ∀ (p : Packet) (s : State), p.words = [] → Served .jobList 0x504 p s fun q d t =>
    ∃ l, t = d.reply q OK 0 0 (l.length :: l) ∧ l.length = s.cmd.jobs.length
      ∧ (∀ h, h ∈ l ↔ ∃ j ∈ s.cmd.jobs, handle j = h)
      ∧ ∃ a b, l = a ++ b ∧ a = (s.cmd.jobs.filter live).map handle

/-- R325 to R328, R330, R365, R380, R381, R421, R436: the opcodes of the streams, the compression engine and the
scan-out: the parameters and states that each refuses, and what each begins. -/
def Obligations.StreamOpcodes : Prop :=
  (∀ (p : Packet) (k : Fin 7) (s : State), p.words = [k.val, 0, 0, 0, 0, 0] → k ≠ 0 →
    Served .streamOpen 0x600 p s fun q d t =>
      if (s.streams[k]).dest ≠ 0 then t = d.reply q E_STATE 0
      else if s.rd (R.HIF_STR_BASE_VALUE k) = 0 ∨ s.rd (R.HIF_STR_WADDR_VALUE k) = 0 then t = d.reply q E_PARAM 0
      else ∃ u : State, t = u.reply q OK 0 ∧ u.cmd = d.cmd
        ∧ u.streams = s.streams.set k { (State.reset.streams[k]) with dest := 1 }
        ∧ u.rd (R.HIF_STR_RD_VALUE k) = 0 ∧ u.on (R.CMP_STR_STAT_OPEN k) = true)
  ∧ (∀ (p : Packet) (k : Fin 7) (m : Fin 2) (udp a : Nat) (s : State),
    p.words = [k.val + 16 * (m.val + 1), udp, a, 0, 0, 0] → k ≠ 0 → udp < 2 ^ 16 → a < 2 ^ 32 →
    Served .streamOpen 0x600 p s fun q d t =>
      if (s.streams[k]).dest ≠ 0 ∨ s.on (R.HIF_ETH_CFG_EN m) = false then t = d.reply q E_STATE 0
      else ∃ u : State, t = u.reply q OK 0 ∧ u.cmd = d.cmd
        ∧ u.streams = s.streams.set k { (State.reset.streams[k]) with dest := 2, ethM := m.val, addr := a, udp := udp }
        ∧ u.rd (R.HIF_STR_RD_VALUE k) = 0 ∧ u.on (R.CMP_STR_STAT_OPEN k) = true)
  ∧ (∀ (p : Packet) (k : Nat) (l : List Nat) (s : State), k < 16 → (k = 0 ∨ 7 ≤ k) →
    (p.words = [k, 0, 0, 0, 0, 0] → Served .streamOpen 0x600 p s fun q d t => t = d.reply q E_PARAM 0)
    ∧ (p.words = [k] → Served .streamClose 0x601 p s fun q d t => t = d.reply q E_PARAM 0)
    ∧ (p.words = l → l.length ≠ 6 → Served .streamOpen 0x600 p s fun q d t => t = d.reply q E_PARAM 0))
  ∧ (∀ (p : Packet) (k : Fin 7) (s : State), p.words = [k.val] → k ≠ 0 → Served .streamClose 0x601 p s fun q d t =>
    ((s.streams[k]).dest = 0 ∨ (s.streams[k]).closing = true → t = d.reply q E_STATE 0)
    ∧ ((s.streams[k]).dest ≠ 0 → (s.streams[k]).closing = false → ∃ u : State, t = u.reply q OK 0
      ∧ u = d.streamClose k
      ∧ ((s.streams[k]).part = 0 → (s.streams[k]).queue = [] → (s.streams[k]).waitq = [] →
        u.streams = s.streams.set k State.reset.streams[k] ∧ u.on (R.CMP_STR_STAT_OPEN k) = false)
      ∧ ((s.streams[k]).part ≠ 0 → (s.streams[k]).queue.length = 1 → (s.streams[k]).waitq = [] →
        u.streams = s.streams.set k { (s.streams[k]) with closing := true })))
  ∧ (∀ (p : Packet) (m tmo : Nat) (s : State), p.words = [m, tmo] → m < 2 ^ 32 → tmo < 2 ^ 16 →
    Served .tileStart 0x602 p s fun q d t =>
      (∀ st e, s.tileCheck m = (st, e) → st ≠ OK → t = d.reply q st e)
      ∧ ((s.tileCheck m).1 = OK → s.jobRoom = false → t = d.reply q E_BUSY 0)
      ∧ ((s.tileCheck m).1 = OK → s.jobRoom = true → ∃ u h, JobMade d q 9 .queued h u ∧ t = u.tilesBegin m tmo h
        ∧ ((∀ e ∈ s.enginesOf m, s.holdsHods (.engine e) = true) → ∀ k : Fin 32, m.testBit k = true →
          t.defOn k = true ∧ t.on (R.CMP_DEF_ACTIVE k) = true ∧ t.rd (R.CMP_DEF_TILES k) = 0
            ∧ (t.cmp.defs[k]).rows = [] ∧ (t.cmp.defs[k]).stopping = false)
        ∧ ((∃ e ∈ s.enginesOf m, s.holdsHods (.engine e) = false) →
          (∀ k : Nat, s.holdsHods (.engines k) = false) → s.hodQueue ≠ [] →
          if tmo = 0 then t = u.jobFailed h E_POWER (u.noEngine m)
          else t.cmp.starts = s.cmp.starts ++ [(h, m)] ∧ ∃ r ∈ t.hodQueue, r.job = h ∧ r.tmo = tmo
            ∧ r.hods = 2 * ((s.enginesOf m).filter fun (e : Fin 4) => !s.holdsHods (.engine e)).length)))
  ∧ (∀ (p : Packet) (m : Nat) (s : State), p.words = [m] → m < 2 ^ 32 →
    (Served .tileStop 0x603 p s fun q d t =>
      ((∃ k, k < 32 ∧ m.testBit k = true ∧ s.defOn k = false) → t = d.reply q E_STATE 0)
      ∧ ((∀ k, k < 32 → m.testBit k = true → s.defOn k = true) → s.jobRoom = false → t = d.reply q E_BUSY 0)
      ∧ ((∀ k, k < 32 → m.testBit k = true → s.defOn k = true) → s.jobRoom = true →
        ∃ u h, JobMade d q 9 .running h u ∧ t = u.tilesStop m h))
    ∧ Served .tileFlush 0x604 p s fun q d t => ∃ u : State, t = u.reply q OK 0 ∧ u = d.cmpFlush m
      ∧ (∀ k : Fin 32, m.testBit k = true → s.defOn k = true → (u.cmp.defs[k]).rows = [])
      ∧ ∀ k : Fin 32, (m.testBit k = false ∨ s.defOn k = false) → u.cmp.defs[k] = s.cmp.defs[k])
  ∧ (∀ (p : Packet) (tmo : Nat) (s : State), p.words = [tmo] → tmo < 2 ^ 16 → Served .scoStart 0x605 p s fun q d t =>
    (∀ st k, s.scoCheck = (st, k) → st ≠ OK → t = d.reply q st (k * 4096))
    ∧ (s.scoCheck.1 = OK → s.jobRoom = false → t = d.reply q E_BUSY 0)
    ∧ (s.scoCheck.1 = OK → s.jobRoom = true → ∃ u h, JobMade d q 10 .queued h u
      ∧ (s.holdsHods .sco = true → t = u.scoStart h ∧ t.scoState = scoRun ∧ t.on R.SCO_STAT_BLACK = true
        ∧ t.sco.base = s.rd R.SCO_FB_BASE_ADDR)
      ∧ (s.holdsHods .sco = false → s.hodQueue ≠ [] → if tmo = 0 then t = u.jobFailed h E_POWER (5 * 4096)
        else t.scoState = scoOff ∧ ∃ r ∈ t.hodQueue, r.user = .sco ∧ r.hods = 1 ∧ r.cls = 0 ∧ r.job = h ∧ r.tmo = tmo)))
  ∧ ∀ (p : Packet) (s : State), p.words = [] → Served .scoStop 0x606 p s fun q d t =>
    (s.scoState ≠ scoRun → t = d.reply q E_STATE 0)
    ∧ (s.scoState = scoRun → s.jobRoom = false → t = d.reply q E_BUSY 0)
    ∧ (s.scoState = scoRun → s.jobRoom = true → ∃ u h, JobMade d q 10 .running h u ∧ t = u.scoStop h
      ∧ (s.frameOn = true → t.scoState = scoStopping ∧ t.sco.stopJob = h)
      ∧ (s.frameOn = false → t.scoState = scoOff ∧ t.holdsHods .sco = false ∧ t.sco.queue = s.sco.queue))

/-- R342, R387, R422, R424, R426, R427, R430, R436 to R446, R460: the management and diagnostic opcodes. -/
def Obligations.ManagementOpcodes : Prop :=
  (∀ (p : Packet) (m tmo wk : Nat) (b : Bool) (s : State), m < 8 → tmo < 2 ^ 16 → wk < 2 ^ 32 →
    p.words = [m + if b then 16 else 0, tmo, wk] → Served .modeSet 0x700 p s fun q d t =>
      (s.modeRefusal m ≠ OK → t = d.reply q (s.modeRefusal m) 0)
      ∧ (s.modeRefusal m = OK → s.jobRoom = false → t = d.reply q E_BUSY 0)
      ∧ (s.modeRefusal m = OK → s.jobRoom = true → ∃ u h, JobMade d q 13 .running h u
        ∧ (s.sys.phase = .footRom → 3 ≤ m → t = u.resetCmd false ∧ t.sys.phase = .held)
        ∧ (s.sys.phase ≠ .footRom ∨ m < 3 →
          (m = s.sys.mode → t.sys.mode = m ∧ t.mgt.change = s.mgt.change
            ∧ (q.notify = false → (∀ k ∈ s.cmd.jobs, k.entry < 32) → JobEnds t h .done OK 0))
          ∧ (m = 3 → s.sys.mode = 4 → t.sys.mode = 3 ∧ t.rd R.PWR_STAT_MODE = 3 ∧ t.on R.MEM_CTRL_SR_EN = true
            ∧ t.on R.PWR_EVENT_MODE_DONE = true ∧ t.mgt.change = none)
          ∧ (m = 4 → s.sys.mode = 3 → t.sys.mode = 4 ∧ t.rd R.PWR_STAT_MODE = 4 ∧ t.on R.MEM_CTRL_SR_EN = false
            ∧ t.on R.PWR_EVENT_MODE_DONE = true ∧ t.mgt.change = none)
          ∧ (m < 3 → m ≠ s.sys.mode → t.mgt.change = some { job := h, target := m, time := b }
            ∧ t.on R.PWR_STAT_BUSY = true ∧ t.sys.wakeAfter = wk ∧ t.sys.mode = s.sys.mode
            ∧ t.sys.domains = s.sys.domains)
          ∧ (3 ≤ m → s.sys.mode < 3 → tmo ≠ 0 → s.holdsHods .mode = false → s.hodQueue ≠ [] →
            t.mgt.change = some { job := h, target := m, time := b } ∧ t.on R.PWR_STAT_BUSY = true
              ∧ t.sys.mode = s.sys.mode ∧ ∃ r ∈ t.hodQueue, r.user = .mode ∧ r.hods = 12 ∧ r.tmo = tmo ∧ r.job = h))))
  ∧ (∀ (m : Nat) (s : State), (m = 0 ∨ 4 < m → s.modeRefusal m = E_PARAM)
    ∧ (1 ≤ m → m ≤ 4 → m ≠ s.sys.mode → s.mgt.change ≠ none → s.modeRefusal m = E_STATE)
    ∧ (1 ≤ m → m < 3 → 3 ≤ s.sys.mode → s.modeQuiet = false → s.modeRefusal m = E_STATE)
    ∧ (1 ≤ m → m ≤ 4 → (m = s.sys.mode ∨ s.mgt.change = none ∧ (s.sys.mode < 3 ∨ 3 ≤ m ∨ s.modeQuiet = true)) →
      s.modeRefusal m = OK))
  ∧ (∀ (p : Packet) (s : State), p.words = [] → Served .sensorRead 0x701 p s fun q d t =>
    ∃ l : List (Nat × Nat × Nat), t = d.reply q OK 0 0 (l.length :: l.flatMap fun e => [e.1 * 2 ^ 16 + e.2.1, e.2.2])
      ∧ ∀ x ∈ s.mgt.sensors, (s.sys.phase = .footRom → x.id < 0x17) → (x.id, 1
        + (if sensorStale x.id < s.sys.uptime - x.at_ then 2 else 0) + x.flags, x.value) ∈ l)
  ∧ (∀ (p : Packet) (n lim : Nat) (s : State), p.words = [n, lim] → n < 2 ^ 32 → lim < 2 ^ 32 →
    Served .logRead 0x702 p s fun q d t => if lim < 64 ∨ 65536 < lim then t = d.reply q E_PARAM 0
      else ∃ l, t = d.reply q OK 0 0 l ∧ 4 * l.length ≤ lim
        ∧ ∃ a b : List (List Nat), l = a.flatten ∧ s.logHeld.filter (fun r => decide (n ≤ recSeq r)) = a ++ b
          ∧ ∀ r, b.head? = some r → lim < 4 * (l.length + r.length))
  ∧ (∀ (p : Packet) (s : State), p.words = [] → Served .logClear 0x703 p s fun q d t =>
    ∃ u : State, t = u.reply q OK 0 ∧ u = { d with mgt := { s.mgt with ring := [], dramRing := [] } })
  ∧ (∀ (p : Packet) (n k : Nat) (s : State), p.words = [n, k] → n < 2 ^ 32 → k < 2 →
    Served .updateBegin 0x704 p s fun q d t =>
      (s.mgt.update ≠ none → t = d.reply q E_STATE 0)
      ∧ (s.mgt.update = none → 0x800000 < n → t = d.reply q E_PARAM 0)
      ∧ (s.mgt.update = none → n ≤ 0x800000 → s.runningSlot = some k → t = d.reply q E_STATE 0)
      ∧ (s.mgt.update = none → n ≤ 0x800000 → s.runningSlot ≠ some k → ∃ u : State, t = u.reply q OK 0
        ∧ u.mgt = { s.mgt with update := some { slot := k, size := n, staged := s.dramUp, cells := [], job := 0 } }
        ∧ u.sys.verified.testBit k = false ∧ u.on (R.MGT_IMG_VERIFIED k) = false ∧ u.cmd = d.cmd
        ∧ ∀ a, Mem.read u.flash flashFill a =
          if s.dramUp = false ∧ slotBase k ≤ a ∧ a < slotBase k + 0x800000 then 255#8 else Mem.read s.flash flashFill a))
  ∧ (∀ (p : Packet) (o : Nat) (l : List Nat) (s : State), p.words = o :: l → l ≠ [] → l.length ≤ 1018 →
    Served .updateData 0x705 p s fun q d t =>
      (s.mgt.update = none → t = d.reply q E_STATE 0)
      ∧ ∀ x, s.mgt.update = some x → (x.job ≠ 0 → t = d.reply q E_STATE 0)
        ∧ (x.job = 0 → o % 4 ≠ 0 ∨ x.size < o + 4 * l.length → t = d.reply q E_PARAM 0)
        ∧ (x.job = 0 → o % 4 = 0 → o + 4 * l.length ≤ x.size → ∃ u : State, t = u.reply q OK 0 ∧ u.cmd = d.cmd
          ∧ u.regs = s.regs
          ∧ (x.staged = true → u.flash = s.flash ∧ u.mgt = { s.mgt with
              update := some { x with cells := Mem.writes flashFill x.cells o (Arith.bytesOfWords l) } })
          ∧ (x.staged = false → u.mgt = s.mgt
            ∧ Arith.wordsOfBytes (Mem.reads u.flash flashFill (slotBase x.slot + o) (4 * l.length)) = l
            ∧ ∀ a, a < slotBase x.slot + o ∨ slotBase x.slot + o + 4 * l.length ≤ a →
              Mem.read u.flash flashFill a = Mem.read s.flash flashFill a)))
  ∧ (∀ (p : Packet) (s : State), p.words = [] → Served .updateCommit 0x706 p s fun q d t =>
    (s.mgt.update = none → t = d.reply q E_STATE 0)
    ∧ ∀ x, s.mgt.update = some x → (x.job ≠ 0 → t = d.reply q E_STATE 0)
      ∧ (x.job = 0 → s.jobRoom = false → t = d.reply q E_BUSY 0)
      ∧ (x.job = 0 → s.jobRoom = true → ∃ u h, JobMade d q 12 .running h u
        ∧ t = { u with mgt := { u.mgt with update := some { x with job := h } } }))
  ∧ (∀ (p : Packet) (k key : Nat) (s : State), p.words = [k, key] → k < 2 → key < 2 ^ 32 →
    Served .updateActivate 0x707 p s fun q d t => if key ≠ 0xA55A then t = d.reply q E_PARAM 1
      else if s.sys.verified.testBit k = true ∧ s.sys.svn ≤ s.slotWord k 12 then t = (d.reply q OK 0).activate k
        ∧ t.sys.phase = .held ∧ t.sys.prefRecord = some k ∧ t.sys.ret.preferred = k ∧ t.sys.ret.fails = 0
        ∧ t.sys.ret.reason = rActivate ∧ t.flash = s.flash
      else t = d.reply q E_AUTH 0)
  ∧ (∀ (p : Packet) (a w r : Nat) (e : Bool) (l : List Nat) (s : State), a < 128 → w ≤ 252 → r < 256 → l.length = (w + 3) / 4 →
    p.words = (a + (if e then 256 else 0) + w * 2 ^ 16 + r * 2 ^ 24) :: l → Served .i2cXfer 0x708 p s fun q d t =>
      let u := d.emit (.i2c 0 a ((Arith.bytesOfWords l).take w))
      (∀ b, p.bus = .data b → ∃ res, t = u.reply q OK 0 0 res ∧ res.length = (r + 3) / 4
        ∧ (b.length = r → (∀ x ∈ b, x < 256) → (Arith.bytesOfWords res).take r = b))
      ∧ (∀ i, p.bus = .nak i → t = u.reply q E_PARAM i) ∧ (p.bus = .pec → t = u.reply q E_PARAM 0xFFFF)
      ∧ (p.bus = .timeout → t = u.reply q E_TIMEOUT 0))
  ∧ (∀ (p : Packet) (s : State), p.words = [] → Served .hodQuery 0x709 p s fun q d t =>
    t = d.reply q OK 0 0 (if s.sys.phase = .footRom then [4, 4, s.hodQueue.length]
      else [s.rd R.PWR_BUDGET_BUDGET, s.granted, s.hodQueue.length]))
  ∧ (∀ (p : Packet) (b : Nat) (s : State), p.words = [b] → b < 512 → Served .budgetSet 0x70A p s fun q d t =>
    let v := max 1 (min 256 b)
    if v < s.granted then ∃ u : State, t = u.reply q E_STATE 0 ∧ u.on R.PWR_EVENT_CFG_REJECT = true
        ∧ u.rd R.PWR_BUDGET_BUDGET = s.rd R.PWR_BUDGET_BUDGET
    else ∃ u : State, t = u.reply q (if v = b then OK else W_CLAMPED) 0 ∧ u.rd R.PWR_BUDGET_BUDGET = v ∧ u.cmd = d.cmd)
  ∧ (∀ (p : Packet) (m : Nat) (s : State), p.words = [m] → m < 4 → Served .snapshot 0x901 p s fun q d t =>
    (s.degraded = true → t = d.reply q E_DRAM 0)
    ∧ (s.degraded = false → s.mgt.snap ≠ none ∨ s.jobRoom = false → t = d.reply q E_BUSY 0)
    ∧ (s.degraded = false → s.mgt.snap = none → s.jobRoom = true → ∃ u h, JobMade d q 15 .running h u
      ∧ t = { u with mgt := { u.mgt with snap := some (h, m) } }))
  ∧ ∀ (p : Packet) (tmo : Nat) (s : State), p.words = [tmo] → tmo < 2 ^ 16 → Served .dramRetrain 0x902 p s fun q d t =>
    let waits : Prop := s.memState = memTraining ∨ s.memState = memRetraining ∨ s.memWaits = true
    (waits → t = d.reply q E_STATE 0) ∧ (¬ waits → s.jobRoom = false → t = d.reply q E_BUSY 0)
    ∧ (¬ waits → s.jobRoom = true → ∃ u h, JobMade d q 11 .queued h u ∧ t = u.memCommand h tmo
      ∧ (s.memUp = true → t.memState = memRetraining ∧ t.memc.step = 1 ∧ t.memc.job = h)
      ∧ (s.memUp = false → s.rd R.MEM_DRAM_CFG_DENSITY = 3 → t.memState = s.memState
        ∧ (q.notify = false → (∀ k ∈ s.cmd.jobs, k.entry < 32) → JobEnds t h .failed E_MEM_CONFIG 0))
      ∧ (s.memUp = false → s.rd R.MEM_DRAM_CFG_DENSITY ≠ 3 → s.holdsHods .dram = true →
        t.memState = memTraining ∧ t.memc.step = 1 ∧ t.memc.op = s.rd R.MEM_CTRL_TARGET ∧ t.memc.job = h)
      ∧ (s.memUp = false → s.rd R.MEM_DRAM_CFG_DENSITY ≠ 3 → s.holdsHods .dram = false → s.hodQueue ≠ [] →
        t.memState = s.memState ∧ if tmo = 0 then q.notify = false → (∀ k ∈ s.cmd.jobs, k.entry < 32) →
            JobEnds t h .failed E_POWER 0
          else ∃ r ∈ t.hodQueue, r.user = .dram ∧ r.hods = 6 ∧ r.tmo = tmo ∧ r.job = h))

/-- R423, R469 to R471, R474, R479, R481: the array opcodes: the role and the state that each needs, the conditions of
a join, and what each begins. -/
def Obligations.ArrayOpcodes : Prop :=
  (∀ (p : Packet) (w a0 a1 a2 a3 udp : Nat) (s : State), p.words = [w, a0, a1, a2, a3, udp] → w < 2 ^ 14 → udp < 2 ^ 16 →
    let net := s.hif.net[s.aryEth]
    let v6 := (net.headD 0).testBit 1
    let master := w.testBit 12
    let ptp := w.testBit 13
    let addr := if v6 then a0 * 2 ^ 96 + a1 * 2 ^ 64 + a2 * 2 ^ 32 + a3 else a0
    let closed : Prop := s.on (R.HIF_ETH_CFG_EN s.aryEth) = false ∨ ((net.drop 2).take 4).all (fun x => x == 0) = true
      ∨ udp = 0 ∨ (master = true ↔ addr ≠ 0)
    (v6 = false → a1 = 0 ∧ a2 = 0 ∧ a3 = 0) → Served .arrayJoin 0x800 p s fun q d t =>
      (s.aryState ≠ aryOff → t = d.reply q E_STATE 4096)
      ∧ (s.aryState = aryOff → closed → t = d.reply q E_PARAM 8192)
      ∧ (s.aryState = aryOff → ¬ closed → s.aryTimeOk ptp = false → t = d.reply q E_ARRAY_TIME 12288)
      ∧ (s.aryState = aryOff → ¬ closed → s.aryTimeOk ptp = true → s.jobRoom = false → t = d.reply q E_BUSY 0)
      ∧ (s.aryState = aryOff → ¬ closed → s.aryTimeOk ptp = true → s.jobRoom = true → ∃ u h, JobMade d q 14 .queued h u
        ∧ t = u.aryJoin (w % 4096) master ptp addr udp h ∧ t.ary.id = w % 4096 ∧ t.ary.udp = udp ∧ t.ary.joinJob = h
        ∧ t.on R.ARY_STAT_TIME = ptp ∧ t.on R.ARY_STAT_TIME_OK = true ∧ t.aryMaster = master
        ∧ (master = true → t.aryState = ARY_JOINED ∧ t.ary.roster = [⟨w % 4096, addr, 0, false⟩]
          ∧ t.on R.ARY_EVENT_JOINED = true)
        ∧ (master = false → t.aryState = aryJoining ∧ t.ary.roster = [] ∧ ∃ v : State,
          t = v.arySend addr tJOIN [(if ptp then 1 else 0) + 2])))
  ∧ (∀ (p : Packet) (s : State), p.words = [] →
    (Served .arrayLeave 0x801 p s fun q d t => if s.aryIn = true then ∃ u : State, t = u.reply q OK 0
        ∧ u = d.aryLeaveWith false .done OK 0 ∧ u.aryState = aryOff ∧ u.ary = State.reset.ary
      else t = d.reply q E_STATE 0)
    ∧ (Served .arrayStatus 0x802 p s fun q d t => t = d.reply q OK 0 0
      [s.ary.id + s.rd R.ARY_STAT_MASTER * 2 ^ 12 + (if s.aryIn then 2 ^ 13 else 0),
        if s.aryMaster then s.ary.roster.length else 0])
    ∧ Served .arrayDisarm 0x804 p s fun q d t =>
      (s.aryState = aryOff → t = d.reply q E_STATE 0)
      ∧ (s.aryState ≠ aryOff → s.aryMaster = false → t = d.reply q E_ARRAY_ROLE 0)
      ∧ (s.aryState ≠ aryOff → s.aryMaster = true → (s.on R.ARY_STAT_ARMED = false ∨ s.ary.disarming = true) →
        t = d.reply q E_STATE 0)
      ∧ (s.aryState ≠ aryOff → s.aryMaster = true → s.on R.ARY_STAT_ARMED = true → s.ary.disarming = false →
        t = (d.reply q OK 0).aryDisarm))
  ∧ (∀ s : State, s.aryIn = true ↔ s.aryState = ARY_JOINED ∨ s.aryState = ARY_ORPHAN)
  ∧ (∀ (p : Packet) (m : Nat) (s : State), p.words = [m] → m < 16 → Served .arrayArm 0x803 p s fun q d t =>
    (s.aryState = aryOff → t = d.reply q E_STATE 0)
    ∧ (s.aryState ≠ aryOff → s.aryMaster = false → t = d.reply q E_ARRAY_ROLE 0)
    ∧ (s.aryState ≠ aryOff → s.aryMaster = true → s.on R.ARY_STAT_ARMED = true → t = d.reply q E_STATE 0)
    ∧ (s.aryState ≠ aryOff → s.aryMaster = true → s.on R.ARY_STAT_ARMED = false → s.jobRoom = false →
      t = d.reply q E_BUSY 0)
    ∧ (s.aryState ≠ aryOff → s.aryMaster = true → s.on R.ARY_STAT_ARMED = false → s.jobRoom = true →
      ∃ u h, JobMade d q 14 .running h u ∧ t = u.aryArm m h ∧ t.on R.ARY_STAT_ARMED = true ∧ t.ary.armJob = h
        ∧ t.ary.armMask = m ∧ t.on (R.ARY_MEM_ARMED s.ary.id) = true))
  ∧ ∀ (p : Packet) (x : BitVec 64) (s : State), p.words = [x.toNat % 2 ^ 32, x.toNat / 2 ^ 32] →
    Served .arrayFire 0x805 p s fun q d t => if s.aryIn = true then ∃ u : State, t = u.reply q OK 0
        ∧ u.acq.inbox = s.acq.inbox ++ [(x.toNat, s.ary.id)]
        ∧ (s.on R.ARY_STAT_TIME_OK = false ∨ s.aryState = ARY_ORPHAN → u.ary = { s.ary with fireNo := s.ary.fireNo + 1 }
          ∧ u.rd R.ARY_HELD_COUNT = min (s.rd R.ARY_HELD_COUNT + 1) (2 ^ 32 - 1) ∧ u.on R.ARY_EVENT_FIRE_HELD = true)
        ∧ (s.on R.ARY_STAT_TIME_OK = true → s.aryState = ARY_JOINED → u.ary.fireNo = s.ary.fireNo + 1)
      else t = d.reply q E_STATE 0

/-- A step runs the command at the front of the queue on the state with the queue's rest; with an empty queue it lets
one tick pass, which is the model's choice (log entry 1). -/
def Obligations.StepRunsFront : Prop :=
  (∀ (c : Instr) (s : State), step { s with pending := c :: s.pending } = exec c s)
    ∧ ∀ s : State, s.pending = [] → step s = .next s.idle

/-- R15, R76, R83: what an idle tick does: the uptime and the raw count go on, the stamp counter of a running TBU
counts unless it is held, held ticks run out, and REFOUT10 rises at every 125th count, and falls in between, while it
is enabled and the TQ allows it. That it is the step on an empty queue is the model's choice (log entry 1). -/
def Obligations.IdleTick : Prop :=
  ∀ s : State, s.pending = [] → ∃ t, step s = .next t ∧ t.pending = [] ∧ t.sys.uptime = s.sys.uptime + 1
    ∧ t.sys.phase = s.sys.phase ∧ t.sys.mode = s.sys.mode ∧ t.flash = s.flash
    ∧ t.tbu.raw = s.tbu.raw + 1 ∧ t.tbu.hold = s.tbu.hold - 1
    ∧ t.now = (if s.tbu.running = true ∧ s.tbu.hold = 0 then (s.now + 1) % 2 ^ 64 else s.now)
    ∧ t.tbu.refHigh = (s.tbu.running && t.on R.TBU_CTRL_REFOUT_EN && t.rd R.TBU_STAT_TQ != 5
        && if s.tbu.refHigh then decide (t.now % 125 < 62) else t.now % 125 == 0)
    ∧ (t.tbu.refHigh ≠ s.tbu.refHigh →
      t.out.getLast? = some (.ball "REFOUT10" 0 (if t.tbu.refHigh then 1 else 0)))

/-- What the part is like right after reset: the always-on domain alone is on and the reset is held (R21, R453), every
field of every register reads its reset value, nothing is listed in a memory, and no command waits. That a register
without a stated reset value reads 0 is the model's choice (log entry 2), as are the fields of State that no rule
names (log entries 3 and 5). -/
def Obligations.ResetState : Prop :=
  let s := State.reset
  s.pending = [] ∧ s.sys.domains = 1 ∧ s.sys.phase = .held ∧ s.sys.uptime = 0 ∧ s.now = 0 ∧ s.cmd.jobs = [] ∧ s.hodQueue = []
    ∧ s.hodHeld = [] ∧ (∀ f : Field, s.rd f = f.reset) ∧ s.rd R.SYS_ID_DEVICE = 0x84 ∧ s.rd R.PWR_BUDGET_BUDGET = 256
    ∧ (∀ n, s.pstate n = stIdle) ∧ (∀ n, s.faults n = 0) ∧ s.loopClosed = false ∧ s.aryState = aryOff
    ∧ (∀ a, Mem.read s.sram sramFill a = 0#8) ∧ (∀ a, Mem.read s.flash flashFill a = 255#8) ∧ s.Canonical

/-- An invariant: every step keeps the canonical form of the register bank, of the buffers of 64-bit registers and of
the memories, so that equal contents are equal data. -/
def Obligations.CanonicalKept : Prop :=  ∀ s t : State, s.Canonical → step s = .next t → t.Canonical

/-- R445, R446: the one-time-programmable fuses only burn: no step lowers the counter or clears a revocation bit. -/
def Obligations.FusesOnlyBurn : Prop :=
  ∀ s t : State, step s = .next t → s.sys.svn ≤ t.sys.svn
    ∧ ∀ k, s.sys.revoked.testBit k = true → t.sys.revoked.testBit k = true

/-- No command stops the model but a BAR2 access of a shape that R44 does not accept: every other command answers a
next state, and none touches the queue of waiting commands. -/
def Obligations.CommandsAnswer : Prop :=
  ∀ (c : Instr) (s : State),
    (∃ t, exec c s = .next t ∧ t.pending = s.pending)
      ∨ (∃ off n e, c = .bar2Read off n e ∧ exec c s = .fault (.illFormed "BAR2_READ"))
      ∨ ∃ off l, c = .bar2Write off l ∧ exec c s = .fault (.illFormed "BAR2_WRITE")

/-- R327: a write of any word of a definition that is active is discarded, and CMP_EVENT.CFG_REJECT is set. -/
def Obligations.ActiveDefinitionWrite : Prop :=
  ∀ (k : Fin 32) (i : Fin 7) (v : Word) (s : State), s.pcieDecode = .serve → s.domOn dCORE = true → s.defOn k = true →
    Completes (.registerWrite (BitVec.ofNat 24 (0x281000 + 0x20 * k.val + 4 * i.val)) true v) s fun t =>
      t.on R.CMP_EVENT_CFG_REJECT = true ∧ t.cmp = s.cmp ∧ t.defOn k = true
        ∧ (∀ f : Field, 0x1408000 ≤ f.key → f.key < 0x140A000 → t.rd f = s.rd f) ∧ BytesKept s t

/-- R64: a write of SYN_PHASE_EPOCH while a bit of SYS_GSTAT.PORT_RUN or PORT_WATCH shows is discarded and sets
SYN_EVENT.CFG_REJECT, as a command of its own and as the second half of a 64-bit register write. -/
def Obligations.PhaseEpochWrite : Prop :=
  (∀ (e : DWord) (s : State), s.domOn dTIME = true → (∃ n : Fin 4, s.portShows n ≠ 0) →
    Completes (.phaseEpochWrite e) s fun t => t.rd R.SYN_PHASE_EPOCH_EPOCH = s.rd R.SYN_PHASE_EPOCH_EPOCH
      ∧ t.on R.SYN_EVENT_CFG_REJECT = true ∧ t.syn = s.syn)
  ∧ ∀ (v : Word) (s : State), s.pcieDecode = .serve → s.domOn dTIME = true → (∃ n : Fin 4, s.portShows n ≠ 0) →
    Completes (.highWordWrite 0x4001C v) s fun t => t.rd R.SYN_PHASE_EPOCH_EPOCH = s.rd R.SYN_PHASE_EPOCH_EPOCH
      ∧ t.on R.SYN_EVENT_CFG_REJECT = true ∧ t.syn = s.syn
end

