-- ==== Sys2Proof/Laws/Bank.lean ====
section
/-! SUPPORT. Laws of the register bank: what is read after a write, and that every operation keeps the keys rising. -/

-- One thread, so that the whole package compiles within a bounded number of threads.
set_option Elab.async false

namespace Sys2Proof.Machine.Bank

variable {b : List (Nat × Nat)} {k j v d e : Nat} {p : Nat → Bool}

theorem erase_eq_filter (b : List (Nat × Nat)) (k : Nat) : erase b k = b.filter fun x => x.1 != k := by
  induction b with
  | nil => rfl
  | cons x r ih =>
    obtain ⟨a, w⟩ := x
    by_cases h : a = k <;> simp [erase, h, ih]

@[simp] theorem get_erase_same (b : List (Nat × Nat)) (k d : Nat) : get (erase b k) k d = d := by
  induction b with
  | nil => rfl
  | cons x r ih =>
    obtain ⟨a, w⟩ := x
    by_cases h : a = k <;> simp [erase, get, h, ih]

theorem get_erase_ne (b : List (Nat × Nat)) (d : Nat) (h : k ≠ j) : get (erase b k) j d = get b j d := by
  induction b with
  | nil => rfl
  | cons x r ih =>
    obtain ⟨a, w⟩ := x
    by_cases h1 : a = k
    · simp [erase, get, h1, ih, h]
    · simp [erase, get, h1, ih]

theorem get_insert_ne (b : List (Nat × Nat)) (v d : Nat) (h : k ≠ j) : get (insert b k v) j d = get b j d := by
  induction b with
  | nil => simp [insert, get, h]
  | cons x r ih =>
    obtain ⟨a, w⟩ := x
    by_cases h1 : k < a
    · simp [insert, get, h1, h]
    · simp [insert, get, h1, ih]

theorem get_insert_erase (b : List (Nat × Nat)) (k v d : Nat) : get (insert (erase b k) k v) k d = v := by
  induction b with
  | nil => simp [insert, get, erase]
  | cons x r ih =>
    obtain ⟨a, w⟩ := x
    by_cases h : a = k
    · simpa [erase, h] using ih
    · by_cases h1 : k < a
      · simp [erase, h, insert, h1, get]
      · simp [erase, h, insert, h1, get, ih]

@[simp] theorem get_set_same (b : List (Nat × Nat)) (k v d : Nat) : get (set b k v) k d = v := get_insert_erase b k v d

theorem get_set_ne (b : List (Nat × Nat)) (v d : Nat) (h : k ≠ j) : get (set b k v) j d = get b j d := by
  rw [set, get_insert_ne _ _ _ h, get_erase_ne _ _ h]

/-- A key reads the value that was stored there. -/
@[simp] theorem get_put_same (b : List (Nat × Nat)) (k v d : Nat) : get (put b k v d) k d = v := by
  by_cases h : v = d <;> simp [put, h]

/-- Any other key reads what it read before. -/
theorem get_put_ne (b : List (Nat × Nat)) (v d e : Nat) (h : k ≠ j) : get (put b k v d) j e = get b j e := by
  by_cases h1 : v = d
  · simp [put, h1, get_erase_ne _ _ h]
  · simp [put, h1, get_set_ne _ _ _ h]

theorem wf_iff (b : List (Nat × Nat)) : wf b = true ↔ b.Pairwise fun x y => x.1 < y.1 := by
  induction b with
  | nil => simp [wf]
  | cons x r ih =>
    cases r with
    | nil => simp [wf]
    | cons y r =>
      have h : wf (x :: y :: r) = (decide (x.1 < y.1) && wf (y :: r)) := rfl
      rw [h, List.pairwise_cons, Bool.and_eq_true, ih, decide_eq_true_eq]
      constructor
      · rintro ⟨h1, h2⟩
        refine ⟨fun z hz => ?_, h2⟩
        rcases List.mem_cons.1 hz with rfl | hz
        · exact h1
        · exact lt_trans h1 (List.rel_of_pairwise_cons h2 hz)
      · rintro ⟨h1, h2⟩
        exact ⟨h1 y (by simp), h2⟩

theorem wf_drop (h : wf b = true) : wf (drop b p) = true := by
  rw [wf_iff] at h ⊢
  exact h.filter _

theorem wf_erase (h : wf b = true) : wf (erase b k) = true := by
  rw [erase_eq_filter, wf_iff]
  exact ((wf_iff b).1 h).filter _

theorem mem_insert {x : Nat × Nat} (b : List (Nat × Nat)) (k v : Nat) :
    x ∈ insert b k v ↔ x = (k, v) ∨ x ∈ b := by
  induction b with
  | nil => simp [insert]
  | cons y r ih =>
    obtain ⟨a, w⟩ := y
    by_cases h : k < a
    · simp [insert, h]
    · simp [insert, h, ih]
      tauto

theorem wf_insert_erase (h : wf b = true) : wf (insert (erase b k) k v) = true := by
  induction b with
  | nil => rfl
  | cons y r ih =>
    obtain ⟨a, w⟩ := y
    rw [wf_iff, List.pairwise_cons] at h
    have hr := ih ((wf_iff r).2 h.2)
    by_cases h1 : a = k
    · simpa [erase, h1] using hr
    · by_cases h2 : k < a
      · have he : wf (erase r k) = true := wf_erase ((wf_iff r).2 h.2)
        have e1 : insert (erase ((a, w) :: r) k) k v = (k, v) :: (a, w) :: erase r k := by
          simp [erase, h1, insert, h2]
        rw [e1, wf_iff, List.pairwise_cons, List.pairwise_cons]
        have hm : ∀ z ∈ erase r k, a < z.1 := by
          intro z hz
          rw [erase_eq_filter] at hz
          exact h.1 z (List.mem_of_mem_filter hz)
        refine ⟨fun z hz => ?_, hm, (wf_iff _).1 he⟩
        rcases List.mem_cons.1 hz with rfl | hz
        · exact h2
        · exact lt_trans h2 (hm z hz)
      · have e1 : insert (erase ((a, w) :: r) k) k v = (a, w) :: insert (erase r k) k v := by
          simp [erase, h1, insert, h2]
        rw [e1, wf_iff, List.pairwise_cons]
        refine ⟨fun z hz => ?_, (wf_iff _).1 hr⟩
        rcases (mem_insert _ _ _).1 hz with rfl | hz
        · exact lt_of_le_of_ne (not_lt.1 h2) h1
        · rw [erase_eq_filter] at hz
          exact h.1 z (List.mem_of_mem_filter hz)

theorem wf_set (h : wf b = true) : wf (set b k v) = true := wf_insert_erase h

/-- A store keeps the canonical form. -/
theorem wf_put (h : wf b = true) : wf (put b k v d) = true := by
  by_cases h1 : v = d
  · simpa [put, h1] using wf_erase h
  · simpa [put, h1] using wf_set h

end Sys2Proof.Machine.Bank
end

