-- ==== Sys2Proof/Laws/State.lean ====
section
/-! SUPPORT. Laws of the named operations over State: what a field reads after a register is written, what setting a
flag, logging, replying and ending a job leave alone. -/

-- One thread, so that the whole package compiles within a bounded number of threads.
set_option Elab.async false

namespace Sys2Proof.Machine.State
open Sys2Proof Arith

variable {s : State} {f g : Field}

/-! ### Register fields -/

theorem rd_of_regs {s t : State} (h : t.regs = s.regs) (f : Field) : t.rd f = s.rd f := by simp [rd, h]

@[simp] theorem rd_wr_same (s : State) (f : Field) (v : Nat) : (s.wr f v).rd f = v % 2 ^ f.width :=
  Bank.get_put_same _ _ _ _

theorem rd_wr_ne (s : State) (v : Nat) (h : f.key ≠ g.key) : (s.wr f v).rd g = s.rd g :=
  Bank.get_put_ne _ _ _ _ h

theorem rd_put_same (s : State) (b : Bool) (h : 0 < f.width) : (s.put f b).rd f = ofBool b := by
  have h2 : 2 ≤ 2 ^ f.width := by calc 2 = 2 ^ 1 := rfl
    _ ≤ 2 ^ f.width := Nat.pow_le_pow_right (by norm_num) h
  rw [put, rd_wr_same]
  exact Nat.mod_eq_of_lt (by cases b <;> simp [ofBool] <;> omega)

theorem on_put_same (s : State) (b : Bool) (h : 0 < f.width) : (s.put f b).on f = b := by
  rw [on, rd_put_same s b h]
  cases b <;> rfl

theorem on_of_regs {s t : State} (h : t.regs = s.regs) (f : Field) : t.on f = s.on f := by
  simp [on, rd_of_regs h]

theorem bit_of_regs {s t : State} (h : t.regs = s.regs) (f : Field) (i : Nat) : t.bit f i = s.bit f i := by
  simp [bit, rd_of_regs h]

theorem testBit_sub_pow (i v j : Nat) (h : v.testBit i = true) :
    (v - 2 ^ i).testBit j = if i = j then false else v.testBit j := by
  induction i generalizing v j with
  | zero =>
    have h0 : v % 2 = 1 := by simpa [Nat.testBit_zero] using h
    cases j with
    | zero => simp [Nat.testBit_zero]; omega
    | succ j =>
      have e : (v - 1) / 2 = v / 2 := by omega
      simp [Nat.testBit_succ, e]
  | succ i ih =>
    have h1 : (v / 2).testBit i = true := by simpa [Nat.testBit_succ] using h
    have h2 : 2 ^ i ≤ v / 2 := Nat.ge_two_pow_of_testBit h1
    have h3 : 2 ^ (i + 1) = 2 * 2 ^ i := by ring
    cases j with
    | zero =>
      have e : (v - 2 ^ (i + 1)) % 2 = v % 2 := by omega
      simp [Nat.testBit_zero, e]
    | succ j =>
      have e : (v - 2 ^ (i + 1)) / 2 = v / 2 - 2 ^ i := by omega
      rw [Nat.testBit_succ, e, ih _ _ h1, Nat.testBit_succ]
      simp

theorem testBit_putBit (v i j : Nat) (b : Bool) :
    (Arith.putBit v i b).testBit j = if i = j then b else v.testBit j := by
  unfold Arith.putBit
  cases b with
  | true => by_cases h : i = j <;> simp [h, Nat.testBit_two_pow_of_ne]
  | false =>
    by_cases hb : v.testBit i = true
    · simp only [Bool.false_eq_true, if_false, hb, if_true]
      exact testBit_sub_pow i v j hb
    · simp only [Bool.false_eq_true, if_false, hb]
      by_cases h : i = j
      · subst h; simpa using hb
      · simp [h]

theorem bit_putBit (s : State) (i j : Nat) (b : Bool) (h : j < f.width) :
    (s.putBit f i b).bit f j = if i = j then b else s.bit f j := by
  rw [putBit, bit, rd_wr_same, Nat.testBit_mod_two_pow, testBit_putBit, bit]
  simp [h]


theorem on_wr_ne (s : State) (v : Nat) (h : f.key ≠ g.key) : (s.wr f v).on g = s.on g := by rw [on, rd_wr_ne s _ h, on]
theorem bit_wr_ne (s : State) (v : Nat) (j : Nat) (h : f.key ≠ g.key) : (s.wr f v).bit g j = s.bit g j := by
  rw [bit, rd_wr_ne s _ h, bit]
theorem rd_put_ne (s : State) (b : Bool) (h : f.key ≠ g.key) : (s.put f b).rd g = s.rd g := rd_wr_ne s _ h
theorem on_put_ne (s : State) (b : Bool) (h : f.key ≠ g.key) : (s.put f b).on g = s.on g := by rw [on, rd_put_ne s _ h, on]
theorem bit_put_ne (s : State) (b : Bool) (j : Nat) (h : f.key ≠ g.key) : (s.put f b).bit g j = s.bit g j := by
  rw [bit, rd_put_ne s _ h, bit]
theorem rd_putBit_ne (s : State) (i : Nat) (b : Bool) (h : f.key ≠ g.key) : (s.putBit f i b).rd g = s.rd g := rd_wr_ne s _ h
theorem on_putBit_ne (s : State) (i : Nat) (b : Bool) (h : f.key ≠ g.key) : (s.putBit f i b).on g = s.on g := by rw [on, rd_putBit_ne s _ _ h, on]
theorem bit_putBit_ne (s : State) (i : Nat) (b : Bool) (j : Nat) (h : f.key ≠ g.key) : (s.putBit f i b).bit g j = s.bit g j := by
  rw [bit, rd_putBit_ne s _ _ h, bit]
theorem rd_count_ne (s : State) (k : Nat) (h : f.key ≠ g.key) : (s.count f k).rd g = s.rd g := rd_wr_ne s _ h
theorem on_count_ne (s : State) (k : Nat) (h : f.key ≠ g.key) : (s.count f k).on g = s.on g := by rw [on, rd_count_ne s _ h, on]
theorem bit_count_ne (s : State) (k : Nat) (j : Nat) (h : f.key ≠ g.key) : (s.count f k).bit g j = s.bit g j := by
  rw [bit, rd_count_ne s _ h, bit]
theorem rd_bump_ne (s : State) (k : Nat) (h : f.key ≠ g.key) : (s.bump f k).rd g = s.rd g := rd_wr_ne s _ h
theorem on_bump_ne (s : State) (k : Nat) (h : f.key ≠ g.key) : (s.bump f k).on g = s.on g := by rw [on, rd_bump_ne s _ h, on]
theorem bit_bump_ne (s : State) (k : Nat) (j : Nat) (h : f.key ≠ g.key) : (s.bump f k).bit g j = s.bit g j := by
  rw [bit, rd_bump_ne s _ h, bit]
theorem rd_wrS_ne (s : State) (x : Int) (h : f.key ≠ g.key) : (s.wrS f x).rd g = s.rd g := rd_wr_ne s _ h
theorem on_wrS_ne (s : State) (x : Int) (h : f.key ≠ g.key) : (s.wrS f x).on g = s.on g := by rw [on, rd_wrS_ne s _ h, on]
theorem bit_wrS_ne (s : State) (x : Int) (j : Nat) (h : f.key ≠ g.key) : (s.wrS f x).bit g j = s.bit g j := by
  rw [bit, rd_wrS_ne s _ h, bit]

theorem rd_count_same (s : State) (f : Field) (k : Nat) : (s.count f k).rd f = satNat f.width (s.rd f + k) % 2 ^ f.width := by
  rw [count, rd_wr_same]

theorem rd_bump_same (s : State) (f : Field) (k : Nat) : (s.bump f k).rd f = (s.rd f + k) % 2 ^ f.width := by
  rw [bump, rd_wr_same]

theorem rd_wrS_same (s : State) (f : Field) (x : Int) :
    (s.wrS f x).rd f = ofSigned f.width (satSigned f.width x) % 2 ^ f.width := by
  rw [wrS, rd_wr_same]

/-! ### A record with other fields changed -/

@[simp] theorem rd_mk (t : State) (f : Field) {a1 a2 a3 a4 a5 a6 a7 a8 a9 a10 a11 a12 a13 a14 a15 a16 a17 a18 a19 a20 a21 a22 a23 a24 a25 a26 a27 a28 a29 a30 a31 a32} :
    (State.mk t.regs a1 a2 a3 a4 a5 a6 a7 a8 a9 a10 a11 a12 a13 a14 a15 a16 a17 a18 a19 a20 a21 a22 a23 a24 a25 a26 a27 a28 a29 a30 a31 a32).rd f = t.rd f := rfl

@[simp] theorem on_mk (t : State) (f : Field) {a1 a2 a3 a4 a5 a6 a7 a8 a9 a10 a11 a12 a13 a14 a15 a16 a17 a18 a19 a20 a21 a22 a23 a24 a25 a26 a27 a28 a29 a30 a31 a32} :
    (State.mk t.regs a1 a2 a3 a4 a5 a6 a7 a8 a9 a10 a11 a12 a13 a14 a15 a16 a17 a18 a19 a20 a21 a22 a23 a24 a25 a26 a27 a28 a29 a30 a31 a32).on f = t.on f := rfl

@[simp] theorem bit_mk (t : State) (f : Field) (i : Nat) {a1 a2 a3 a4 a5 a6 a7 a8 a9 a10 a11 a12 a13 a14 a15 a16 a17 a18 a19 a20 a21 a22 a23 a24 a25 a26 a27 a28 a29 a30 a31 a32} :
    (State.mk t.regs a1 a2 a3 a4 a5 a6 a7 a8 a9 a10 a11 a12 a13 a14 a15 a16 a17 a18 a19 a20 a21 a22 a23 a24 a25 a26 a27 a28 a29 a30 a31 a32).bit f i = t.bit f i := rfl

/-! ### What each update leaves alone -/

@[simp] theorem wr_shadow (s : State) (f : Field) (v : Nat) : (s.wr f v).shadow = s.shadow := rfl
@[simp] theorem wr_wbuf (s : State) (f : Field) (v : Nat) : (s.wr f v).wbuf = s.wbuf := rfl
@[simp] theorem wr_sram (s : State) (f : Field) (v : Nat) : (s.wr f v).sram = s.sram := rfl
@[simp] theorem wr_dram (s : State) (f : Field) (v : Nat) : (s.wr f v).dram = s.dram := rfl
@[simp] theorem wr_flash (s : State) (f : Field) (v : Nat) : (s.wr f v).flash = s.flash := rfl
@[simp] theorem wr_sys (s : State) (f : Field) (v : Nat) : (s.wr f v).sys = s.sys := rfl
@[simp] theorem wr_syn (s : State) (f : Field) (v : Nat) : (s.wr f v).syn = s.syn := rfl
@[simp] theorem wr_tbu (s : State) (f : Field) (v : Nat) : (s.wr f v).tbu = s.tbu := rfl
@[simp] theorem wr_tdc (s : State) (f : Field) (v : Nat) : (s.wr f v).tdc = s.tdc := rfl
@[simp] theorem wr_ports (s : State) (f : Field) (v : Nat) : (s.wr f v).ports = s.ports := rfl
@[simp] theorem wr_rmd (s : State) (f : Field) (v : Nat) : (s.wr f v).rmd = s.rmd := rfl
@[simp] theorem wr_rrx (s : State) (f : Field) (v : Nat) : (s.wr f v).rrx = s.rrx := rfl
@[simp] theorem wr_rsf (s : State) (f : Field) (v : Nat) : (s.wr f v).rsf = s.rsf := rfl
@[simp] theorem wr_memc (s : State) (f : Field) (v : Nat) : (s.wr f v).memc = s.memc := rfl
@[simp] theorem wr_zon (s : State) (f : Field) (v : Nat) : (s.wr f v).zon = s.zon := rfl
@[simp] theorem wr_eve (s : State) (f : Field) (v : Nat) : (s.wr f v).eve = s.eve := rfl
@[simp] theorem wr_vdc (s : State) (f : Field) (v : Nat) : (s.wr f v).vdc = s.vdc := rfl
@[simp] theorem wr_cmp (s : State) (f : Field) (v : Nat) : (s.wr f v).cmp = s.cmp := rfl
@[simp] theorem wr_sco (s : State) (f : Field) (v : Nat) : (s.wr f v).sco = s.sco := rfl
@[simp] theorem wr_vdcIn (s : State) (f : Field) (v : Nat) : (s.wr f v).vdcIn = s.vdcIn := rfl
@[simp] theorem wr_cmpIn (s : State) (f : Field) (v : Nat) : (s.wr f v).cmpIn = s.cmpIn := rfl
@[simp] theorem wr_cmd (s : State) (f : Field) (v : Nat) : (s.wr f v).cmd = s.cmd := rfl
@[simp] theorem wr_hodQueue (s : State) (f : Field) (v : Nat) : (s.wr f v).hodQueue = s.hodQueue := rfl
@[simp] theorem wr_hodHeld (s : State) (f : Field) (v : Nat) : (s.wr f v).hodHeld = s.hodHeld := rfl
@[simp] theorem wr_streams (s : State) (f : Field) (v : Nat) : (s.wr f v).streams = s.streams := rfl
@[simp] theorem wr_hif (s : State) (f : Field) (v : Nat) : (s.wr f v).hif = s.hif := rfl
@[simp] theorem wr_acq (s : State) (f : Field) (v : Nat) : (s.wr f v).acq = s.acq := rfl
@[simp] theorem wr_ary (s : State) (f : Field) (v : Nat) : (s.wr f v).ary = s.ary := rfl
@[simp] theorem wr_mgt (s : State) (f : Field) (v : Nat) : (s.wr f v).mgt = s.mgt := rfl
@[simp] theorem wr_fresh (s : State) (f : Field) (v : Nat) : (s.wr f v).fresh = s.fresh := rfl
@[simp] theorem wr_out (s : State) (f : Field) (v : Nat) : (s.wr f v).out = s.out := rfl
@[simp] theorem wr_pending (s : State) (f : Field) (v : Nat) : (s.wr f v).pending = s.pending := rfl

@[simp] theorem put_shadow (s : State) (f : Field) (b : Bool) : (s.put f b).shadow = s.shadow := rfl
@[simp] theorem put_wbuf (s : State) (f : Field) (b : Bool) : (s.put f b).wbuf = s.wbuf := rfl
@[simp] theorem put_sram (s : State) (f : Field) (b : Bool) : (s.put f b).sram = s.sram := rfl
@[simp] theorem put_dram (s : State) (f : Field) (b : Bool) : (s.put f b).dram = s.dram := rfl
@[simp] theorem put_flash (s : State) (f : Field) (b : Bool) : (s.put f b).flash = s.flash := rfl
@[simp] theorem put_sys (s : State) (f : Field) (b : Bool) : (s.put f b).sys = s.sys := rfl
@[simp] theorem put_syn (s : State) (f : Field) (b : Bool) : (s.put f b).syn = s.syn := rfl
@[simp] theorem put_tbu (s : State) (f : Field) (b : Bool) : (s.put f b).tbu = s.tbu := rfl
@[simp] theorem put_tdc (s : State) (f : Field) (b : Bool) : (s.put f b).tdc = s.tdc := rfl
@[simp] theorem put_ports (s : State) (f : Field) (b : Bool) : (s.put f b).ports = s.ports := rfl
@[simp] theorem put_rmd (s : State) (f : Field) (b : Bool) : (s.put f b).rmd = s.rmd := rfl
@[simp] theorem put_rrx (s : State) (f : Field) (b : Bool) : (s.put f b).rrx = s.rrx := rfl
@[simp] theorem put_rsf (s : State) (f : Field) (b : Bool) : (s.put f b).rsf = s.rsf := rfl
@[simp] theorem put_memc (s : State) (f : Field) (b : Bool) : (s.put f b).memc = s.memc := rfl
@[simp] theorem put_zon (s : State) (f : Field) (b : Bool) : (s.put f b).zon = s.zon := rfl
@[simp] theorem put_eve (s : State) (f : Field) (b : Bool) : (s.put f b).eve = s.eve := rfl
@[simp] theorem put_vdc (s : State) (f : Field) (b : Bool) : (s.put f b).vdc = s.vdc := rfl
@[simp] theorem put_cmp (s : State) (f : Field) (b : Bool) : (s.put f b).cmp = s.cmp := rfl
@[simp] theorem put_sco (s : State) (f : Field) (b : Bool) : (s.put f b).sco = s.sco := rfl
@[simp] theorem put_vdcIn (s : State) (f : Field) (b : Bool) : (s.put f b).vdcIn = s.vdcIn := rfl
@[simp] theorem put_cmpIn (s : State) (f : Field) (b : Bool) : (s.put f b).cmpIn = s.cmpIn := rfl
@[simp] theorem put_cmd (s : State) (f : Field) (b : Bool) : (s.put f b).cmd = s.cmd := rfl
@[simp] theorem put_hodQueue (s : State) (f : Field) (b : Bool) : (s.put f b).hodQueue = s.hodQueue := rfl
@[simp] theorem put_hodHeld (s : State) (f : Field) (b : Bool) : (s.put f b).hodHeld = s.hodHeld := rfl
@[simp] theorem put_streams (s : State) (f : Field) (b : Bool) : (s.put f b).streams = s.streams := rfl
@[simp] theorem put_hif (s : State) (f : Field) (b : Bool) : (s.put f b).hif = s.hif := rfl
@[simp] theorem put_acq (s : State) (f : Field) (b : Bool) : (s.put f b).acq = s.acq := rfl
@[simp] theorem put_ary (s : State) (f : Field) (b : Bool) : (s.put f b).ary = s.ary := rfl
@[simp] theorem put_mgt (s : State) (f : Field) (b : Bool) : (s.put f b).mgt = s.mgt := rfl
@[simp] theorem put_fresh (s : State) (f : Field) (b : Bool) : (s.put f b).fresh = s.fresh := rfl
@[simp] theorem put_out (s : State) (f : Field) (b : Bool) : (s.put f b).out = s.out := rfl
@[simp] theorem put_pending (s : State) (f : Field) (b : Bool) : (s.put f b).pending = s.pending := rfl

@[simp] theorem putBit_shadow (s : State) (f : Field) (i : Nat) (b : Bool) : (s.putBit f i b).shadow = s.shadow := rfl
@[simp] theorem putBit_wbuf (s : State) (f : Field) (i : Nat) (b : Bool) : (s.putBit f i b).wbuf = s.wbuf := rfl
@[simp] theorem putBit_sram (s : State) (f : Field) (i : Nat) (b : Bool) : (s.putBit f i b).sram = s.sram := rfl
@[simp] theorem putBit_dram (s : State) (f : Field) (i : Nat) (b : Bool) : (s.putBit f i b).dram = s.dram := rfl
@[simp] theorem putBit_flash (s : State) (f : Field) (i : Nat) (b : Bool) : (s.putBit f i b).flash = s.flash := rfl
@[simp] theorem putBit_sys (s : State) (f : Field) (i : Nat) (b : Bool) : (s.putBit f i b).sys = s.sys := rfl
@[simp] theorem putBit_syn (s : State) (f : Field) (i : Nat) (b : Bool) : (s.putBit f i b).syn = s.syn := rfl
@[simp] theorem putBit_tbu (s : State) (f : Field) (i : Nat) (b : Bool) : (s.putBit f i b).tbu = s.tbu := rfl
@[simp] theorem putBit_tdc (s : State) (f : Field) (i : Nat) (b : Bool) : (s.putBit f i b).tdc = s.tdc := rfl
@[simp] theorem putBit_ports (s : State) (f : Field) (i : Nat) (b : Bool) : (s.putBit f i b).ports = s.ports := rfl
@[simp] theorem putBit_rmd (s : State) (f : Field) (i : Nat) (b : Bool) : (s.putBit f i b).rmd = s.rmd := rfl
@[simp] theorem putBit_rrx (s : State) (f : Field) (i : Nat) (b : Bool) : (s.putBit f i b).rrx = s.rrx := rfl
@[simp] theorem putBit_rsf (s : State) (f : Field) (i : Nat) (b : Bool) : (s.putBit f i b).rsf = s.rsf := rfl
@[simp] theorem putBit_memc (s : State) (f : Field) (i : Nat) (b : Bool) : (s.putBit f i b).memc = s.memc := rfl
@[simp] theorem putBit_zon (s : State) (f : Field) (i : Nat) (b : Bool) : (s.putBit f i b).zon = s.zon := rfl
@[simp] theorem putBit_eve (s : State) (f : Field) (i : Nat) (b : Bool) : (s.putBit f i b).eve = s.eve := rfl
@[simp] theorem putBit_vdc (s : State) (f : Field) (i : Nat) (b : Bool) : (s.putBit f i b).vdc = s.vdc := rfl
@[simp] theorem putBit_cmp (s : State) (f : Field) (i : Nat) (b : Bool) : (s.putBit f i b).cmp = s.cmp := rfl
@[simp] theorem putBit_sco (s : State) (f : Field) (i : Nat) (b : Bool) : (s.putBit f i b).sco = s.sco := rfl
@[simp] theorem putBit_vdcIn (s : State) (f : Field) (i : Nat) (b : Bool) : (s.putBit f i b).vdcIn = s.vdcIn := rfl
@[simp] theorem putBit_cmpIn (s : State) (f : Field) (i : Nat) (b : Bool) : (s.putBit f i b).cmpIn = s.cmpIn := rfl
@[simp] theorem putBit_cmd (s : State) (f : Field) (i : Nat) (b : Bool) : (s.putBit f i b).cmd = s.cmd := rfl
@[simp] theorem putBit_hodQueue (s : State) (f : Field) (i : Nat) (b : Bool) : (s.putBit f i b).hodQueue = s.hodQueue := rfl
@[simp] theorem putBit_hodHeld (s : State) (f : Field) (i : Nat) (b : Bool) : (s.putBit f i b).hodHeld = s.hodHeld := rfl
@[simp] theorem putBit_streams (s : State) (f : Field) (i : Nat) (b : Bool) : (s.putBit f i b).streams = s.streams := rfl
@[simp] theorem putBit_hif (s : State) (f : Field) (i : Nat) (b : Bool) : (s.putBit f i b).hif = s.hif := rfl
@[simp] theorem putBit_acq (s : State) (f : Field) (i : Nat) (b : Bool) : (s.putBit f i b).acq = s.acq := rfl
@[simp] theorem putBit_ary (s : State) (f : Field) (i : Nat) (b : Bool) : (s.putBit f i b).ary = s.ary := rfl
@[simp] theorem putBit_mgt (s : State) (f : Field) (i : Nat) (b : Bool) : (s.putBit f i b).mgt = s.mgt := rfl
@[simp] theorem putBit_fresh (s : State) (f : Field) (i : Nat) (b : Bool) : (s.putBit f i b).fresh = s.fresh := rfl
@[simp] theorem putBit_out (s : State) (f : Field) (i : Nat) (b : Bool) : (s.putBit f i b).out = s.out := rfl
@[simp] theorem putBit_pending (s : State) (f : Field) (i : Nat) (b : Bool) : (s.putBit f i b).pending = s.pending := rfl

@[simp] theorem count_shadow (s : State) (f : Field) (k : Nat) : (s.count f k).shadow = s.shadow := rfl
@[simp] theorem count_wbuf (s : State) (f : Field) (k : Nat) : (s.count f k).wbuf = s.wbuf := rfl
@[simp] theorem count_sram (s : State) (f : Field) (k : Nat) : (s.count f k).sram = s.sram := rfl
@[simp] theorem count_dram (s : State) (f : Field) (k : Nat) : (s.count f k).dram = s.dram := rfl
@[simp] theorem count_flash (s : State) (f : Field) (k : Nat) : (s.count f k).flash = s.flash := rfl
@[simp] theorem count_sys (s : State) (f : Field) (k : Nat) : (s.count f k).sys = s.sys := rfl
@[simp] theorem count_syn (s : State) (f : Field) (k : Nat) : (s.count f k).syn = s.syn := rfl
@[simp] theorem count_tbu (s : State) (f : Field) (k : Nat) : (s.count f k).tbu = s.tbu := rfl
@[simp] theorem count_tdc (s : State) (f : Field) (k : Nat) : (s.count f k).tdc = s.tdc := rfl
@[simp] theorem count_ports (s : State) (f : Field) (k : Nat) : (s.count f k).ports = s.ports := rfl
@[simp] theorem count_rmd (s : State) (f : Field) (k : Nat) : (s.count f k).rmd = s.rmd := rfl
@[simp] theorem count_rrx (s : State) (f : Field) (k : Nat) : (s.count f k).rrx = s.rrx := rfl
@[simp] theorem count_rsf (s : State) (f : Field) (k : Nat) : (s.count f k).rsf = s.rsf := rfl
@[simp] theorem count_memc (s : State) (f : Field) (k : Nat) : (s.count f k).memc = s.memc := rfl
@[simp] theorem count_zon (s : State) (f : Field) (k : Nat) : (s.count f k).zon = s.zon := rfl
@[simp] theorem count_eve (s : State) (f : Field) (k : Nat) : (s.count f k).eve = s.eve := rfl
@[simp] theorem count_vdc (s : State) (f : Field) (k : Nat) : (s.count f k).vdc = s.vdc := rfl
@[simp] theorem count_cmp (s : State) (f : Field) (k : Nat) : (s.count f k).cmp = s.cmp := rfl
@[simp] theorem count_sco (s : State) (f : Field) (k : Nat) : (s.count f k).sco = s.sco := rfl
@[simp] theorem count_vdcIn (s : State) (f : Field) (k : Nat) : (s.count f k).vdcIn = s.vdcIn := rfl
@[simp] theorem count_cmpIn (s : State) (f : Field) (k : Nat) : (s.count f k).cmpIn = s.cmpIn := rfl
@[simp] theorem count_cmd (s : State) (f : Field) (k : Nat) : (s.count f k).cmd = s.cmd := rfl
@[simp] theorem count_hodQueue (s : State) (f : Field) (k : Nat) : (s.count f k).hodQueue = s.hodQueue := rfl
@[simp] theorem count_hodHeld (s : State) (f : Field) (k : Nat) : (s.count f k).hodHeld = s.hodHeld := rfl
@[simp] theorem count_streams (s : State) (f : Field) (k : Nat) : (s.count f k).streams = s.streams := rfl
@[simp] theorem count_hif (s : State) (f : Field) (k : Nat) : (s.count f k).hif = s.hif := rfl
@[simp] theorem count_acq (s : State) (f : Field) (k : Nat) : (s.count f k).acq = s.acq := rfl
@[simp] theorem count_ary (s : State) (f : Field) (k : Nat) : (s.count f k).ary = s.ary := rfl
@[simp] theorem count_mgt (s : State) (f : Field) (k : Nat) : (s.count f k).mgt = s.mgt := rfl
@[simp] theorem count_fresh (s : State) (f : Field) (k : Nat) : (s.count f k).fresh = s.fresh := rfl
@[simp] theorem count_out (s : State) (f : Field) (k : Nat) : (s.count f k).out = s.out := rfl
@[simp] theorem count_pending (s : State) (f : Field) (k : Nat) : (s.count f k).pending = s.pending := rfl

@[simp] theorem bump_shadow (s : State) (f : Field) (k : Nat) : (s.bump f k).shadow = s.shadow := rfl
@[simp] theorem bump_wbuf (s : State) (f : Field) (k : Nat) : (s.bump f k).wbuf = s.wbuf := rfl
@[simp] theorem bump_sram (s : State) (f : Field) (k : Nat) : (s.bump f k).sram = s.sram := rfl
@[simp] theorem bump_dram (s : State) (f : Field) (k : Nat) : (s.bump f k).dram = s.dram := rfl
@[simp] theorem bump_flash (s : State) (f : Field) (k : Nat) : (s.bump f k).flash = s.flash := rfl
@[simp] theorem bump_sys (s : State) (f : Field) (k : Nat) : (s.bump f k).sys = s.sys := rfl
@[simp] theorem bump_syn (s : State) (f : Field) (k : Nat) : (s.bump f k).syn = s.syn := rfl
@[simp] theorem bump_tbu (s : State) (f : Field) (k : Nat) : (s.bump f k).tbu = s.tbu := rfl
@[simp] theorem bump_tdc (s : State) (f : Field) (k : Nat) : (s.bump f k).tdc = s.tdc := rfl
@[simp] theorem bump_ports (s : State) (f : Field) (k : Nat) : (s.bump f k).ports = s.ports := rfl
@[simp] theorem bump_rmd (s : State) (f : Field) (k : Nat) : (s.bump f k).rmd = s.rmd := rfl
@[simp] theorem bump_rrx (s : State) (f : Field) (k : Nat) : (s.bump f k).rrx = s.rrx := rfl
@[simp] theorem bump_rsf (s : State) (f : Field) (k : Nat) : (s.bump f k).rsf = s.rsf := rfl
@[simp] theorem bump_memc (s : State) (f : Field) (k : Nat) : (s.bump f k).memc = s.memc := rfl
@[simp] theorem bump_zon (s : State) (f : Field) (k : Nat) : (s.bump f k).zon = s.zon := rfl
@[simp] theorem bump_eve (s : State) (f : Field) (k : Nat) : (s.bump f k).eve = s.eve := rfl
@[simp] theorem bump_vdc (s : State) (f : Field) (k : Nat) : (s.bump f k).vdc = s.vdc := rfl
@[simp] theorem bump_cmp (s : State) (f : Field) (k : Nat) : (s.bump f k).cmp = s.cmp := rfl
@[simp] theorem bump_sco (s : State) (f : Field) (k : Nat) : (s.bump f k).sco = s.sco := rfl
@[simp] theorem bump_vdcIn (s : State) (f : Field) (k : Nat) : (s.bump f k).vdcIn = s.vdcIn := rfl
@[simp] theorem bump_cmpIn (s : State) (f : Field) (k : Nat) : (s.bump f k).cmpIn = s.cmpIn := rfl
@[simp] theorem bump_cmd (s : State) (f : Field) (k : Nat) : (s.bump f k).cmd = s.cmd := rfl
@[simp] theorem bump_hodQueue (s : State) (f : Field) (k : Nat) : (s.bump f k).hodQueue = s.hodQueue := rfl
@[simp] theorem bump_hodHeld (s : State) (f : Field) (k : Nat) : (s.bump f k).hodHeld = s.hodHeld := rfl
@[simp] theorem bump_streams (s : State) (f : Field) (k : Nat) : (s.bump f k).streams = s.streams := rfl
@[simp] theorem bump_hif (s : State) (f : Field) (k : Nat) : (s.bump f k).hif = s.hif := rfl
@[simp] theorem bump_acq (s : State) (f : Field) (k : Nat) : (s.bump f k).acq = s.acq := rfl
@[simp] theorem bump_ary (s : State) (f : Field) (k : Nat) : (s.bump f k).ary = s.ary := rfl
@[simp] theorem bump_mgt (s : State) (f : Field) (k : Nat) : (s.bump f k).mgt = s.mgt := rfl
@[simp] theorem bump_fresh (s : State) (f : Field) (k : Nat) : (s.bump f k).fresh = s.fresh := rfl
@[simp] theorem bump_out (s : State) (f : Field) (k : Nat) : (s.bump f k).out = s.out := rfl
@[simp] theorem bump_pending (s : State) (f : Field) (k : Nat) : (s.bump f k).pending = s.pending := rfl

@[simp] theorem wrS_shadow (s : State) (f : Field) (x : Int) : (s.wrS f x).shadow = s.shadow := rfl
@[simp] theorem wrS_wbuf (s : State) (f : Field) (x : Int) : (s.wrS f x).wbuf = s.wbuf := rfl
@[simp] theorem wrS_sram (s : State) (f : Field) (x : Int) : (s.wrS f x).sram = s.sram := rfl
@[simp] theorem wrS_dram (s : State) (f : Field) (x : Int) : (s.wrS f x).dram = s.dram := rfl
@[simp] theorem wrS_flash (s : State) (f : Field) (x : Int) : (s.wrS f x).flash = s.flash := rfl
@[simp] theorem wrS_sys (s : State) (f : Field) (x : Int) : (s.wrS f x).sys = s.sys := rfl
@[simp] theorem wrS_syn (s : State) (f : Field) (x : Int) : (s.wrS f x).syn = s.syn := rfl
@[simp] theorem wrS_tbu (s : State) (f : Field) (x : Int) : (s.wrS f x).tbu = s.tbu := rfl
@[simp] theorem wrS_tdc (s : State) (f : Field) (x : Int) : (s.wrS f x).tdc = s.tdc := rfl
@[simp] theorem wrS_ports (s : State) (f : Field) (x : Int) : (s.wrS f x).ports = s.ports := rfl
@[simp] theorem wrS_rmd (s : State) (f : Field) (x : Int) : (s.wrS f x).rmd = s.rmd := rfl
@[simp] theorem wrS_rrx (s : State) (f : Field) (x : Int) : (s.wrS f x).rrx = s.rrx := rfl
@[simp] theorem wrS_rsf (s : State) (f : Field) (x : Int) : (s.wrS f x).rsf = s.rsf := rfl
@[simp] theorem wrS_memc (s : State) (f : Field) (x : Int) : (s.wrS f x).memc = s.memc := rfl
@[simp] theorem wrS_zon (s : State) (f : Field) (x : Int) : (s.wrS f x).zon = s.zon := rfl
@[simp] theorem wrS_eve (s : State) (f : Field) (x : Int) : (s.wrS f x).eve = s.eve := rfl
@[simp] theorem wrS_vdc (s : State) (f : Field) (x : Int) : (s.wrS f x).vdc = s.vdc := rfl
@[simp] theorem wrS_cmp (s : State) (f : Field) (x : Int) : (s.wrS f x).cmp = s.cmp := rfl
@[simp] theorem wrS_sco (s : State) (f : Field) (x : Int) : (s.wrS f x).sco = s.sco := rfl
@[simp] theorem wrS_vdcIn (s : State) (f : Field) (x : Int) : (s.wrS f x).vdcIn = s.vdcIn := rfl
@[simp] theorem wrS_cmpIn (s : State) (f : Field) (x : Int) : (s.wrS f x).cmpIn = s.cmpIn := rfl
@[simp] theorem wrS_cmd (s : State) (f : Field) (x : Int) : (s.wrS f x).cmd = s.cmd := rfl
@[simp] theorem wrS_hodQueue (s : State) (f : Field) (x : Int) : (s.wrS f x).hodQueue = s.hodQueue := rfl
@[simp] theorem wrS_hodHeld (s : State) (f : Field) (x : Int) : (s.wrS f x).hodHeld = s.hodHeld := rfl
@[simp] theorem wrS_streams (s : State) (f : Field) (x : Int) : (s.wrS f x).streams = s.streams := rfl
@[simp] theorem wrS_hif (s : State) (f : Field) (x : Int) : (s.wrS f x).hif = s.hif := rfl
@[simp] theorem wrS_acq (s : State) (f : Field) (x : Int) : (s.wrS f x).acq = s.acq := rfl
@[simp] theorem wrS_ary (s : State) (f : Field) (x : Int) : (s.wrS f x).ary = s.ary := rfl
@[simp] theorem wrS_mgt (s : State) (f : Field) (x : Int) : (s.wrS f x).mgt = s.mgt := rfl
@[simp] theorem wrS_fresh (s : State) (f : Field) (x : Int) : (s.wrS f x).fresh = s.fresh := rfl
@[simp] theorem wrS_out (s : State) (f : Field) (x : Int) : (s.wrS f x).out = s.out := rfl
@[simp] theorem wrS_pending (s : State) (f : Field) (x : Int) : (s.wrS f x).pending = s.pending := rfl

@[simp] theorem emit_regs (s : State) (e : Emit) : (s.emit e).regs = s.regs := rfl
@[simp] theorem emit_shadow (s : State) (e : Emit) : (s.emit e).shadow = s.shadow := rfl
@[simp] theorem emit_wbuf (s : State) (e : Emit) : (s.emit e).wbuf = s.wbuf := rfl
@[simp] theorem emit_sram (s : State) (e : Emit) : (s.emit e).sram = s.sram := rfl
@[simp] theorem emit_dram (s : State) (e : Emit) : (s.emit e).dram = s.dram := rfl
@[simp] theorem emit_flash (s : State) (e : Emit) : (s.emit e).flash = s.flash := rfl
@[simp] theorem emit_sys (s : State) (e : Emit) : (s.emit e).sys = s.sys := rfl
@[simp] theorem emit_syn (s : State) (e : Emit) : (s.emit e).syn = s.syn := rfl
@[simp] theorem emit_tbu (s : State) (e : Emit) : (s.emit e).tbu = s.tbu := rfl
@[simp] theorem emit_tdc (s : State) (e : Emit) : (s.emit e).tdc = s.tdc := rfl
@[simp] theorem emit_ports (s : State) (e : Emit) : (s.emit e).ports = s.ports := rfl
@[simp] theorem emit_rmd (s : State) (e : Emit) : (s.emit e).rmd = s.rmd := rfl
@[simp] theorem emit_rrx (s : State) (e : Emit) : (s.emit e).rrx = s.rrx := rfl
@[simp] theorem emit_rsf (s : State) (e : Emit) : (s.emit e).rsf = s.rsf := rfl
@[simp] theorem emit_memc (s : State) (e : Emit) : (s.emit e).memc = s.memc := rfl
@[simp] theorem emit_zon (s : State) (e : Emit) : (s.emit e).zon = s.zon := rfl
@[simp] theorem emit_eve (s : State) (e : Emit) : (s.emit e).eve = s.eve := rfl
@[simp] theorem emit_vdc (s : State) (e : Emit) : (s.emit e).vdc = s.vdc := rfl
@[simp] theorem emit_cmp (s : State) (e : Emit) : (s.emit e).cmp = s.cmp := rfl
@[simp] theorem emit_sco (s : State) (e : Emit) : (s.emit e).sco = s.sco := rfl
@[simp] theorem emit_vdcIn (s : State) (e : Emit) : (s.emit e).vdcIn = s.vdcIn := rfl
@[simp] theorem emit_cmpIn (s : State) (e : Emit) : (s.emit e).cmpIn = s.cmpIn := rfl
@[simp] theorem emit_cmd (s : State) (e : Emit) : (s.emit e).cmd = s.cmd := rfl
@[simp] theorem emit_hodQueue (s : State) (e : Emit) : (s.emit e).hodQueue = s.hodQueue := rfl
@[simp] theorem emit_hodHeld (s : State) (e : Emit) : (s.emit e).hodHeld = s.hodHeld := rfl
@[simp] theorem emit_streams (s : State) (e : Emit) : (s.emit e).streams = s.streams := rfl
@[simp] theorem emit_hif (s : State) (e : Emit) : (s.emit e).hif = s.hif := rfl
@[simp] theorem emit_acq (s : State) (e : Emit) : (s.emit e).acq = s.acq := rfl
@[simp] theorem emit_ary (s : State) (e : Emit) : (s.emit e).ary = s.ary := rfl
@[simp] theorem emit_mgt (s : State) (e : Emit) : (s.emit e).mgt = s.mgt := rfl
@[simp] theorem emit_fresh (s : State) (e : Emit) : (s.emit e).fresh = s.fresh := rfl
@[simp] theorem emit_pending (s : State) (e : Emit) : (s.emit e).pending = s.pending := rfl

@[simp] theorem modPort_regs (s : State) (n : Fin 4) (h : Port → Port) : (s.modPort n h).regs = s.regs := rfl
@[simp] theorem modPort_shadow (s : State) (n : Fin 4) (h : Port → Port) : (s.modPort n h).shadow = s.shadow := rfl
@[simp] theorem modPort_wbuf (s : State) (n : Fin 4) (h : Port → Port) : (s.modPort n h).wbuf = s.wbuf := rfl
@[simp] theorem modPort_sram (s : State) (n : Fin 4) (h : Port → Port) : (s.modPort n h).sram = s.sram := rfl
@[simp] theorem modPort_dram (s : State) (n : Fin 4) (h : Port → Port) : (s.modPort n h).dram = s.dram := rfl
@[simp] theorem modPort_flash (s : State) (n : Fin 4) (h : Port → Port) : (s.modPort n h).flash = s.flash := rfl
@[simp] theorem modPort_sys (s : State) (n : Fin 4) (h : Port → Port) : (s.modPort n h).sys = s.sys := rfl
@[simp] theorem modPort_syn (s : State) (n : Fin 4) (h : Port → Port) : (s.modPort n h).syn = s.syn := rfl
@[simp] theorem modPort_tbu (s : State) (n : Fin 4) (h : Port → Port) : (s.modPort n h).tbu = s.tbu := rfl
@[simp] theorem modPort_tdc (s : State) (n : Fin 4) (h : Port → Port) : (s.modPort n h).tdc = s.tdc := rfl
@[simp] theorem modPort_rmd (s : State) (n : Fin 4) (h : Port → Port) : (s.modPort n h).rmd = s.rmd := rfl
@[simp] theorem modPort_rrx (s : State) (n : Fin 4) (h : Port → Port) : (s.modPort n h).rrx = s.rrx := rfl
@[simp] theorem modPort_rsf (s : State) (n : Fin 4) (h : Port → Port) : (s.modPort n h).rsf = s.rsf := rfl
@[simp] theorem modPort_memc (s : State) (n : Fin 4) (h : Port → Port) : (s.modPort n h).memc = s.memc := rfl
@[simp] theorem modPort_zon (s : State) (n : Fin 4) (h : Port → Port) : (s.modPort n h).zon = s.zon := rfl
@[simp] theorem modPort_eve (s : State) (n : Fin 4) (h : Port → Port) : (s.modPort n h).eve = s.eve := rfl
@[simp] theorem modPort_vdc (s : State) (n : Fin 4) (h : Port → Port) : (s.modPort n h).vdc = s.vdc := rfl
@[simp] theorem modPort_cmp (s : State) (n : Fin 4) (h : Port → Port) : (s.modPort n h).cmp = s.cmp := rfl
@[simp] theorem modPort_sco (s : State) (n : Fin 4) (h : Port → Port) : (s.modPort n h).sco = s.sco := rfl
@[simp] theorem modPort_vdcIn (s : State) (n : Fin 4) (h : Port → Port) : (s.modPort n h).vdcIn = s.vdcIn := rfl
@[simp] theorem modPort_cmpIn (s : State) (n : Fin 4) (h : Port → Port) : (s.modPort n h).cmpIn = s.cmpIn := rfl
@[simp] theorem modPort_cmd (s : State) (n : Fin 4) (h : Port → Port) : (s.modPort n h).cmd = s.cmd := rfl
@[simp] theorem modPort_hodQueue (s : State) (n : Fin 4) (h : Port → Port) : (s.modPort n h).hodQueue = s.hodQueue := rfl
@[simp] theorem modPort_hodHeld (s : State) (n : Fin 4) (h : Port → Port) : (s.modPort n h).hodHeld = s.hodHeld := rfl
@[simp] theorem modPort_streams (s : State) (n : Fin 4) (h : Port → Port) : (s.modPort n h).streams = s.streams := rfl
@[simp] theorem modPort_hif (s : State) (n : Fin 4) (h : Port → Port) : (s.modPort n h).hif = s.hif := rfl
@[simp] theorem modPort_acq (s : State) (n : Fin 4) (h : Port → Port) : (s.modPort n h).acq = s.acq := rfl
@[simp] theorem modPort_ary (s : State) (n : Fin 4) (h : Port → Port) : (s.modPort n h).ary = s.ary := rfl
@[simp] theorem modPort_mgt (s : State) (n : Fin 4) (h : Port → Port) : (s.modPort n h).mgt = s.mgt := rfl
@[simp] theorem modPort_fresh (s : State) (n : Fin 4) (h : Port → Port) : (s.modPort n h).fresh = s.fresh := rfl
@[simp] theorem modPort_out (s : State) (n : Fin 4) (h : Port → Port) : (s.modPort n h).out = s.out := rfl
@[simp] theorem modPort_pending (s : State) (n : Fin 4) (h : Port → Port) : (s.modPort n h).pending = s.pending := rfl

@[simp] theorem modSys_regs (s : State) (h : Sys → Sys) : (s.modSys h).regs = s.regs := rfl
@[simp] theorem modSys_shadow (s : State) (h : Sys → Sys) : (s.modSys h).shadow = s.shadow := rfl
@[simp] theorem modSys_wbuf (s : State) (h : Sys → Sys) : (s.modSys h).wbuf = s.wbuf := rfl
@[simp] theorem modSys_sram (s : State) (h : Sys → Sys) : (s.modSys h).sram = s.sram := rfl
@[simp] theorem modSys_dram (s : State) (h : Sys → Sys) : (s.modSys h).dram = s.dram := rfl
@[simp] theorem modSys_flash (s : State) (h : Sys → Sys) : (s.modSys h).flash = s.flash := rfl
@[simp] theorem modSys_syn (s : State) (h : Sys → Sys) : (s.modSys h).syn = s.syn := rfl
@[simp] theorem modSys_tbu (s : State) (h : Sys → Sys) : (s.modSys h).tbu = s.tbu := rfl
@[simp] theorem modSys_tdc (s : State) (h : Sys → Sys) : (s.modSys h).tdc = s.tdc := rfl
@[simp] theorem modSys_ports (s : State) (h : Sys → Sys) : (s.modSys h).ports = s.ports := rfl
@[simp] theorem modSys_rmd (s : State) (h : Sys → Sys) : (s.modSys h).rmd = s.rmd := rfl
@[simp] theorem modSys_rrx (s : State) (h : Sys → Sys) : (s.modSys h).rrx = s.rrx := rfl
@[simp] theorem modSys_rsf (s : State) (h : Sys → Sys) : (s.modSys h).rsf = s.rsf := rfl
@[simp] theorem modSys_memc (s : State) (h : Sys → Sys) : (s.modSys h).memc = s.memc := rfl
@[simp] theorem modSys_zon (s : State) (h : Sys → Sys) : (s.modSys h).zon = s.zon := rfl
@[simp] theorem modSys_eve (s : State) (h : Sys → Sys) : (s.modSys h).eve = s.eve := rfl
@[simp] theorem modSys_vdc (s : State) (h : Sys → Sys) : (s.modSys h).vdc = s.vdc := rfl
@[simp] theorem modSys_cmp (s : State) (h : Sys → Sys) : (s.modSys h).cmp = s.cmp := rfl
@[simp] theorem modSys_sco (s : State) (h : Sys → Sys) : (s.modSys h).sco = s.sco := rfl
@[simp] theorem modSys_vdcIn (s : State) (h : Sys → Sys) : (s.modSys h).vdcIn = s.vdcIn := rfl
@[simp] theorem modSys_cmpIn (s : State) (h : Sys → Sys) : (s.modSys h).cmpIn = s.cmpIn := rfl
@[simp] theorem modSys_cmd (s : State) (h : Sys → Sys) : (s.modSys h).cmd = s.cmd := rfl
@[simp] theorem modSys_hodQueue (s : State) (h : Sys → Sys) : (s.modSys h).hodQueue = s.hodQueue := rfl
@[simp] theorem modSys_hodHeld (s : State) (h : Sys → Sys) : (s.modSys h).hodHeld = s.hodHeld := rfl
@[simp] theorem modSys_streams (s : State) (h : Sys → Sys) : (s.modSys h).streams = s.streams := rfl
@[simp] theorem modSys_hif (s : State) (h : Sys → Sys) : (s.modSys h).hif = s.hif := rfl
@[simp] theorem modSys_acq (s : State) (h : Sys → Sys) : (s.modSys h).acq = s.acq := rfl
@[simp] theorem modSys_ary (s : State) (h : Sys → Sys) : (s.modSys h).ary = s.ary := rfl
@[simp] theorem modSys_mgt (s : State) (h : Sys → Sys) : (s.modSys h).mgt = s.mgt := rfl
@[simp] theorem modSys_fresh (s : State) (h : Sys → Sys) : (s.modSys h).fresh = s.fresh := rfl
@[simp] theorem modSys_out (s : State) (h : Sys → Sys) : (s.modSys h).out = s.out := rfl
@[simp] theorem modSys_pending (s : State) (h : Sys → Sys) : (s.modSys h).pending = s.pending := rfl

@[simp] theorem modRrx_regs (s : State) (n : Fin 4) (h : Rrx → Rrx) : (s.modRrx n h).regs = s.regs := rfl
@[simp] theorem modRrx_shadow (s : State) (n : Fin 4) (h : Rrx → Rrx) : (s.modRrx n h).shadow = s.shadow := rfl
@[simp] theorem modRrx_wbuf (s : State) (n : Fin 4) (h : Rrx → Rrx) : (s.modRrx n h).wbuf = s.wbuf := rfl
@[simp] theorem modRrx_sram (s : State) (n : Fin 4) (h : Rrx → Rrx) : (s.modRrx n h).sram = s.sram := rfl
@[simp] theorem modRrx_dram (s : State) (n : Fin 4) (h : Rrx → Rrx) : (s.modRrx n h).dram = s.dram := rfl
@[simp] theorem modRrx_flash (s : State) (n : Fin 4) (h : Rrx → Rrx) : (s.modRrx n h).flash = s.flash := rfl
@[simp] theorem modRrx_sys (s : State) (n : Fin 4) (h : Rrx → Rrx) : (s.modRrx n h).sys = s.sys := rfl
@[simp] theorem modRrx_syn (s : State) (n : Fin 4) (h : Rrx → Rrx) : (s.modRrx n h).syn = s.syn := rfl
@[simp] theorem modRrx_tbu (s : State) (n : Fin 4) (h : Rrx → Rrx) : (s.modRrx n h).tbu = s.tbu := rfl
@[simp] theorem modRrx_tdc (s : State) (n : Fin 4) (h : Rrx → Rrx) : (s.modRrx n h).tdc = s.tdc := rfl
@[simp] theorem modRrx_ports (s : State) (n : Fin 4) (h : Rrx → Rrx) : (s.modRrx n h).ports = s.ports := rfl
@[simp] theorem modRrx_rmd (s : State) (n : Fin 4) (h : Rrx → Rrx) : (s.modRrx n h).rmd = s.rmd := rfl
@[simp] theorem modRrx_rsf (s : State) (n : Fin 4) (h : Rrx → Rrx) : (s.modRrx n h).rsf = s.rsf := rfl
@[simp] theorem modRrx_memc (s : State) (n : Fin 4) (h : Rrx → Rrx) : (s.modRrx n h).memc = s.memc := rfl
@[simp] theorem modRrx_zon (s : State) (n : Fin 4) (h : Rrx → Rrx) : (s.modRrx n h).zon = s.zon := rfl
@[simp] theorem modRrx_eve (s : State) (n : Fin 4) (h : Rrx → Rrx) : (s.modRrx n h).eve = s.eve := rfl
@[simp] theorem modRrx_vdc (s : State) (n : Fin 4) (h : Rrx → Rrx) : (s.modRrx n h).vdc = s.vdc := rfl
@[simp] theorem modRrx_cmp (s : State) (n : Fin 4) (h : Rrx → Rrx) : (s.modRrx n h).cmp = s.cmp := rfl
@[simp] theorem modRrx_sco (s : State) (n : Fin 4) (h : Rrx → Rrx) : (s.modRrx n h).sco = s.sco := rfl
@[simp] theorem modRrx_vdcIn (s : State) (n : Fin 4) (h : Rrx → Rrx) : (s.modRrx n h).vdcIn = s.vdcIn := rfl
@[simp] theorem modRrx_cmpIn (s : State) (n : Fin 4) (h : Rrx → Rrx) : (s.modRrx n h).cmpIn = s.cmpIn := rfl
@[simp] theorem modRrx_cmd (s : State) (n : Fin 4) (h : Rrx → Rrx) : (s.modRrx n h).cmd = s.cmd := rfl
@[simp] theorem modRrx_hodQueue (s : State) (n : Fin 4) (h : Rrx → Rrx) : (s.modRrx n h).hodQueue = s.hodQueue := rfl
@[simp] theorem modRrx_hodHeld (s : State) (n : Fin 4) (h : Rrx → Rrx) : (s.modRrx n h).hodHeld = s.hodHeld := rfl
@[simp] theorem modRrx_streams (s : State) (n : Fin 4) (h : Rrx → Rrx) : (s.modRrx n h).streams = s.streams := rfl
@[simp] theorem modRrx_hif (s : State) (n : Fin 4) (h : Rrx → Rrx) : (s.modRrx n h).hif = s.hif := rfl
@[simp] theorem modRrx_acq (s : State) (n : Fin 4) (h : Rrx → Rrx) : (s.modRrx n h).acq = s.acq := rfl
@[simp] theorem modRrx_ary (s : State) (n : Fin 4) (h : Rrx → Rrx) : (s.modRrx n h).ary = s.ary := rfl
@[simp] theorem modRrx_mgt (s : State) (n : Fin 4) (h : Rrx → Rrx) : (s.modRrx n h).mgt = s.mgt := rfl
@[simp] theorem modRrx_fresh (s : State) (n : Fin 4) (h : Rrx → Rrx) : (s.modRrx n h).fresh = s.fresh := rfl
@[simp] theorem modRrx_out (s : State) (n : Fin 4) (h : Rrx → Rrx) : (s.modRrx n h).out = s.out := rfl
@[simp] theorem modRrx_pending (s : State) (n : Fin 4) (h : Rrx → Rrx) : (s.modRrx n h).pending = s.pending := rfl

@[simp] theorem modJob_regs (s : State) (j : Nat) (h : Job → Job) : (s.modJob j h).regs = s.regs := rfl
@[simp] theorem modJob_shadow (s : State) (j : Nat) (h : Job → Job) : (s.modJob j h).shadow = s.shadow := rfl
@[simp] theorem modJob_wbuf (s : State) (j : Nat) (h : Job → Job) : (s.modJob j h).wbuf = s.wbuf := rfl
@[simp] theorem modJob_sram (s : State) (j : Nat) (h : Job → Job) : (s.modJob j h).sram = s.sram := rfl
@[simp] theorem modJob_dram (s : State) (j : Nat) (h : Job → Job) : (s.modJob j h).dram = s.dram := rfl
@[simp] theorem modJob_flash (s : State) (j : Nat) (h : Job → Job) : (s.modJob j h).flash = s.flash := rfl
@[simp] theorem modJob_sys (s : State) (j : Nat) (h : Job → Job) : (s.modJob j h).sys = s.sys := rfl
@[simp] theorem modJob_syn (s : State) (j : Nat) (h : Job → Job) : (s.modJob j h).syn = s.syn := rfl
@[simp] theorem modJob_tbu (s : State) (j : Nat) (h : Job → Job) : (s.modJob j h).tbu = s.tbu := rfl
@[simp] theorem modJob_tdc (s : State) (j : Nat) (h : Job → Job) : (s.modJob j h).tdc = s.tdc := rfl
@[simp] theorem modJob_ports (s : State) (j : Nat) (h : Job → Job) : (s.modJob j h).ports = s.ports := rfl
@[simp] theorem modJob_rmd (s : State) (j : Nat) (h : Job → Job) : (s.modJob j h).rmd = s.rmd := rfl
@[simp] theorem modJob_rrx (s : State) (j : Nat) (h : Job → Job) : (s.modJob j h).rrx = s.rrx := rfl
@[simp] theorem modJob_rsf (s : State) (j : Nat) (h : Job → Job) : (s.modJob j h).rsf = s.rsf := rfl
@[simp] theorem modJob_memc (s : State) (j : Nat) (h : Job → Job) : (s.modJob j h).memc = s.memc := rfl
@[simp] theorem modJob_zon (s : State) (j : Nat) (h : Job → Job) : (s.modJob j h).zon = s.zon := rfl
@[simp] theorem modJob_eve (s : State) (j : Nat) (h : Job → Job) : (s.modJob j h).eve = s.eve := rfl
@[simp] theorem modJob_vdc (s : State) (j : Nat) (h : Job → Job) : (s.modJob j h).vdc = s.vdc := rfl
@[simp] theorem modJob_cmp (s : State) (j : Nat) (h : Job → Job) : (s.modJob j h).cmp = s.cmp := rfl
@[simp] theorem modJob_sco (s : State) (j : Nat) (h : Job → Job) : (s.modJob j h).sco = s.sco := rfl
@[simp] theorem modJob_vdcIn (s : State) (j : Nat) (h : Job → Job) : (s.modJob j h).vdcIn = s.vdcIn := rfl
@[simp] theorem modJob_cmpIn (s : State) (j : Nat) (h : Job → Job) : (s.modJob j h).cmpIn = s.cmpIn := rfl
@[simp] theorem modJob_hodQueue (s : State) (j : Nat) (h : Job → Job) : (s.modJob j h).hodQueue = s.hodQueue := rfl
@[simp] theorem modJob_hodHeld (s : State) (j : Nat) (h : Job → Job) : (s.modJob j h).hodHeld = s.hodHeld := rfl
@[simp] theorem modJob_streams (s : State) (j : Nat) (h : Job → Job) : (s.modJob j h).streams = s.streams := rfl
@[simp] theorem modJob_hif (s : State) (j : Nat) (h : Job → Job) : (s.modJob j h).hif = s.hif := rfl
@[simp] theorem modJob_acq (s : State) (j : Nat) (h : Job → Job) : (s.modJob j h).acq = s.acq := rfl
@[simp] theorem modJob_ary (s : State) (j : Nat) (h : Job → Job) : (s.modJob j h).ary = s.ary := rfl
@[simp] theorem modJob_mgt (s : State) (j : Nat) (h : Job → Job) : (s.modJob j h).mgt = s.mgt := rfl
@[simp] theorem modJob_fresh (s : State) (j : Nat) (h : Job → Job) : (s.modJob j h).fresh = s.fresh := rfl
@[simp] theorem modJob_out (s : State) (j : Nat) (h : Job → Job) : (s.modJob j h).out = s.out := rfl
@[simp] theorem modJob_pending (s : State) (j : Nat) (h : Job → Job) : (s.modJob j h).pending = s.pending := rfl

@[simp] theorem showLevel_shadow (s : State) (st : Fin 7) : (s.showLevel st).shadow = s.shadow := rfl
@[simp] theorem showLevel_wbuf (s : State) (st : Fin 7) : (s.showLevel st).wbuf = s.wbuf := rfl
@[simp] theorem showLevel_sram (s : State) (st : Fin 7) : (s.showLevel st).sram = s.sram := rfl
@[simp] theorem showLevel_dram (s : State) (st : Fin 7) : (s.showLevel st).dram = s.dram := rfl
@[simp] theorem showLevel_flash (s : State) (st : Fin 7) : (s.showLevel st).flash = s.flash := rfl
@[simp] theorem showLevel_sys (s : State) (st : Fin 7) : (s.showLevel st).sys = s.sys := rfl
@[simp] theorem showLevel_syn (s : State) (st : Fin 7) : (s.showLevel st).syn = s.syn := rfl
@[simp] theorem showLevel_tbu (s : State) (st : Fin 7) : (s.showLevel st).tbu = s.tbu := rfl
@[simp] theorem showLevel_tdc (s : State) (st : Fin 7) : (s.showLevel st).tdc = s.tdc := rfl
@[simp] theorem showLevel_ports (s : State) (st : Fin 7) : (s.showLevel st).ports = s.ports := rfl
@[simp] theorem showLevel_rmd (s : State) (st : Fin 7) : (s.showLevel st).rmd = s.rmd := rfl
@[simp] theorem showLevel_rrx (s : State) (st : Fin 7) : (s.showLevel st).rrx = s.rrx := rfl
@[simp] theorem showLevel_rsf (s : State) (st : Fin 7) : (s.showLevel st).rsf = s.rsf := rfl
@[simp] theorem showLevel_memc (s : State) (st : Fin 7) : (s.showLevel st).memc = s.memc := rfl
@[simp] theorem showLevel_zon (s : State) (st : Fin 7) : (s.showLevel st).zon = s.zon := rfl
@[simp] theorem showLevel_eve (s : State) (st : Fin 7) : (s.showLevel st).eve = s.eve := rfl
@[simp] theorem showLevel_vdc (s : State) (st : Fin 7) : (s.showLevel st).vdc = s.vdc := rfl
@[simp] theorem showLevel_cmp (s : State) (st : Fin 7) : (s.showLevel st).cmp = s.cmp := rfl
@[simp] theorem showLevel_sco (s : State) (st : Fin 7) : (s.showLevel st).sco = s.sco := rfl
@[simp] theorem showLevel_vdcIn (s : State) (st : Fin 7) : (s.showLevel st).vdcIn = s.vdcIn := rfl
@[simp] theorem showLevel_cmpIn (s : State) (st : Fin 7) : (s.showLevel st).cmpIn = s.cmpIn := rfl
@[simp] theorem showLevel_cmd (s : State) (st : Fin 7) : (s.showLevel st).cmd = s.cmd := rfl
@[simp] theorem showLevel_hodQueue (s : State) (st : Fin 7) : (s.showLevel st).hodQueue = s.hodQueue := rfl
@[simp] theorem showLevel_hodHeld (s : State) (st : Fin 7) : (s.showLevel st).hodHeld = s.hodHeld := rfl
@[simp] theorem showLevel_streams (s : State) (st : Fin 7) : (s.showLevel st).streams = s.streams := rfl
@[simp] theorem showLevel_hif (s : State) (st : Fin 7) : (s.showLevel st).hif = s.hif := rfl
@[simp] theorem showLevel_acq (s : State) (st : Fin 7) : (s.showLevel st).acq = s.acq := rfl
@[simp] theorem showLevel_ary (s : State) (st : Fin 7) : (s.showLevel st).ary = s.ary := rfl
@[simp] theorem showLevel_mgt (s : State) (st : Fin 7) : (s.showLevel st).mgt = s.mgt := rfl
@[simp] theorem showLevel_fresh (s : State) (st : Fin 7) : (s.showLevel st).fresh = s.fresh := rfl
@[simp] theorem showLevel_out (s : State) (st : Fin 7) : (s.showLevel st).out = s.out := rfl
@[simp] theorem showLevel_pending (s : State) (st : Fin 7) : (s.showLevel st).pending = s.pending := rfl

@[simp] theorem showHods_shadow (s : State)  : (s.showHods).shadow = s.shadow := rfl
@[simp] theorem showHods_wbuf (s : State)  : (s.showHods).wbuf = s.wbuf := rfl
@[simp] theorem showHods_sram (s : State)  : (s.showHods).sram = s.sram := rfl
@[simp] theorem showHods_dram (s : State)  : (s.showHods).dram = s.dram := rfl
@[simp] theorem showHods_flash (s : State)  : (s.showHods).flash = s.flash := rfl
@[simp] theorem showHods_sys (s : State)  : (s.showHods).sys = s.sys := rfl
@[simp] theorem showHods_syn (s : State)  : (s.showHods).syn = s.syn := rfl
@[simp] theorem showHods_tbu (s : State)  : (s.showHods).tbu = s.tbu := rfl
@[simp] theorem showHods_tdc (s : State)  : (s.showHods).tdc = s.tdc := rfl
@[simp] theorem showHods_ports (s : State)  : (s.showHods).ports = s.ports := rfl
@[simp] theorem showHods_rmd (s : State)  : (s.showHods).rmd = s.rmd := rfl
@[simp] theorem showHods_rrx (s : State)  : (s.showHods).rrx = s.rrx := rfl
@[simp] theorem showHods_rsf (s : State)  : (s.showHods).rsf = s.rsf := rfl
@[simp] theorem showHods_memc (s : State)  : (s.showHods).memc = s.memc := rfl
@[simp] theorem showHods_zon (s : State)  : (s.showHods).zon = s.zon := rfl
@[simp] theorem showHods_eve (s : State)  : (s.showHods).eve = s.eve := rfl
@[simp] theorem showHods_vdc (s : State)  : (s.showHods).vdc = s.vdc := rfl
@[simp] theorem showHods_cmp (s : State)  : (s.showHods).cmp = s.cmp := rfl
@[simp] theorem showHods_sco (s : State)  : (s.showHods).sco = s.sco := rfl
@[simp] theorem showHods_vdcIn (s : State)  : (s.showHods).vdcIn = s.vdcIn := rfl
@[simp] theorem showHods_cmpIn (s : State)  : (s.showHods).cmpIn = s.cmpIn := rfl
@[simp] theorem showHods_cmd (s : State)  : (s.showHods).cmd = s.cmd := rfl
@[simp] theorem showHods_hodQueue (s : State)  : (s.showHods).hodQueue = s.hodQueue := rfl
@[simp] theorem showHods_hodHeld (s : State)  : (s.showHods).hodHeld = s.hodHeld := rfl
@[simp] theorem showHods_streams (s : State)  : (s.showHods).streams = s.streams := rfl
@[simp] theorem showHods_hif (s : State)  : (s.showHods).hif = s.hif := rfl
@[simp] theorem showHods_acq (s : State)  : (s.showHods).acq = s.acq := rfl
@[simp] theorem showHods_ary (s : State)  : (s.showHods).ary = s.ary := rfl
@[simp] theorem showHods_mgt (s : State)  : (s.showHods).mgt = s.mgt := rfl
@[simp] theorem showHods_fresh (s : State)  : (s.showHods).fresh = s.fresh := rfl
@[simp] theorem showHods_out (s : State)  : (s.showHods).out = s.out := rfl
@[simp] theorem showHods_pending (s : State)  : (s.showHods).pending = s.pending := rfl

@[simp] theorem signal_shadow (s : State) (v : Nat) : (s.signal v).shadow = s.shadow := by
  unfold signal; split
  · rfl
  · split <;> rfl
@[simp] theorem signal_wbuf (s : State) (v : Nat) : (s.signal v).wbuf = s.wbuf := by
  unfold signal; split
  · rfl
  · split <;> rfl
@[simp] theorem signal_sram (s : State) (v : Nat) : (s.signal v).sram = s.sram := by
  unfold signal; split
  · rfl
  · split <;> rfl
@[simp] theorem signal_dram (s : State) (v : Nat) : (s.signal v).dram = s.dram := by
  unfold signal; split
  · rfl
  · split <;> rfl
@[simp] theorem signal_flash (s : State) (v : Nat) : (s.signal v).flash = s.flash := by
  unfold signal; split
  · rfl
  · split <;> rfl
@[simp] theorem signal_sys (s : State) (v : Nat) : (s.signal v).sys = s.sys := by
  unfold signal; split
  · rfl
  · split <;> rfl
@[simp] theorem signal_syn (s : State) (v : Nat) : (s.signal v).syn = s.syn := by
  unfold signal; split
  · rfl
  · split <;> rfl
@[simp] theorem signal_tbu (s : State) (v : Nat) : (s.signal v).tbu = s.tbu := by
  unfold signal; split
  · rfl
  · split <;> rfl
@[simp] theorem signal_tdc (s : State) (v : Nat) : (s.signal v).tdc = s.tdc := by
  unfold signal; split
  · rfl
  · split <;> rfl
@[simp] theorem signal_ports (s : State) (v : Nat) : (s.signal v).ports = s.ports := by
  unfold signal; split
  · rfl
  · split <;> rfl
@[simp] theorem signal_rmd (s : State) (v : Nat) : (s.signal v).rmd = s.rmd := by
  unfold signal; split
  · rfl
  · split <;> rfl
@[simp] theorem signal_rrx (s : State) (v : Nat) : (s.signal v).rrx = s.rrx := by
  unfold signal; split
  · rfl
  · split <;> rfl
@[simp] theorem signal_rsf (s : State) (v : Nat) : (s.signal v).rsf = s.rsf := by
  unfold signal; split
  · rfl
  · split <;> rfl
@[simp] theorem signal_memc (s : State) (v : Nat) : (s.signal v).memc = s.memc := by
  unfold signal; split
  · rfl
  · split <;> rfl
@[simp] theorem signal_zon (s : State) (v : Nat) : (s.signal v).zon = s.zon := by
  unfold signal; split
  · rfl
  · split <;> rfl
@[simp] theorem signal_eve (s : State) (v : Nat) : (s.signal v).eve = s.eve := by
  unfold signal; split
  · rfl
  · split <;> rfl
@[simp] theorem signal_vdc (s : State) (v : Nat) : (s.signal v).vdc = s.vdc := by
  unfold signal; split
  · rfl
  · split <;> rfl
@[simp] theorem signal_cmp (s : State) (v : Nat) : (s.signal v).cmp = s.cmp := by
  unfold signal; split
  · rfl
  · split <;> rfl
@[simp] theorem signal_sco (s : State) (v : Nat) : (s.signal v).sco = s.sco := by
  unfold signal; split
  · rfl
  · split <;> rfl
@[simp] theorem signal_vdcIn (s : State) (v : Nat) : (s.signal v).vdcIn = s.vdcIn := by
  unfold signal; split
  · rfl
  · split <;> rfl
@[simp] theorem signal_cmpIn (s : State) (v : Nat) : (s.signal v).cmpIn = s.cmpIn := by
  unfold signal; split
  · rfl
  · split <;> rfl
@[simp] theorem signal_cmd (s : State) (v : Nat) : (s.signal v).cmd = s.cmd := by
  unfold signal; split
  · rfl
  · split <;> rfl
@[simp] theorem signal_hodQueue (s : State) (v : Nat) : (s.signal v).hodQueue = s.hodQueue := by
  unfold signal; split
  · rfl
  · split <;> rfl
@[simp] theorem signal_hodHeld (s : State) (v : Nat) : (s.signal v).hodHeld = s.hodHeld := by
  unfold signal; split
  · rfl
  · split <;> rfl
@[simp] theorem signal_streams (s : State) (v : Nat) : (s.signal v).streams = s.streams := by
  unfold signal; split
  · rfl
  · split <;> rfl
@[simp] theorem signal_hif (s : State) (v : Nat) : (s.signal v).hif = s.hif := by
  unfold signal; split
  · rfl
  · split <;> rfl
@[simp] theorem signal_acq (s : State) (v : Nat) : (s.signal v).acq = s.acq := by
  unfold signal; split
  · rfl
  · split <;> rfl
@[simp] theorem signal_ary (s : State) (v : Nat) : (s.signal v).ary = s.ary := by
  unfold signal; split
  · rfl
  · split <;> rfl
@[simp] theorem signal_mgt (s : State) (v : Nat) : (s.signal v).mgt = s.mgt := by
  unfold signal; split
  · rfl
  · split <;> rfl
@[simp] theorem signal_fresh (s : State) (v : Nat) : (s.signal v).fresh = s.fresh := by
  unfold signal; split
  · rfl
  · split <;> rfl
@[simp] theorem signal_pending (s : State) (v : Nat) : (s.signal v).pending = s.pending := by
  unfold signal; split
  · rfl
  · split <;> rfl

@[simp] theorem evMask_shadow (s : State) (e : Field) (m : Nat) : (s.evMask e m).shadow = s.shadow := by
  unfold evMask; split
  · rfl
  · dsimp only; split
    · rfl
    · split <;> simp
@[simp] theorem evMask_wbuf (s : State) (e : Field) (m : Nat) : (s.evMask e m).wbuf = s.wbuf := by
  unfold evMask; split
  · rfl
  · dsimp only; split
    · rfl
    · split <;> simp
@[simp] theorem evMask_sram (s : State) (e : Field) (m : Nat) : (s.evMask e m).sram = s.sram := by
  unfold evMask; split
  · rfl
  · dsimp only; split
    · rfl
    · split <;> simp
@[simp] theorem evMask_dram (s : State) (e : Field) (m : Nat) : (s.evMask e m).dram = s.dram := by
  unfold evMask; split
  · rfl
  · dsimp only; split
    · rfl
    · split <;> simp
@[simp] theorem evMask_flash (s : State) (e : Field) (m : Nat) : (s.evMask e m).flash = s.flash := by
  unfold evMask; split
  · rfl
  · dsimp only; split
    · rfl
    · split <;> simp
@[simp] theorem evMask_sys (s : State) (e : Field) (m : Nat) : (s.evMask e m).sys = s.sys := by
  unfold evMask; split
  · rfl
  · dsimp only; split
    · rfl
    · split <;> simp
@[simp] theorem evMask_syn (s : State) (e : Field) (m : Nat) : (s.evMask e m).syn = s.syn := by
  unfold evMask; split
  · rfl
  · dsimp only; split
    · rfl
    · split <;> simp
@[simp] theorem evMask_tbu (s : State) (e : Field) (m : Nat) : (s.evMask e m).tbu = s.tbu := by
  unfold evMask; split
  · rfl
  · dsimp only; split
    · rfl
    · split <;> simp
@[simp] theorem evMask_tdc (s : State) (e : Field) (m : Nat) : (s.evMask e m).tdc = s.tdc := by
  unfold evMask; split
  · rfl
  · dsimp only; split
    · rfl
    · split <;> simp
@[simp] theorem evMask_ports (s : State) (e : Field) (m : Nat) : (s.evMask e m).ports = s.ports := by
  unfold evMask; split
  · rfl
  · dsimp only; split
    · rfl
    · split <;> simp
@[simp] theorem evMask_rmd (s : State) (e : Field) (m : Nat) : (s.evMask e m).rmd = s.rmd := by
  unfold evMask; split
  · rfl
  · dsimp only; split
    · rfl
    · split <;> simp
@[simp] theorem evMask_rrx (s : State) (e : Field) (m : Nat) : (s.evMask e m).rrx = s.rrx := by
  unfold evMask; split
  · rfl
  · dsimp only; split
    · rfl
    · split <;> simp
@[simp] theorem evMask_rsf (s : State) (e : Field) (m : Nat) : (s.evMask e m).rsf = s.rsf := by
  unfold evMask; split
  · rfl
  · dsimp only; split
    · rfl
    · split <;> simp
@[simp] theorem evMask_memc (s : State) (e : Field) (m : Nat) : (s.evMask e m).memc = s.memc := by
  unfold evMask; split
  · rfl
  · dsimp only; split
    · rfl
    · split <;> simp
@[simp] theorem evMask_zon (s : State) (e : Field) (m : Nat) : (s.evMask e m).zon = s.zon := by
  unfold evMask; split
  · rfl
  · dsimp only; split
    · rfl
    · split <;> simp
@[simp] theorem evMask_eve (s : State) (e : Field) (m : Nat) : (s.evMask e m).eve = s.eve := by
  unfold evMask; split
  · rfl
  · dsimp only; split
    · rfl
    · split <;> simp
@[simp] theorem evMask_vdc (s : State) (e : Field) (m : Nat) : (s.evMask e m).vdc = s.vdc := by
  unfold evMask; split
  · rfl
  · dsimp only; split
    · rfl
    · split <;> simp
@[simp] theorem evMask_cmp (s : State) (e : Field) (m : Nat) : (s.evMask e m).cmp = s.cmp := by
  unfold evMask; split
  · rfl
  · dsimp only; split
    · rfl
    · split <;> simp
@[simp] theorem evMask_sco (s : State) (e : Field) (m : Nat) : (s.evMask e m).sco = s.sco := by
  unfold evMask; split
  · rfl
  · dsimp only; split
    · rfl
    · split <;> simp
@[simp] theorem evMask_vdcIn (s : State) (e : Field) (m : Nat) : (s.evMask e m).vdcIn = s.vdcIn := by
  unfold evMask; split
  · rfl
  · dsimp only; split
    · rfl
    · split <;> simp
@[simp] theorem evMask_cmpIn (s : State) (e : Field) (m : Nat) : (s.evMask e m).cmpIn = s.cmpIn := by
  unfold evMask; split
  · rfl
  · dsimp only; split
    · rfl
    · split <;> simp
@[simp] theorem evMask_cmd (s : State) (e : Field) (m : Nat) : (s.evMask e m).cmd = s.cmd := by
  unfold evMask; split
  · rfl
  · dsimp only; split
    · rfl
    · split <;> simp
@[simp] theorem evMask_hodQueue (s : State) (e : Field) (m : Nat) : (s.evMask e m).hodQueue = s.hodQueue := by
  unfold evMask; split
  · rfl
  · dsimp only; split
    · rfl
    · split <;> simp
@[simp] theorem evMask_hodHeld (s : State) (e : Field) (m : Nat) : (s.evMask e m).hodHeld = s.hodHeld := by
  unfold evMask; split
  · rfl
  · dsimp only; split
    · rfl
    · split <;> simp
@[simp] theorem evMask_streams (s : State) (e : Field) (m : Nat) : (s.evMask e m).streams = s.streams := by
  unfold evMask; split
  · rfl
  · dsimp only; split
    · rfl
    · split <;> simp
@[simp] theorem evMask_hif (s : State) (e : Field) (m : Nat) : (s.evMask e m).hif = s.hif := by
  unfold evMask; split
  · rfl
  · dsimp only; split
    · rfl
    · split <;> simp
@[simp] theorem evMask_acq (s : State) (e : Field) (m : Nat) : (s.evMask e m).acq = s.acq := by
  unfold evMask; split
  · rfl
  · dsimp only; split
    · rfl
    · split <;> simp
@[simp] theorem evMask_ary (s : State) (e : Field) (m : Nat) : (s.evMask e m).ary = s.ary := by
  unfold evMask; split
  · rfl
  · dsimp only; split
    · rfl
    · split <;> simp
@[simp] theorem evMask_mgt (s : State) (e : Field) (m : Nat) : (s.evMask e m).mgt = s.mgt := by
  unfold evMask; split
  · rfl
  · dsimp only; split
    · rfl
    · split <;> simp
@[simp] theorem evMask_fresh (s : State) (e : Field) (m : Nat) : (s.evMask e m).fresh = s.fresh := by
  unfold evMask; split
  · rfl
  · dsimp only; split
    · rfl
    · split <;> simp
@[simp] theorem evMask_pending (s : State) (e : Field) (m : Nat) : (s.evMask e m).pending = s.pending := by
  unfold evMask; split
  · rfl
  · dsimp only; split
    · rfl
    · split <;> simp

@[simp] theorem ev_shadow (s : State) (e : Field) (i : Nat) : (s.ev e i).shadow = s.shadow := evMask_shadow s e _
@[simp] theorem ev_wbuf (s : State) (e : Field) (i : Nat) : (s.ev e i).wbuf = s.wbuf := evMask_wbuf s e _
@[simp] theorem ev_sram (s : State) (e : Field) (i : Nat) : (s.ev e i).sram = s.sram := evMask_sram s e _
@[simp] theorem ev_dram (s : State) (e : Field) (i : Nat) : (s.ev e i).dram = s.dram := evMask_dram s e _
@[simp] theorem ev_flash (s : State) (e : Field) (i : Nat) : (s.ev e i).flash = s.flash := evMask_flash s e _
@[simp] theorem ev_sys (s : State) (e : Field) (i : Nat) : (s.ev e i).sys = s.sys := evMask_sys s e _
@[simp] theorem ev_syn (s : State) (e : Field) (i : Nat) : (s.ev e i).syn = s.syn := evMask_syn s e _
@[simp] theorem ev_tbu (s : State) (e : Field) (i : Nat) : (s.ev e i).tbu = s.tbu := evMask_tbu s e _
@[simp] theorem ev_tdc (s : State) (e : Field) (i : Nat) : (s.ev e i).tdc = s.tdc := evMask_tdc s e _
@[simp] theorem ev_ports (s : State) (e : Field) (i : Nat) : (s.ev e i).ports = s.ports := evMask_ports s e _
@[simp] theorem ev_rmd (s : State) (e : Field) (i : Nat) : (s.ev e i).rmd = s.rmd := evMask_rmd s e _
@[simp] theorem ev_rrx (s : State) (e : Field) (i : Nat) : (s.ev e i).rrx = s.rrx := evMask_rrx s e _
@[simp] theorem ev_rsf (s : State) (e : Field) (i : Nat) : (s.ev e i).rsf = s.rsf := evMask_rsf s e _
@[simp] theorem ev_memc (s : State) (e : Field) (i : Nat) : (s.ev e i).memc = s.memc := evMask_memc s e _
@[simp] theorem ev_zon (s : State) (e : Field) (i : Nat) : (s.ev e i).zon = s.zon := evMask_zon s e _
@[simp] theorem ev_eve (s : State) (e : Field) (i : Nat) : (s.ev e i).eve = s.eve := evMask_eve s e _
@[simp] theorem ev_vdc (s : State) (e : Field) (i : Nat) : (s.ev e i).vdc = s.vdc := evMask_vdc s e _
@[simp] theorem ev_cmp (s : State) (e : Field) (i : Nat) : (s.ev e i).cmp = s.cmp := evMask_cmp s e _
@[simp] theorem ev_sco (s : State) (e : Field) (i : Nat) : (s.ev e i).sco = s.sco := evMask_sco s e _
@[simp] theorem ev_vdcIn (s : State) (e : Field) (i : Nat) : (s.ev e i).vdcIn = s.vdcIn := evMask_vdcIn s e _
@[simp] theorem ev_cmpIn (s : State) (e : Field) (i : Nat) : (s.ev e i).cmpIn = s.cmpIn := evMask_cmpIn s e _
@[simp] theorem ev_cmd (s : State) (e : Field) (i : Nat) : (s.ev e i).cmd = s.cmd := evMask_cmd s e _
@[simp] theorem ev_hodQueue (s : State) (e : Field) (i : Nat) : (s.ev e i).hodQueue = s.hodQueue := evMask_hodQueue s e _
@[simp] theorem ev_hodHeld (s : State) (e : Field) (i : Nat) : (s.ev e i).hodHeld = s.hodHeld := evMask_hodHeld s e _
@[simp] theorem ev_streams (s : State) (e : Field) (i : Nat) : (s.ev e i).streams = s.streams := evMask_streams s e _
@[simp] theorem ev_hif (s : State) (e : Field) (i : Nat) : (s.ev e i).hif = s.hif := evMask_hif s e _
@[simp] theorem ev_acq (s : State) (e : Field) (i : Nat) : (s.ev e i).acq = s.acq := evMask_acq s e _
@[simp] theorem ev_ary (s : State) (e : Field) (i : Nat) : (s.ev e i).ary = s.ary := evMask_ary s e _
@[simp] theorem ev_mgt (s : State) (e : Field) (i : Nat) : (s.ev e i).mgt = s.mgt := evMask_mgt s e _
@[simp] theorem ev_fresh (s : State) (e : Field) (i : Nat) : (s.ev e i).fresh = s.fresh := evMask_fresh s e _
@[simp] theorem ev_pending (s : State) (e : Field) (i : Nat) : (s.ev e i).pending = s.pending := evMask_pending s e _

@[simp] theorem evWritten_shadow (s : State) (o : Nat) : (s.evWritten o).shadow = s.shadow := by
  unfold evWritten; split
  · rfl
  · split <;> simp
@[simp] theorem evWritten_wbuf (s : State) (o : Nat) : (s.evWritten o).wbuf = s.wbuf := by
  unfold evWritten; split
  · rfl
  · split <;> simp
@[simp] theorem evWritten_sram (s : State) (o : Nat) : (s.evWritten o).sram = s.sram := by
  unfold evWritten; split
  · rfl
  · split <;> simp
@[simp] theorem evWritten_dram (s : State) (o : Nat) : (s.evWritten o).dram = s.dram := by
  unfold evWritten; split
  · rfl
  · split <;> simp
@[simp] theorem evWritten_flash (s : State) (o : Nat) : (s.evWritten o).flash = s.flash := by
  unfold evWritten; split
  · rfl
  · split <;> simp
@[simp] theorem evWritten_sys (s : State) (o : Nat) : (s.evWritten o).sys = s.sys := by
  unfold evWritten; split
  · rfl
  · split <;> simp
@[simp] theorem evWritten_syn (s : State) (o : Nat) : (s.evWritten o).syn = s.syn := by
  unfold evWritten; split
  · rfl
  · split <;> simp
@[simp] theorem evWritten_tbu (s : State) (o : Nat) : (s.evWritten o).tbu = s.tbu := by
  unfold evWritten; split
  · rfl
  · split <;> simp
@[simp] theorem evWritten_tdc (s : State) (o : Nat) : (s.evWritten o).tdc = s.tdc := by
  unfold evWritten; split
  · rfl
  · split <;> simp
@[simp] theorem evWritten_ports (s : State) (o : Nat) : (s.evWritten o).ports = s.ports := by
  unfold evWritten; split
  · rfl
  · split <;> simp
@[simp] theorem evWritten_rmd (s : State) (o : Nat) : (s.evWritten o).rmd = s.rmd := by
  unfold evWritten; split
  · rfl
  · split <;> simp
@[simp] theorem evWritten_rrx (s : State) (o : Nat) : (s.evWritten o).rrx = s.rrx := by
  unfold evWritten; split
  · rfl
  · split <;> simp
@[simp] theorem evWritten_rsf (s : State) (o : Nat) : (s.evWritten o).rsf = s.rsf := by
  unfold evWritten; split
  · rfl
  · split <;> simp
@[simp] theorem evWritten_memc (s : State) (o : Nat) : (s.evWritten o).memc = s.memc := by
  unfold evWritten; split
  · rfl
  · split <;> simp
@[simp] theorem evWritten_zon (s : State) (o : Nat) : (s.evWritten o).zon = s.zon := by
  unfold evWritten; split
  · rfl
  · split <;> simp
@[simp] theorem evWritten_eve (s : State) (o : Nat) : (s.evWritten o).eve = s.eve := by
  unfold evWritten; split
  · rfl
  · split <;> simp
@[simp] theorem evWritten_vdc (s : State) (o : Nat) : (s.evWritten o).vdc = s.vdc := by
  unfold evWritten; split
  · rfl
  · split <;> simp
@[simp] theorem evWritten_cmp (s : State) (o : Nat) : (s.evWritten o).cmp = s.cmp := by
  unfold evWritten; split
  · rfl
  · split <;> simp
@[simp] theorem evWritten_sco (s : State) (o : Nat) : (s.evWritten o).sco = s.sco := by
  unfold evWritten; split
  · rfl
  · split <;> simp
@[simp] theorem evWritten_vdcIn (s : State) (o : Nat) : (s.evWritten o).vdcIn = s.vdcIn := by
  unfold evWritten; split
  · rfl
  · split <;> simp
@[simp] theorem evWritten_cmpIn (s : State) (o : Nat) : (s.evWritten o).cmpIn = s.cmpIn := by
  unfold evWritten; split
  · rfl
  · split <;> simp
@[simp] theorem evWritten_cmd (s : State) (o : Nat) : (s.evWritten o).cmd = s.cmd := by
  unfold evWritten; split
  · rfl
  · split <;> simp
@[simp] theorem evWritten_hodQueue (s : State) (o : Nat) : (s.evWritten o).hodQueue = s.hodQueue := by
  unfold evWritten; split
  · rfl
  · split <;> simp
@[simp] theorem evWritten_hodHeld (s : State) (o : Nat) : (s.evWritten o).hodHeld = s.hodHeld := by
  unfold evWritten; split
  · rfl
  · split <;> simp
@[simp] theorem evWritten_streams (s : State) (o : Nat) : (s.evWritten o).streams = s.streams := by
  unfold evWritten; split
  · rfl
  · split <;> simp
@[simp] theorem evWritten_hif (s : State) (o : Nat) : (s.evWritten o).hif = s.hif := by
  unfold evWritten; split
  · rfl
  · split <;> simp
@[simp] theorem evWritten_acq (s : State) (o : Nat) : (s.evWritten o).acq = s.acq := by
  unfold evWritten; split
  · rfl
  · split <;> simp
@[simp] theorem evWritten_ary (s : State) (o : Nat) : (s.evWritten o).ary = s.ary := by
  unfold evWritten; split
  · rfl
  · split <;> simp
@[simp] theorem evWritten_mgt (s : State) (o : Nat) : (s.evWritten o).mgt = s.mgt := by
  unfold evWritten; split
  · rfl
  · split <;> simp
@[simp] theorem evWritten_fresh (s : State) (o : Nat) : (s.evWritten o).fresh = s.fresh := by
  unfold evWritten; split
  · rfl
  · split <;> simp
@[simp] theorem evWritten_pending (s : State) (o : Nat) : (s.evWritten o).pending = s.pending := by
  unfold evWritten; split
  · rfl
  · split <;> simp

@[simp] theorem offer_shadow (s : State) (st : Fin 7) (r : Rec) : (s.offer st r).shadow = s.shadow := by
  unfold offer; dsimp only; split
  · rfl
  · repeat (first | rfl | split)
@[simp] theorem offer_wbuf (s : State) (st : Fin 7) (r : Rec) : (s.offer st r).wbuf = s.wbuf := by
  unfold offer; dsimp only; split
  · rfl
  · repeat (first | rfl | split)
@[simp] theorem offer_sram (s : State) (st : Fin 7) (r : Rec) : (s.offer st r).sram = s.sram := by
  unfold offer; dsimp only; split
  · rfl
  · repeat (first | rfl | split)
@[simp] theorem offer_dram (s : State) (st : Fin 7) (r : Rec) : (s.offer st r).dram = s.dram := by
  unfold offer; dsimp only; split
  · rfl
  · repeat (first | rfl | split)
@[simp] theorem offer_flash (s : State) (st : Fin 7) (r : Rec) : (s.offer st r).flash = s.flash := by
  unfold offer; dsimp only; split
  · rfl
  · repeat (first | rfl | split)
@[simp] theorem offer_sys (s : State) (st : Fin 7) (r : Rec) : (s.offer st r).sys = s.sys := by
  unfold offer; dsimp only; split
  · rfl
  · repeat (first | rfl | split)
@[simp] theorem offer_syn (s : State) (st : Fin 7) (r : Rec) : (s.offer st r).syn = s.syn := by
  unfold offer; dsimp only; split
  · rfl
  · repeat (first | rfl | split)
@[simp] theorem offer_tbu (s : State) (st : Fin 7) (r : Rec) : (s.offer st r).tbu = s.tbu := by
  unfold offer; dsimp only; split
  · rfl
  · repeat (first | rfl | split)
@[simp] theorem offer_tdc (s : State) (st : Fin 7) (r : Rec) : (s.offer st r).tdc = s.tdc := by
  unfold offer; dsimp only; split
  · rfl
  · repeat (first | rfl | split)
@[simp] theorem offer_ports (s : State) (st : Fin 7) (r : Rec) : (s.offer st r).ports = s.ports := by
  unfold offer; dsimp only; split
  · rfl
  · repeat (first | rfl | split)
@[simp] theorem offer_rmd (s : State) (st : Fin 7) (r : Rec) : (s.offer st r).rmd = s.rmd := by
  unfold offer; dsimp only; split
  · rfl
  · repeat (first | rfl | split)
@[simp] theorem offer_rrx (s : State) (st : Fin 7) (r : Rec) : (s.offer st r).rrx = s.rrx := by
  unfold offer; dsimp only; split
  · rfl
  · repeat (first | rfl | split)
@[simp] theorem offer_rsf (s : State) (st : Fin 7) (r : Rec) : (s.offer st r).rsf = s.rsf := by
  unfold offer; dsimp only; split
  · rfl
  · repeat (first | rfl | split)
@[simp] theorem offer_memc (s : State) (st : Fin 7) (r : Rec) : (s.offer st r).memc = s.memc := by
  unfold offer; dsimp only; split
  · rfl
  · repeat (first | rfl | split)
@[simp] theorem offer_zon (s : State) (st : Fin 7) (r : Rec) : (s.offer st r).zon = s.zon := by
  unfold offer; dsimp only; split
  · rfl
  · repeat (first | rfl | split)
@[simp] theorem offer_eve (s : State) (st : Fin 7) (r : Rec) : (s.offer st r).eve = s.eve := by
  unfold offer; dsimp only; split
  · rfl
  · repeat (first | rfl | split)
@[simp] theorem offer_vdc (s : State) (st : Fin 7) (r : Rec) : (s.offer st r).vdc = s.vdc := by
  unfold offer; dsimp only; split
  · rfl
  · repeat (first | rfl | split)
@[simp] theorem offer_cmp (s : State) (st : Fin 7) (r : Rec) : (s.offer st r).cmp = s.cmp := by
  unfold offer; dsimp only; split
  · rfl
  · repeat (first | rfl | split)
@[simp] theorem offer_sco (s : State) (st : Fin 7) (r : Rec) : (s.offer st r).sco = s.sco := by
  unfold offer; dsimp only; split
  · rfl
  · repeat (first | rfl | split)
@[simp] theorem offer_vdcIn (s : State) (st : Fin 7) (r : Rec) : (s.offer st r).vdcIn = s.vdcIn := by
  unfold offer; dsimp only; split
  · rfl
  · repeat (first | rfl | split)
@[simp] theorem offer_cmpIn (s : State) (st : Fin 7) (r : Rec) : (s.offer st r).cmpIn = s.cmpIn := by
  unfold offer; dsimp only; split
  · rfl
  · repeat (first | rfl | split)
@[simp] theorem offer_cmd (s : State) (st : Fin 7) (r : Rec) : (s.offer st r).cmd = s.cmd := by
  unfold offer; dsimp only; split
  · rfl
  · repeat (first | rfl | split)
@[simp] theorem offer_hodQueue (s : State) (st : Fin 7) (r : Rec) : (s.offer st r).hodQueue = s.hodQueue := by
  unfold offer; dsimp only; split
  · rfl
  · repeat (first | rfl | split)
@[simp] theorem offer_hodHeld (s : State) (st : Fin 7) (r : Rec) : (s.offer st r).hodHeld = s.hodHeld := by
  unfold offer; dsimp only; split
  · rfl
  · repeat (first | rfl | split)
@[simp] theorem offer_hif (s : State) (st : Fin 7) (r : Rec) : (s.offer st r).hif = s.hif := by
  unfold offer; dsimp only; split
  · rfl
  · repeat (first | rfl | split)
@[simp] theorem offer_acq (s : State) (st : Fin 7) (r : Rec) : (s.offer st r).acq = s.acq := by
  unfold offer; dsimp only; split
  · rfl
  · repeat (first | rfl | split)
@[simp] theorem offer_ary (s : State) (st : Fin 7) (r : Rec) : (s.offer st r).ary = s.ary := by
  unfold offer; dsimp only; split
  · rfl
  · repeat (first | rfl | split)
@[simp] theorem offer_mgt (s : State) (st : Fin 7) (r : Rec) : (s.offer st r).mgt = s.mgt := by
  unfold offer; dsimp only; split
  · rfl
  · repeat (first | rfl | split)
@[simp] theorem offer_fresh (s : State) (st : Fin 7) (r : Rec) : (s.offer st r).fresh = s.fresh := by
  unfold offer; dsimp only; split
  · rfl
  · repeat (first | rfl | split)
@[simp] theorem offer_out (s : State) (st : Fin 7) (r : Rec) : (s.offer st r).out = s.out := by
  unfold offer; dsimp only; split
  · rfl
  · repeat (first | rfl | split)
@[simp] theorem offer_pending (s : State) (st : Fin 7) (r : Rec) : (s.offer st r).pending = s.pending := by
  unfold offer; dsimp only; split
  · rfl
  · repeat (first | rfl | split)

@[simp] theorem logPut_shadow (s : State) (v : Nat) (l : List Nat) : (s.logPut v l).shadow = s.shadow := by
  unfold logPut; dsimp only; split <;> simp
@[simp] theorem logPut_wbuf (s : State) (v : Nat) (l : List Nat) : (s.logPut v l).wbuf = s.wbuf := by
  unfold logPut; dsimp only; split <;> simp
@[simp] theorem logPut_sram (s : State) (v : Nat) (l : List Nat) : (s.logPut v l).sram = s.sram := by
  unfold logPut; dsimp only; split <;> simp
@[simp] theorem logPut_dram (s : State) (v : Nat) (l : List Nat) : (s.logPut v l).dram = s.dram := by
  unfold logPut; dsimp only; split <;> simp
@[simp] theorem logPut_flash (s : State) (v : Nat) (l : List Nat) : (s.logPut v l).flash = s.flash := by
  unfold logPut; dsimp only; split <;> simp
@[simp] theorem logPut_sys (s : State) (v : Nat) (l : List Nat) : (s.logPut v l).sys = s.sys := by
  unfold logPut; dsimp only; split <;> simp
@[simp] theorem logPut_syn (s : State) (v : Nat) (l : List Nat) : (s.logPut v l).syn = s.syn := by
  unfold logPut; dsimp only; split <;> simp
@[simp] theorem logPut_tbu (s : State) (v : Nat) (l : List Nat) : (s.logPut v l).tbu = s.tbu := by
  unfold logPut; dsimp only; split <;> simp
@[simp] theorem logPut_tdc (s : State) (v : Nat) (l : List Nat) : (s.logPut v l).tdc = s.tdc := by
  unfold logPut; dsimp only; split <;> simp
@[simp] theorem logPut_ports (s : State) (v : Nat) (l : List Nat) : (s.logPut v l).ports = s.ports := by
  unfold logPut; dsimp only; split <;> simp
@[simp] theorem logPut_rmd (s : State) (v : Nat) (l : List Nat) : (s.logPut v l).rmd = s.rmd := by
  unfold logPut; dsimp only; split <;> simp
@[simp] theorem logPut_rrx (s : State) (v : Nat) (l : List Nat) : (s.logPut v l).rrx = s.rrx := by
  unfold logPut; dsimp only; split <;> simp
@[simp] theorem logPut_rsf (s : State) (v : Nat) (l : List Nat) : (s.logPut v l).rsf = s.rsf := by
  unfold logPut; dsimp only; split <;> simp
@[simp] theorem logPut_memc (s : State) (v : Nat) (l : List Nat) : (s.logPut v l).memc = s.memc := by
  unfold logPut; dsimp only; split <;> simp
@[simp] theorem logPut_zon (s : State) (v : Nat) (l : List Nat) : (s.logPut v l).zon = s.zon := by
  unfold logPut; dsimp only; split <;> simp
@[simp] theorem logPut_eve (s : State) (v : Nat) (l : List Nat) : (s.logPut v l).eve = s.eve := by
  unfold logPut; dsimp only; split <;> simp
@[simp] theorem logPut_vdc (s : State) (v : Nat) (l : List Nat) : (s.logPut v l).vdc = s.vdc := by
  unfold logPut; dsimp only; split <;> simp
@[simp] theorem logPut_cmp (s : State) (v : Nat) (l : List Nat) : (s.logPut v l).cmp = s.cmp := by
  unfold logPut; dsimp only; split <;> simp
@[simp] theorem logPut_sco (s : State) (v : Nat) (l : List Nat) : (s.logPut v l).sco = s.sco := by
  unfold logPut; dsimp only; split <;> simp
@[simp] theorem logPut_vdcIn (s : State) (v : Nat) (l : List Nat) : (s.logPut v l).vdcIn = s.vdcIn := by
  unfold logPut; dsimp only; split <;> simp
@[simp] theorem logPut_cmpIn (s : State) (v : Nat) (l : List Nat) : (s.logPut v l).cmpIn = s.cmpIn := by
  unfold logPut; dsimp only; split <;> simp
@[simp] theorem logPut_cmd (s : State) (v : Nat) (l : List Nat) : (s.logPut v l).cmd = s.cmd := by
  unfold logPut; dsimp only; split <;> simp
@[simp] theorem logPut_hodQueue (s : State) (v : Nat) (l : List Nat) : (s.logPut v l).hodQueue = s.hodQueue := by
  unfold logPut; dsimp only; split <;> simp
@[simp] theorem logPut_hodHeld (s : State) (v : Nat) (l : List Nat) : (s.logPut v l).hodHeld = s.hodHeld := by
  unfold logPut; dsimp only; split <;> simp
@[simp] theorem logPut_hif (s : State) (v : Nat) (l : List Nat) : (s.logPut v l).hif = s.hif := by
  unfold logPut; dsimp only; split <;> simp
@[simp] theorem logPut_acq (s : State) (v : Nat) (l : List Nat) : (s.logPut v l).acq = s.acq := by
  unfold logPut; dsimp only; split <;> simp
@[simp] theorem logPut_ary (s : State) (v : Nat) (l : List Nat) : (s.logPut v l).ary = s.ary := by
  unfold logPut; dsimp only; split <;> simp
@[simp] theorem logPut_fresh (s : State) (v : Nat) (l : List Nat) : (s.logPut v l).fresh = s.fresh := by
  unfold logPut; dsimp only; split <;> simp
@[simp] theorem logPut_pending (s : State) (v : Nat) (l : List Nat) : (s.logPut v l).pending = s.pending := by
  unfold logPut; dsimp only; split <;> simp

@[simp] theorem log_shadow (s : State) (a b c d : Nat) (l : List Nat) : (s.log a b c d l).shadow = s.shadow := by
  unfold log; simp
@[simp] theorem log_wbuf (s : State) (a b c d : Nat) (l : List Nat) : (s.log a b c d l).wbuf = s.wbuf := by
  unfold log; simp
@[simp] theorem log_sram (s : State) (a b c d : Nat) (l : List Nat) : (s.log a b c d l).sram = s.sram := by
  unfold log; simp
@[simp] theorem log_dram (s : State) (a b c d : Nat) (l : List Nat) : (s.log a b c d l).dram = s.dram := by
  unfold log; simp
@[simp] theorem log_flash (s : State) (a b c d : Nat) (l : List Nat) : (s.log a b c d l).flash = s.flash := by
  unfold log; simp
@[simp] theorem log_sys (s : State) (a b c d : Nat) (l : List Nat) : (s.log a b c d l).sys = s.sys := by
  unfold log; simp
@[simp] theorem log_syn (s : State) (a b c d : Nat) (l : List Nat) : (s.log a b c d l).syn = s.syn := by
  unfold log; simp
@[simp] theorem log_tbu (s : State) (a b c d : Nat) (l : List Nat) : (s.log a b c d l).tbu = s.tbu := by
  unfold log; simp
@[simp] theorem log_tdc (s : State) (a b c d : Nat) (l : List Nat) : (s.log a b c d l).tdc = s.tdc := by
  unfold log; simp
@[simp] theorem log_ports (s : State) (a b c d : Nat) (l : List Nat) : (s.log a b c d l).ports = s.ports := by
  unfold log; simp
@[simp] theorem log_rmd (s : State) (a b c d : Nat) (l : List Nat) : (s.log a b c d l).rmd = s.rmd := by
  unfold log; simp
@[simp] theorem log_rrx (s : State) (a b c d : Nat) (l : List Nat) : (s.log a b c d l).rrx = s.rrx := by
  unfold log; simp
@[simp] theorem log_rsf (s : State) (a b c d : Nat) (l : List Nat) : (s.log a b c d l).rsf = s.rsf := by
  unfold log; simp
@[simp] theorem log_memc (s : State) (a b c d : Nat) (l : List Nat) : (s.log a b c d l).memc = s.memc := by
  unfold log; simp
@[simp] theorem log_zon (s : State) (a b c d : Nat) (l : List Nat) : (s.log a b c d l).zon = s.zon := by
  unfold log; simp
@[simp] theorem log_eve (s : State) (a b c d : Nat) (l : List Nat) : (s.log a b c d l).eve = s.eve := by
  unfold log; simp
@[simp] theorem log_vdc (s : State) (a b c d : Nat) (l : List Nat) : (s.log a b c d l).vdc = s.vdc := by
  unfold log; simp
@[simp] theorem log_cmp (s : State) (a b c d : Nat) (l : List Nat) : (s.log a b c d l).cmp = s.cmp := by
  unfold log; simp
@[simp] theorem log_sco (s : State) (a b c d : Nat) (l : List Nat) : (s.log a b c d l).sco = s.sco := by
  unfold log; simp
@[simp] theorem log_vdcIn (s : State) (a b c d : Nat) (l : List Nat) : (s.log a b c d l).vdcIn = s.vdcIn := by
  unfold log; simp
@[simp] theorem log_cmpIn (s : State) (a b c d : Nat) (l : List Nat) : (s.log a b c d l).cmpIn = s.cmpIn := by
  unfold log; simp
@[simp] theorem log_cmd (s : State) (a b c d : Nat) (l : List Nat) : (s.log a b c d l).cmd = s.cmd := by
  unfold log; simp
@[simp] theorem log_hodQueue (s : State) (a b c d : Nat) (l : List Nat) : (s.log a b c d l).hodQueue = s.hodQueue := by
  unfold log; simp
@[simp] theorem log_hodHeld (s : State) (a b c d : Nat) (l : List Nat) : (s.log a b c d l).hodHeld = s.hodHeld := by
  unfold log; simp
@[simp] theorem log_hif (s : State) (a b c d : Nat) (l : List Nat) : (s.log a b c d l).hif = s.hif := by
  unfold log; simp
@[simp] theorem log_acq (s : State) (a b c d : Nat) (l : List Nat) : (s.log a b c d l).acq = s.acq := by
  unfold log; simp
@[simp] theorem log_ary (s : State) (a b c d : Nat) (l : List Nat) : (s.log a b c d l).ary = s.ary := by
  unfold log; simp
@[simp] theorem log_fresh (s : State) (a b c d : Nat) (l : List Nat) : (s.log a b c d l).fresh = s.fresh := by
  unfold log; simp
@[simp] theorem log_pending (s : State) (a b c d : Nat) (l : List Nat) : (s.log a b c d l).pending = s.pending := by
  unfold log; simp

@[simp] theorem grantHods_shadow (s : State) (u : HodUser) (k : Nat) : (s.grantHods u k).shadow = s.shadow := by simp [grantHods]
@[simp] theorem grantHods_wbuf (s : State) (u : HodUser) (k : Nat) : (s.grantHods u k).wbuf = s.wbuf := by simp [grantHods]
@[simp] theorem grantHods_sram (s : State) (u : HodUser) (k : Nat) : (s.grantHods u k).sram = s.sram := by simp [grantHods]
@[simp] theorem grantHods_dram (s : State) (u : HodUser) (k : Nat) : (s.grantHods u k).dram = s.dram := by simp [grantHods]
@[simp] theorem grantHods_flash (s : State) (u : HodUser) (k : Nat) : (s.grantHods u k).flash = s.flash := by simp [grantHods]
@[simp] theorem grantHods_sys (s : State) (u : HodUser) (k : Nat) : (s.grantHods u k).sys = s.sys := by simp [grantHods]
@[simp] theorem grantHods_syn (s : State) (u : HodUser) (k : Nat) : (s.grantHods u k).syn = s.syn := by simp [grantHods]
@[simp] theorem grantHods_tbu (s : State) (u : HodUser) (k : Nat) : (s.grantHods u k).tbu = s.tbu := by simp [grantHods]
@[simp] theorem grantHods_tdc (s : State) (u : HodUser) (k : Nat) : (s.grantHods u k).tdc = s.tdc := by simp [grantHods]
@[simp] theorem grantHods_ports (s : State) (u : HodUser) (k : Nat) : (s.grantHods u k).ports = s.ports := by simp [grantHods]
@[simp] theorem grantHods_rmd (s : State) (u : HodUser) (k : Nat) : (s.grantHods u k).rmd = s.rmd := by simp [grantHods]
@[simp] theorem grantHods_rrx (s : State) (u : HodUser) (k : Nat) : (s.grantHods u k).rrx = s.rrx := by simp [grantHods]
@[simp] theorem grantHods_rsf (s : State) (u : HodUser) (k : Nat) : (s.grantHods u k).rsf = s.rsf := by simp [grantHods]
@[simp] theorem grantHods_memc (s : State) (u : HodUser) (k : Nat) : (s.grantHods u k).memc = s.memc := by simp [grantHods]
@[simp] theorem grantHods_zon (s : State) (u : HodUser) (k : Nat) : (s.grantHods u k).zon = s.zon := by simp [grantHods]
@[simp] theorem grantHods_eve (s : State) (u : HodUser) (k : Nat) : (s.grantHods u k).eve = s.eve := by simp [grantHods]
@[simp] theorem grantHods_vdc (s : State) (u : HodUser) (k : Nat) : (s.grantHods u k).vdc = s.vdc := by simp [grantHods]
@[simp] theorem grantHods_cmp (s : State) (u : HodUser) (k : Nat) : (s.grantHods u k).cmp = s.cmp := by simp [grantHods]
@[simp] theorem grantHods_sco (s : State) (u : HodUser) (k : Nat) : (s.grantHods u k).sco = s.sco := by simp [grantHods]
@[simp] theorem grantHods_vdcIn (s : State) (u : HodUser) (k : Nat) : (s.grantHods u k).vdcIn = s.vdcIn := by simp [grantHods]
@[simp] theorem grantHods_cmpIn (s : State) (u : HodUser) (k : Nat) : (s.grantHods u k).cmpIn = s.cmpIn := by simp [grantHods]
@[simp] theorem grantHods_cmd (s : State) (u : HodUser) (k : Nat) : (s.grantHods u k).cmd = s.cmd := by simp [grantHods]
@[simp] theorem grantHods_hodQueue (s : State) (u : HodUser) (k : Nat) : (s.grantHods u k).hodQueue = s.hodQueue := by simp [grantHods]
@[simp] theorem grantHods_streams (s : State) (u : HodUser) (k : Nat) : (s.grantHods u k).streams = s.streams := by simp [grantHods]
@[simp] theorem grantHods_hif (s : State) (u : HodUser) (k : Nat) : (s.grantHods u k).hif = s.hif := by simp [grantHods]
@[simp] theorem grantHods_acq (s : State) (u : HodUser) (k : Nat) : (s.grantHods u k).acq = s.acq := by simp [grantHods]
@[simp] theorem grantHods_ary (s : State) (u : HodUser) (k : Nat) : (s.grantHods u k).ary = s.ary := by simp [grantHods]
@[simp] theorem grantHods_mgt (s : State) (u : HodUser) (k : Nat) : (s.grantHods u k).mgt = s.mgt := by simp [grantHods]
@[simp] theorem grantHods_fresh (s : State) (u : HodUser) (k : Nat) : (s.grantHods u k).fresh = s.fresh := by simp [grantHods]
@[simp] theorem grantHods_pending (s : State) (u : HodUser) (k : Nat) : (s.grantHods u k).pending = s.pending := by simp [grantHods]

@[simp] theorem releaseHods_shadow (s : State) (u : HodUser) : (s.releaseHods u).shadow = s.shadow := rfl
@[simp] theorem releaseHods_wbuf (s : State) (u : HodUser) : (s.releaseHods u).wbuf = s.wbuf := rfl
@[simp] theorem releaseHods_sram (s : State) (u : HodUser) : (s.releaseHods u).sram = s.sram := rfl
@[simp] theorem releaseHods_dram (s : State) (u : HodUser) : (s.releaseHods u).dram = s.dram := rfl
@[simp] theorem releaseHods_flash (s : State) (u : HodUser) : (s.releaseHods u).flash = s.flash := rfl
@[simp] theorem releaseHods_sys (s : State) (u : HodUser) : (s.releaseHods u).sys = s.sys := rfl
@[simp] theorem releaseHods_syn (s : State) (u : HodUser) : (s.releaseHods u).syn = s.syn := rfl
@[simp] theorem releaseHods_tbu (s : State) (u : HodUser) : (s.releaseHods u).tbu = s.tbu := rfl
@[simp] theorem releaseHods_tdc (s : State) (u : HodUser) : (s.releaseHods u).tdc = s.tdc := rfl
@[simp] theorem releaseHods_ports (s : State) (u : HodUser) : (s.releaseHods u).ports = s.ports := rfl
@[simp] theorem releaseHods_rmd (s : State) (u : HodUser) : (s.releaseHods u).rmd = s.rmd := rfl
@[simp] theorem releaseHods_rrx (s : State) (u : HodUser) : (s.releaseHods u).rrx = s.rrx := rfl
@[simp] theorem releaseHods_rsf (s : State) (u : HodUser) : (s.releaseHods u).rsf = s.rsf := rfl
@[simp] theorem releaseHods_memc (s : State) (u : HodUser) : (s.releaseHods u).memc = s.memc := rfl
@[simp] theorem releaseHods_zon (s : State) (u : HodUser) : (s.releaseHods u).zon = s.zon := rfl
@[simp] theorem releaseHods_eve (s : State) (u : HodUser) : (s.releaseHods u).eve = s.eve := rfl
@[simp] theorem releaseHods_vdc (s : State) (u : HodUser) : (s.releaseHods u).vdc = s.vdc := rfl
@[simp] theorem releaseHods_cmp (s : State) (u : HodUser) : (s.releaseHods u).cmp = s.cmp := rfl
@[simp] theorem releaseHods_sco (s : State) (u : HodUser) : (s.releaseHods u).sco = s.sco := rfl
@[simp] theorem releaseHods_vdcIn (s : State) (u : HodUser) : (s.releaseHods u).vdcIn = s.vdcIn := rfl
@[simp] theorem releaseHods_cmpIn (s : State) (u : HodUser) : (s.releaseHods u).cmpIn = s.cmpIn := rfl
@[simp] theorem releaseHods_cmd (s : State) (u : HodUser) : (s.releaseHods u).cmd = s.cmd := rfl
@[simp] theorem releaseHods_hodQueue (s : State) (u : HodUser) : (s.releaseHods u).hodQueue = s.hodQueue := rfl
@[simp] theorem releaseHods_streams (s : State) (u : HodUser) : (s.releaseHods u).streams = s.streams := rfl
@[simp] theorem releaseHods_hif (s : State) (u : HodUser) : (s.releaseHods u).hif = s.hif := rfl
@[simp] theorem releaseHods_acq (s : State) (u : HodUser) : (s.releaseHods u).acq = s.acq := rfl
@[simp] theorem releaseHods_ary (s : State) (u : HodUser) : (s.releaseHods u).ary = s.ary := rfl
@[simp] theorem releaseHods_mgt (s : State) (u : HodUser) : (s.releaseHods u).mgt = s.mgt := rfl
@[simp] theorem releaseHods_fresh (s : State) (u : HodUser) : (s.releaseHods u).fresh = s.fresh := rfl
@[simp] theorem releaseHods_out (s : State) (u : HodUser) : (s.releaseHods u).out = s.out := rfl
@[simp] theorem releaseHods_pending (s : State) (u : HodUser) : (s.releaseHods u).pending = s.pending := rfl

@[simp] theorem withdrawHods_shadow (s : State) (u : HodUser) : (s.withdrawHods u).shadow = s.shadow := rfl
@[simp] theorem withdrawHods_wbuf (s : State) (u : HodUser) : (s.withdrawHods u).wbuf = s.wbuf := rfl
@[simp] theorem withdrawHods_sram (s : State) (u : HodUser) : (s.withdrawHods u).sram = s.sram := rfl
@[simp] theorem withdrawHods_dram (s : State) (u : HodUser) : (s.withdrawHods u).dram = s.dram := rfl
@[simp] theorem withdrawHods_flash (s : State) (u : HodUser) : (s.withdrawHods u).flash = s.flash := rfl
@[simp] theorem withdrawHods_sys (s : State) (u : HodUser) : (s.withdrawHods u).sys = s.sys := rfl
@[simp] theorem withdrawHods_syn (s : State) (u : HodUser) : (s.withdrawHods u).syn = s.syn := rfl
@[simp] theorem withdrawHods_tbu (s : State) (u : HodUser) : (s.withdrawHods u).tbu = s.tbu := rfl
@[simp] theorem withdrawHods_tdc (s : State) (u : HodUser) : (s.withdrawHods u).tdc = s.tdc := rfl
@[simp] theorem withdrawHods_ports (s : State) (u : HodUser) : (s.withdrawHods u).ports = s.ports := rfl
@[simp] theorem withdrawHods_rmd (s : State) (u : HodUser) : (s.withdrawHods u).rmd = s.rmd := rfl
@[simp] theorem withdrawHods_rrx (s : State) (u : HodUser) : (s.withdrawHods u).rrx = s.rrx := rfl
@[simp] theorem withdrawHods_rsf (s : State) (u : HodUser) : (s.withdrawHods u).rsf = s.rsf := rfl
@[simp] theorem withdrawHods_memc (s : State) (u : HodUser) : (s.withdrawHods u).memc = s.memc := rfl
@[simp] theorem withdrawHods_zon (s : State) (u : HodUser) : (s.withdrawHods u).zon = s.zon := rfl
@[simp] theorem withdrawHods_eve (s : State) (u : HodUser) : (s.withdrawHods u).eve = s.eve := rfl
@[simp] theorem withdrawHods_vdc (s : State) (u : HodUser) : (s.withdrawHods u).vdc = s.vdc := rfl
@[simp] theorem withdrawHods_cmp (s : State) (u : HodUser) : (s.withdrawHods u).cmp = s.cmp := rfl
@[simp] theorem withdrawHods_sco (s : State) (u : HodUser) : (s.withdrawHods u).sco = s.sco := rfl
@[simp] theorem withdrawHods_vdcIn (s : State) (u : HodUser) : (s.withdrawHods u).vdcIn = s.vdcIn := rfl
@[simp] theorem withdrawHods_cmpIn (s : State) (u : HodUser) : (s.withdrawHods u).cmpIn = s.cmpIn := rfl
@[simp] theorem withdrawHods_cmd (s : State) (u : HodUser) : (s.withdrawHods u).cmd = s.cmd := rfl
@[simp] theorem withdrawHods_hodHeld (s : State) (u : HodUser) : (s.withdrawHods u).hodHeld = s.hodHeld := rfl
@[simp] theorem withdrawHods_streams (s : State) (u : HodUser) : (s.withdrawHods u).streams = s.streams := rfl
@[simp] theorem withdrawHods_hif (s : State) (u : HodUser) : (s.withdrawHods u).hif = s.hif := rfl
@[simp] theorem withdrawHods_acq (s : State) (u : HodUser) : (s.withdrawHods u).acq = s.acq := rfl
@[simp] theorem withdrawHods_ary (s : State) (u : HodUser) : (s.withdrawHods u).ary = s.ary := rfl
@[simp] theorem withdrawHods_mgt (s : State) (u : HodUser) : (s.withdrawHods u).mgt = s.mgt := rfl
@[simp] theorem withdrawHods_fresh (s : State) (u : HodUser) : (s.withdrawHods u).fresh = s.fresh := rfl
@[simp] theorem withdrawHods_out (s : State) (u : HodUser) : (s.withdrawHods u).out = s.out := rfl
@[simp] theorem withdrawHods_pending (s : State) (u : HodUser) : (s.withdrawHods u).pending = s.pending := rfl

@[simp] theorem cqSignal_shadow (s : State) : (s.cqSignal ).shadow = s.shadow := by unfold cqSignal; dsimp only; split <;> simp
@[simp] theorem cqSignal_wbuf (s : State) : (s.cqSignal ).wbuf = s.wbuf := by unfold cqSignal; dsimp only; split <;> simp
@[simp] theorem cqSignal_sram (s : State) : (s.cqSignal ).sram = s.sram := by unfold cqSignal; dsimp only; split <;> simp
@[simp] theorem cqSignal_dram (s : State) : (s.cqSignal ).dram = s.dram := by unfold cqSignal; dsimp only; split <;> simp
@[simp] theorem cqSignal_flash (s : State) : (s.cqSignal ).flash = s.flash := by unfold cqSignal; dsimp only; split <;> simp
@[simp] theorem cqSignal_sys (s : State) : (s.cqSignal ).sys = s.sys := by unfold cqSignal; dsimp only; split <;> simp
@[simp] theorem cqSignal_syn (s : State) : (s.cqSignal ).syn = s.syn := by unfold cqSignal; dsimp only; split <;> simp
@[simp] theorem cqSignal_tbu (s : State) : (s.cqSignal ).tbu = s.tbu := by unfold cqSignal; dsimp only; split <;> simp
@[simp] theorem cqSignal_tdc (s : State) : (s.cqSignal ).tdc = s.tdc := by unfold cqSignal; dsimp only; split <;> simp
@[simp] theorem cqSignal_ports (s : State) : (s.cqSignal ).ports = s.ports := by unfold cqSignal; dsimp only; split <;> simp
@[simp] theorem cqSignal_rmd (s : State) : (s.cqSignal ).rmd = s.rmd := by unfold cqSignal; dsimp only; split <;> simp
@[simp] theorem cqSignal_rrx (s : State) : (s.cqSignal ).rrx = s.rrx := by unfold cqSignal; dsimp only; split <;> simp
@[simp] theorem cqSignal_rsf (s : State) : (s.cqSignal ).rsf = s.rsf := by unfold cqSignal; dsimp only; split <;> simp
@[simp] theorem cqSignal_memc (s : State) : (s.cqSignal ).memc = s.memc := by unfold cqSignal; dsimp only; split <;> simp
@[simp] theorem cqSignal_zon (s : State) : (s.cqSignal ).zon = s.zon := by unfold cqSignal; dsimp only; split <;> simp
@[simp] theorem cqSignal_eve (s : State) : (s.cqSignal ).eve = s.eve := by unfold cqSignal; dsimp only; split <;> simp
@[simp] theorem cqSignal_vdc (s : State) : (s.cqSignal ).vdc = s.vdc := by unfold cqSignal; dsimp only; split <;> simp
@[simp] theorem cqSignal_cmp (s : State) : (s.cqSignal ).cmp = s.cmp := by unfold cqSignal; dsimp only; split <;> simp
@[simp] theorem cqSignal_sco (s : State) : (s.cqSignal ).sco = s.sco := by unfold cqSignal; dsimp only; split <;> simp
@[simp] theorem cqSignal_vdcIn (s : State) : (s.cqSignal ).vdcIn = s.vdcIn := by unfold cqSignal; dsimp only; split <;> simp
@[simp] theorem cqSignal_cmpIn (s : State) : (s.cqSignal ).cmpIn = s.cmpIn := by unfold cqSignal; dsimp only; split <;> simp
@[simp] theorem cqSignal_cmd (s : State) : (s.cqSignal ).cmd = s.cmd := by unfold cqSignal; dsimp only; split <;> simp
@[simp] theorem cqSignal_hodQueue (s : State) : (s.cqSignal ).hodQueue = s.hodQueue := by unfold cqSignal; dsimp only; split <;> simp
@[simp] theorem cqSignal_hodHeld (s : State) : (s.cqSignal ).hodHeld = s.hodHeld := by unfold cqSignal; dsimp only; split <;> simp
@[simp] theorem cqSignal_streams (s : State) : (s.cqSignal ).streams = s.streams := by unfold cqSignal; dsimp only; split <;> simp
@[simp] theorem cqSignal_acq (s : State) : (s.cqSignal ).acq = s.acq := by unfold cqSignal; dsimp only; split <;> simp
@[simp] theorem cqSignal_ary (s : State) : (s.cqSignal ).ary = s.ary := by unfold cqSignal; dsimp only; split <;> simp
@[simp] theorem cqSignal_mgt (s : State) : (s.cqSignal ).mgt = s.mgt := by unfold cqSignal; dsimp only; split <;> simp
@[simp] theorem cqSignal_fresh (s : State) : (s.cqSignal ).fresh = s.fresh := by unfold cqSignal; dsimp only; split <;> simp
@[simp] theorem cqSignal_pending (s : State) : (s.cqSignal ).pending = s.pending := by unfold cqSignal; dsimp only; split <;> simp

@[simp] theorem tagFree_regs (s : State) (q : Requester) (t : Nat) : (s.tagFree q t).regs = s.regs := rfl
@[simp] theorem tagFree_shadow (s : State) (q : Requester) (t : Nat) : (s.tagFree q t).shadow = s.shadow := rfl
@[simp] theorem tagFree_wbuf (s : State) (q : Requester) (t : Nat) : (s.tagFree q t).wbuf = s.wbuf := rfl
@[simp] theorem tagFree_sram (s : State) (q : Requester) (t : Nat) : (s.tagFree q t).sram = s.sram := rfl
@[simp] theorem tagFree_dram (s : State) (q : Requester) (t : Nat) : (s.tagFree q t).dram = s.dram := rfl
@[simp] theorem tagFree_flash (s : State) (q : Requester) (t : Nat) : (s.tagFree q t).flash = s.flash := rfl
@[simp] theorem tagFree_sys (s : State) (q : Requester) (t : Nat) : (s.tagFree q t).sys = s.sys := rfl
@[simp] theorem tagFree_syn (s : State) (q : Requester) (t : Nat) : (s.tagFree q t).syn = s.syn := rfl
@[simp] theorem tagFree_tbu (s : State) (q : Requester) (t : Nat) : (s.tagFree q t).tbu = s.tbu := rfl
@[simp] theorem tagFree_tdc (s : State) (q : Requester) (t : Nat) : (s.tagFree q t).tdc = s.tdc := rfl
@[simp] theorem tagFree_ports (s : State) (q : Requester) (t : Nat) : (s.tagFree q t).ports = s.ports := rfl
@[simp] theorem tagFree_rmd (s : State) (q : Requester) (t : Nat) : (s.tagFree q t).rmd = s.rmd := rfl
@[simp] theorem tagFree_rrx (s : State) (q : Requester) (t : Nat) : (s.tagFree q t).rrx = s.rrx := rfl
@[simp] theorem tagFree_rsf (s : State) (q : Requester) (t : Nat) : (s.tagFree q t).rsf = s.rsf := rfl
@[simp] theorem tagFree_memc (s : State) (q : Requester) (t : Nat) : (s.tagFree q t).memc = s.memc := rfl
@[simp] theorem tagFree_zon (s : State) (q : Requester) (t : Nat) : (s.tagFree q t).zon = s.zon := rfl
@[simp] theorem tagFree_eve (s : State) (q : Requester) (t : Nat) : (s.tagFree q t).eve = s.eve := rfl
@[simp] theorem tagFree_vdc (s : State) (q : Requester) (t : Nat) : (s.tagFree q t).vdc = s.vdc := rfl
@[simp] theorem tagFree_cmp (s : State) (q : Requester) (t : Nat) : (s.tagFree q t).cmp = s.cmp := rfl
@[simp] theorem tagFree_sco (s : State) (q : Requester) (t : Nat) : (s.tagFree q t).sco = s.sco := rfl
@[simp] theorem tagFree_vdcIn (s : State) (q : Requester) (t : Nat) : (s.tagFree q t).vdcIn = s.vdcIn := rfl
@[simp] theorem tagFree_cmpIn (s : State) (q : Requester) (t : Nat) : (s.tagFree q t).cmpIn = s.cmpIn := rfl
@[simp] theorem tagFree_hodQueue (s : State) (q : Requester) (t : Nat) : (s.tagFree q t).hodQueue = s.hodQueue := rfl
@[simp] theorem tagFree_hodHeld (s : State) (q : Requester) (t : Nat) : (s.tagFree q t).hodHeld = s.hodHeld := rfl
@[simp] theorem tagFree_streams (s : State) (q : Requester) (t : Nat) : (s.tagFree q t).streams = s.streams := rfl
@[simp] theorem tagFree_hif (s : State) (q : Requester) (t : Nat) : (s.tagFree q t).hif = s.hif := rfl
@[simp] theorem tagFree_acq (s : State) (q : Requester) (t : Nat) : (s.tagFree q t).acq = s.acq := rfl
@[simp] theorem tagFree_ary (s : State) (q : Requester) (t : Nat) : (s.tagFree q t).ary = s.ary := rfl
@[simp] theorem tagFree_mgt (s : State) (q : Requester) (t : Nat) : (s.tagFree q t).mgt = s.mgt := rfl
@[simp] theorem tagFree_fresh (s : State) (q : Requester) (t : Nat) : (s.tagFree q t).fresh = s.fresh := rfl
@[simp] theorem tagFree_out (s : State) (q : Requester) (t : Nat) : (s.tagFree q t).out = s.out := rfl
@[simp] theorem tagFree_pending (s : State) (q : Requester) (t : Nat) : (s.tagFree q t).pending = s.pending := rfl

@[simp] theorem completed_regs (s : State) (c : Completion) : (s.completed c).regs = s.regs := by unfold completed; split <;> rfl
@[simp] theorem completed_shadow (s : State) (c : Completion) : (s.completed c).shadow = s.shadow := by unfold completed; split <;> rfl
@[simp] theorem completed_wbuf (s : State) (c : Completion) : (s.completed c).wbuf = s.wbuf := by unfold completed; split <;> rfl
@[simp] theorem completed_sram (s : State) (c : Completion) : (s.completed c).sram = s.sram := by unfold completed; split <;> rfl
@[simp] theorem completed_dram (s : State) (c : Completion) : (s.completed c).dram = s.dram := by unfold completed; split <;> rfl
@[simp] theorem completed_flash (s : State) (c : Completion) : (s.completed c).flash = s.flash := by unfold completed; split <;> rfl
@[simp] theorem completed_sys (s : State) (c : Completion) : (s.completed c).sys = s.sys := by unfold completed; split <;> rfl
@[simp] theorem completed_syn (s : State) (c : Completion) : (s.completed c).syn = s.syn := by unfold completed; split <;> rfl
@[simp] theorem completed_tbu (s : State) (c : Completion) : (s.completed c).tbu = s.tbu := by unfold completed; split <;> rfl
@[simp] theorem completed_tdc (s : State) (c : Completion) : (s.completed c).tdc = s.tdc := by unfold completed; split <;> rfl
@[simp] theorem completed_ports (s : State) (c : Completion) : (s.completed c).ports = s.ports := by unfold completed; split <;> rfl
@[simp] theorem completed_rmd (s : State) (c : Completion) : (s.completed c).rmd = s.rmd := by unfold completed; split <;> rfl
@[simp] theorem completed_rrx (s : State) (c : Completion) : (s.completed c).rrx = s.rrx := by unfold completed; split <;> rfl
@[simp] theorem completed_rsf (s : State) (c : Completion) : (s.completed c).rsf = s.rsf := by unfold completed; split <;> rfl
@[simp] theorem completed_memc (s : State) (c : Completion) : (s.completed c).memc = s.memc := by unfold completed; split <;> rfl
@[simp] theorem completed_zon (s : State) (c : Completion) : (s.completed c).zon = s.zon := by unfold completed; split <;> rfl
@[simp] theorem completed_eve (s : State) (c : Completion) : (s.completed c).eve = s.eve := by unfold completed; split <;> rfl
@[simp] theorem completed_vdc (s : State) (c : Completion) : (s.completed c).vdc = s.vdc := by unfold completed; split <;> rfl
@[simp] theorem completed_cmp (s : State) (c : Completion) : (s.completed c).cmp = s.cmp := by unfold completed; split <;> rfl
@[simp] theorem completed_sco (s : State) (c : Completion) : (s.completed c).sco = s.sco := by unfold completed; split <;> rfl
@[simp] theorem completed_vdcIn (s : State) (c : Completion) : (s.completed c).vdcIn = s.vdcIn := by unfold completed; split <;> rfl
@[simp] theorem completed_cmpIn (s : State) (c : Completion) : (s.completed c).cmpIn = s.cmpIn := by unfold completed; split <;> rfl
@[simp] theorem completed_hodQueue (s : State) (c : Completion) : (s.completed c).hodQueue = s.hodQueue := by unfold completed; split <;> rfl
@[simp] theorem completed_hodHeld (s : State) (c : Completion) : (s.completed c).hodHeld = s.hodHeld := by unfold completed; split <;> rfl
@[simp] theorem completed_streams (s : State) (c : Completion) : (s.completed c).streams = s.streams := by unfold completed; split <;> rfl
@[simp] theorem completed_hif (s : State) (c : Completion) : (s.completed c).hif = s.hif := by unfold completed; split <;> rfl
@[simp] theorem completed_acq (s : State) (c : Completion) : (s.completed c).acq = s.acq := by unfold completed; split <;> rfl
@[simp] theorem completed_ary (s : State) (c : Completion) : (s.completed c).ary = s.ary := by unfold completed; split <;> rfl
@[simp] theorem completed_mgt (s : State) (c : Completion) : (s.completed c).mgt = s.mgt := by unfold completed; split <;> rfl
@[simp] theorem completed_fresh (s : State) (c : Completion) : (s.completed c).fresh = s.fresh := by unfold completed; split <;> rfl
@[simp] theorem completed_out (s : State) (c : Completion) : (s.completed c).out = s.out := by unfold completed; split <;> rfl
@[simp] theorem completed_pending (s : State) (c : Completion) : (s.completed c).pending = s.pending := by unfold completed; split <;> rfl

@[simp] theorem completionLost_shadow (s : State) (c : Completion) : (s.completionLost c).shadow = s.shadow := by simp [completionLost]
@[simp] theorem completionLost_wbuf (s : State) (c : Completion) : (s.completionLost c).wbuf = s.wbuf := by simp [completionLost]
@[simp] theorem completionLost_sram (s : State) (c : Completion) : (s.completionLost c).sram = s.sram := by simp [completionLost]
@[simp] theorem completionLost_dram (s : State) (c : Completion) : (s.completionLost c).dram = s.dram := by simp [completionLost]
@[simp] theorem completionLost_flash (s : State) (c : Completion) : (s.completionLost c).flash = s.flash := by simp [completionLost]
@[simp] theorem completionLost_sys (s : State) (c : Completion) : (s.completionLost c).sys = s.sys := by simp [completionLost]
@[simp] theorem completionLost_syn (s : State) (c : Completion) : (s.completionLost c).syn = s.syn := by simp [completionLost]
@[simp] theorem completionLost_tbu (s : State) (c : Completion) : (s.completionLost c).tbu = s.tbu := by simp [completionLost]
@[simp] theorem completionLost_tdc (s : State) (c : Completion) : (s.completionLost c).tdc = s.tdc := by simp [completionLost]
@[simp] theorem completionLost_ports (s : State) (c : Completion) : (s.completionLost c).ports = s.ports := by simp [completionLost]
@[simp] theorem completionLost_rmd (s : State) (c : Completion) : (s.completionLost c).rmd = s.rmd := by simp [completionLost]
@[simp] theorem completionLost_rrx (s : State) (c : Completion) : (s.completionLost c).rrx = s.rrx := by simp [completionLost]
@[simp] theorem completionLost_rsf (s : State) (c : Completion) : (s.completionLost c).rsf = s.rsf := by simp [completionLost]
@[simp] theorem completionLost_memc (s : State) (c : Completion) : (s.completionLost c).memc = s.memc := by simp [completionLost]
@[simp] theorem completionLost_zon (s : State) (c : Completion) : (s.completionLost c).zon = s.zon := by simp [completionLost]
@[simp] theorem completionLost_eve (s : State) (c : Completion) : (s.completionLost c).eve = s.eve := by simp [completionLost]
@[simp] theorem completionLost_vdc (s : State) (c : Completion) : (s.completionLost c).vdc = s.vdc := by simp [completionLost]
@[simp] theorem completionLost_cmp (s : State) (c : Completion) : (s.completionLost c).cmp = s.cmp := by simp [completionLost]
@[simp] theorem completionLost_sco (s : State) (c : Completion) : (s.completionLost c).sco = s.sco := by simp [completionLost]
@[simp] theorem completionLost_vdcIn (s : State) (c : Completion) : (s.completionLost c).vdcIn = s.vdcIn := by simp [completionLost]
@[simp] theorem completionLost_cmpIn (s : State) (c : Completion) : (s.completionLost c).cmpIn = s.cmpIn := by simp [completionLost]
@[simp] theorem completionLost_hodQueue (s : State) (c : Completion) : (s.completionLost c).hodQueue = s.hodQueue := by simp [completionLost]
@[simp] theorem completionLost_hodHeld (s : State) (c : Completion) : (s.completionLost c).hodHeld = s.hodHeld := by simp [completionLost]
@[simp] theorem completionLost_streams (s : State) (c : Completion) : (s.completionLost c).streams = s.streams := by simp [completionLost]
@[simp] theorem completionLost_hif (s : State) (c : Completion) : (s.completionLost c).hif = s.hif := by simp [completionLost]
@[simp] theorem completionLost_acq (s : State) (c : Completion) : (s.completionLost c).acq = s.acq := by simp [completionLost]
@[simp] theorem completionLost_ary (s : State) (c : Completion) : (s.completionLost c).ary = s.ary := by simp [completionLost]
@[simp] theorem completionLost_mgt (s : State) (c : Completion) : (s.completionLost c).mgt = s.mgt := by simp [completionLost]
@[simp] theorem completionLost_fresh (s : State) (c : Completion) : (s.completionLost c).fresh = s.fresh := by simp [completionLost]
@[simp] theorem completionLost_out (s : State) (c : Completion) : (s.completionLost c).out = s.out := by simp [completionLost]
@[simp] theorem completionLost_pending (s : State) (c : Completion) : (s.completionLost c).pending = s.pending := by simp [completionLost]

@[simp] theorem writeCompletion_shadow (s : State) (c : Completion) : (s.writeCompletion c).shadow = s.shadow := by
  unfold writeCompletion; dsimp only; split <;> split <;> simp
@[simp] theorem writeCompletion_wbuf (s : State) (c : Completion) : (s.writeCompletion c).wbuf = s.wbuf := by
  unfold writeCompletion; dsimp only; split <;> split <;> simp
@[simp] theorem writeCompletion_sram (s : State) (c : Completion) : (s.writeCompletion c).sram = s.sram := by
  unfold writeCompletion; dsimp only; split <;> split <;> simp
@[simp] theorem writeCompletion_dram (s : State) (c : Completion) : (s.writeCompletion c).dram = s.dram := by
  unfold writeCompletion; dsimp only; split <;> split <;> simp
@[simp] theorem writeCompletion_flash (s : State) (c : Completion) : (s.writeCompletion c).flash = s.flash := by
  unfold writeCompletion; dsimp only; split <;> split <;> simp
@[simp] theorem writeCompletion_sys (s : State) (c : Completion) : (s.writeCompletion c).sys = s.sys := by
  unfold writeCompletion; dsimp only; split <;> split <;> simp
@[simp] theorem writeCompletion_syn (s : State) (c : Completion) : (s.writeCompletion c).syn = s.syn := by
  unfold writeCompletion; dsimp only; split <;> split <;> simp
@[simp] theorem writeCompletion_tbu (s : State) (c : Completion) : (s.writeCompletion c).tbu = s.tbu := by
  unfold writeCompletion; dsimp only; split <;> split <;> simp
@[simp] theorem writeCompletion_tdc (s : State) (c : Completion) : (s.writeCompletion c).tdc = s.tdc := by
  unfold writeCompletion; dsimp only; split <;> split <;> simp
@[simp] theorem writeCompletion_ports (s : State) (c : Completion) : (s.writeCompletion c).ports = s.ports := by
  unfold writeCompletion; dsimp only; split <;> split <;> simp
@[simp] theorem writeCompletion_rmd (s : State) (c : Completion) : (s.writeCompletion c).rmd = s.rmd := by
  unfold writeCompletion; dsimp only; split <;> split <;> simp
@[simp] theorem writeCompletion_rrx (s : State) (c : Completion) : (s.writeCompletion c).rrx = s.rrx := by
  unfold writeCompletion; dsimp only; split <;> split <;> simp
@[simp] theorem writeCompletion_rsf (s : State) (c : Completion) : (s.writeCompletion c).rsf = s.rsf := by
  unfold writeCompletion; dsimp only; split <;> split <;> simp
@[simp] theorem writeCompletion_memc (s : State) (c : Completion) : (s.writeCompletion c).memc = s.memc := by
  unfold writeCompletion; dsimp only; split <;> split <;> simp
@[simp] theorem writeCompletion_zon (s : State) (c : Completion) : (s.writeCompletion c).zon = s.zon := by
  unfold writeCompletion; dsimp only; split <;> split <;> simp
@[simp] theorem writeCompletion_eve (s : State) (c : Completion) : (s.writeCompletion c).eve = s.eve := by
  unfold writeCompletion; dsimp only; split <;> split <;> simp
@[simp] theorem writeCompletion_vdc (s : State) (c : Completion) : (s.writeCompletion c).vdc = s.vdc := by
  unfold writeCompletion; dsimp only; split <;> split <;> simp
@[simp] theorem writeCompletion_cmp (s : State) (c : Completion) : (s.writeCompletion c).cmp = s.cmp := by
  unfold writeCompletion; dsimp only; split <;> split <;> simp
@[simp] theorem writeCompletion_sco (s : State) (c : Completion) : (s.writeCompletion c).sco = s.sco := by
  unfold writeCompletion; dsimp only; split <;> split <;> simp
@[simp] theorem writeCompletion_vdcIn (s : State) (c : Completion) : (s.writeCompletion c).vdcIn = s.vdcIn := by
  unfold writeCompletion; dsimp only; split <;> split <;> simp
@[simp] theorem writeCompletion_cmpIn (s : State) (c : Completion) : (s.writeCompletion c).cmpIn = s.cmpIn := by
  unfold writeCompletion; dsimp only; split <;> split <;> simp
@[simp] theorem writeCompletion_hodQueue (s : State) (c : Completion) : (s.writeCompletion c).hodQueue = s.hodQueue := by
  unfold writeCompletion; dsimp only; split <;> split <;> simp
@[simp] theorem writeCompletion_hodHeld (s : State) (c : Completion) : (s.writeCompletion c).hodHeld = s.hodHeld := by
  unfold writeCompletion; dsimp only; split <;> split <;> simp
@[simp] theorem writeCompletion_streams (s : State) (c : Completion) : (s.writeCompletion c).streams = s.streams := by
  unfold writeCompletion; dsimp only; split <;> split <;> simp
@[simp] theorem writeCompletion_acq (s : State) (c : Completion) : (s.writeCompletion c).acq = s.acq := by
  unfold writeCompletion; dsimp only; split <;> split <;> simp
@[simp] theorem writeCompletion_ary (s : State) (c : Completion) : (s.writeCompletion c).ary = s.ary := by
  unfold writeCompletion; dsimp only; split <;> split <;> simp
@[simp] theorem writeCompletion_mgt (s : State) (c : Completion) : (s.writeCompletion c).mgt = s.mgt := by
  unfold writeCompletion; dsimp only; split <;> split <;> simp
@[simp] theorem writeCompletion_fresh (s : State) (c : Completion) : (s.writeCompletion c).fresh = s.fresh := by
  unfold writeCompletion; dsimp only; split <;> split <;> simp
@[simp] theorem writeCompletion_pending (s : State) (c : Completion) : (s.writeCompletion c).pending = s.pending := by
  unfold writeCompletion; dsimp only; split <;> split <;> simp

@[simp] theorem sendCompletion_shadow (s : State) (c : Completion) : (s.sendCompletion c).shadow = s.shadow := by
  unfold sendCompletion; split
  · simp
  · split
    · simp
    · split
      · dsimp only; split <;> simp
      · simp
@[simp] theorem sendCompletion_wbuf (s : State) (c : Completion) : (s.sendCompletion c).wbuf = s.wbuf := by
  unfold sendCompletion; split
  · simp
  · split
    · simp
    · split
      · dsimp only; split <;> simp
      · simp
@[simp] theorem sendCompletion_sram (s : State) (c : Completion) : (s.sendCompletion c).sram = s.sram := by
  unfold sendCompletion; split
  · simp
  · split
    · simp
    · split
      · dsimp only; split <;> simp
      · simp
@[simp] theorem sendCompletion_dram (s : State) (c : Completion) : (s.sendCompletion c).dram = s.dram := by
  unfold sendCompletion; split
  · simp
  · split
    · simp
    · split
      · dsimp only; split <;> simp
      · simp
@[simp] theorem sendCompletion_flash (s : State) (c : Completion) : (s.sendCompletion c).flash = s.flash := by
  unfold sendCompletion; split
  · simp
  · split
    · simp
    · split
      · dsimp only; split <;> simp
      · simp
@[simp] theorem sendCompletion_sys (s : State) (c : Completion) : (s.sendCompletion c).sys = s.sys := by
  unfold sendCompletion; split
  · simp
  · split
    · simp
    · split
      · dsimp only; split <;> simp
      · simp
@[simp] theorem sendCompletion_syn (s : State) (c : Completion) : (s.sendCompletion c).syn = s.syn := by
  unfold sendCompletion; split
  · simp
  · split
    · simp
    · split
      · dsimp only; split <;> simp
      · simp
@[simp] theorem sendCompletion_tbu (s : State) (c : Completion) : (s.sendCompletion c).tbu = s.tbu := by
  unfold sendCompletion; split
  · simp
  · split
    · simp
    · split
      · dsimp only; split <;> simp
      · simp
@[simp] theorem sendCompletion_tdc (s : State) (c : Completion) : (s.sendCompletion c).tdc = s.tdc := by
  unfold sendCompletion; split
  · simp
  · split
    · simp
    · split
      · dsimp only; split <;> simp
      · simp
@[simp] theorem sendCompletion_ports (s : State) (c : Completion) : (s.sendCompletion c).ports = s.ports := by
  unfold sendCompletion; split
  · simp
  · split
    · simp
    · split
      · dsimp only; split <;> simp
      · simp
@[simp] theorem sendCompletion_rmd (s : State) (c : Completion) : (s.sendCompletion c).rmd = s.rmd := by
  unfold sendCompletion; split
  · simp
  · split
    · simp
    · split
      · dsimp only; split <;> simp
      · simp
@[simp] theorem sendCompletion_rrx (s : State) (c : Completion) : (s.sendCompletion c).rrx = s.rrx := by
  unfold sendCompletion; split
  · simp
  · split
    · simp
    · split
      · dsimp only; split <;> simp
      · simp
@[simp] theorem sendCompletion_rsf (s : State) (c : Completion) : (s.sendCompletion c).rsf = s.rsf := by
  unfold sendCompletion; split
  · simp
  · split
    · simp
    · split
      · dsimp only; split <;> simp
      · simp
@[simp] theorem sendCompletion_memc (s : State) (c : Completion) : (s.sendCompletion c).memc = s.memc := by
  unfold sendCompletion; split
  · simp
  · split
    · simp
    · split
      · dsimp only; split <;> simp
      · simp
@[simp] theorem sendCompletion_zon (s : State) (c : Completion) : (s.sendCompletion c).zon = s.zon := by
  unfold sendCompletion; split
  · simp
  · split
    · simp
    · split
      · dsimp only; split <;> simp
      · simp
@[simp] theorem sendCompletion_eve (s : State) (c : Completion) : (s.sendCompletion c).eve = s.eve := by
  unfold sendCompletion; split
  · simp
  · split
    · simp
    · split
      · dsimp only; split <;> simp
      · simp
@[simp] theorem sendCompletion_vdc (s : State) (c : Completion) : (s.sendCompletion c).vdc = s.vdc := by
  unfold sendCompletion; split
  · simp
  · split
    · simp
    · split
      · dsimp only; split <;> simp
      · simp
@[simp] theorem sendCompletion_cmp (s : State) (c : Completion) : (s.sendCompletion c).cmp = s.cmp := by
  unfold sendCompletion; split
  · simp
  · split
    · simp
    · split
      · dsimp only; split <;> simp
      · simp
@[simp] theorem sendCompletion_sco (s : State) (c : Completion) : (s.sendCompletion c).sco = s.sco := by
  unfold sendCompletion; split
  · simp
  · split
    · simp
    · split
      · dsimp only; split <;> simp
      · simp
@[simp] theorem sendCompletion_vdcIn (s : State) (c : Completion) : (s.sendCompletion c).vdcIn = s.vdcIn := by
  unfold sendCompletion; split
  · simp
  · split
    · simp
    · split
      · dsimp only; split <;> simp
      · simp
@[simp] theorem sendCompletion_cmpIn (s : State) (c : Completion) : (s.sendCompletion c).cmpIn = s.cmpIn := by
  unfold sendCompletion; split
  · simp
  · split
    · simp
    · split
      · dsimp only; split <;> simp
      · simp
@[simp] theorem sendCompletion_hodQueue (s : State) (c : Completion) : (s.sendCompletion c).hodQueue = s.hodQueue := by
  unfold sendCompletion; split
  · simp
  · split
    · simp
    · split
      · dsimp only; split <;> simp
      · simp
@[simp] theorem sendCompletion_hodHeld (s : State) (c : Completion) : (s.sendCompletion c).hodHeld = s.hodHeld := by
  unfold sendCompletion; split
  · simp
  · split
    · simp
    · split
      · dsimp only; split <;> simp
      · simp
@[simp] theorem sendCompletion_streams (s : State) (c : Completion) : (s.sendCompletion c).streams = s.streams := by
  unfold sendCompletion; split
  · simp
  · split
    · simp
    · split
      · dsimp only; split <;> simp
      · simp
@[simp] theorem sendCompletion_acq (s : State) (c : Completion) : (s.sendCompletion c).acq = s.acq := by
  unfold sendCompletion; split
  · simp
  · split
    · simp
    · split
      · dsimp only; split <;> simp
      · simp
@[simp] theorem sendCompletion_ary (s : State) (c : Completion) : (s.sendCompletion c).ary = s.ary := by
  unfold sendCompletion; split
  · simp
  · split
    · simp
    · split
      · dsimp only; split <;> simp
      · simp
@[simp] theorem sendCompletion_mgt (s : State) (c : Completion) : (s.sendCompletion c).mgt = s.mgt := by
  unfold sendCompletion; split
  · simp
  · split
    · simp
    · split
      · dsimp only; split <;> simp
      · simp
@[simp] theorem sendCompletion_fresh (s : State) (c : Completion) : (s.sendCompletion c).fresh = s.fresh := by
  unfold sendCompletion; split
  · simp
  · split
    · simp
    · split
      · dsimp only; split <;> simp
      · simp
@[simp] theorem sendCompletion_pending (s : State) (c : Completion) : (s.sendCompletion c).pending = s.pending := by
  unfold sendCompletion; split
  · simp
  · split
    · simp
    · split
      · dsimp only; split <;> simp
      · simp

@[simp] theorem udpSend_shadow (s : State) (m : Fin 2) (a u : Nat) (l : List Nat) : (s.udpSend m a u l).shadow = s.shadow := by unfold udpSend; split <;> simp
@[simp] theorem udpSend_wbuf (s : State) (m : Fin 2) (a u : Nat) (l : List Nat) : (s.udpSend m a u l).wbuf = s.wbuf := by unfold udpSend; split <;> simp
@[simp] theorem udpSend_sram (s : State) (m : Fin 2) (a u : Nat) (l : List Nat) : (s.udpSend m a u l).sram = s.sram := by unfold udpSend; split <;> simp
@[simp] theorem udpSend_dram (s : State) (m : Fin 2) (a u : Nat) (l : List Nat) : (s.udpSend m a u l).dram = s.dram := by unfold udpSend; split <;> simp
@[simp] theorem udpSend_flash (s : State) (m : Fin 2) (a u : Nat) (l : List Nat) : (s.udpSend m a u l).flash = s.flash := by unfold udpSend; split <;> simp
@[simp] theorem udpSend_sys (s : State) (m : Fin 2) (a u : Nat) (l : List Nat) : (s.udpSend m a u l).sys = s.sys := by unfold udpSend; split <;> simp
@[simp] theorem udpSend_syn (s : State) (m : Fin 2) (a u : Nat) (l : List Nat) : (s.udpSend m a u l).syn = s.syn := by unfold udpSend; split <;> simp
@[simp] theorem udpSend_tbu (s : State) (m : Fin 2) (a u : Nat) (l : List Nat) : (s.udpSend m a u l).tbu = s.tbu := by unfold udpSend; split <;> simp
@[simp] theorem udpSend_tdc (s : State) (m : Fin 2) (a u : Nat) (l : List Nat) : (s.udpSend m a u l).tdc = s.tdc := by unfold udpSend; split <;> simp
@[simp] theorem udpSend_ports (s : State) (m : Fin 2) (a u : Nat) (l : List Nat) : (s.udpSend m a u l).ports = s.ports := by unfold udpSend; split <;> simp
@[simp] theorem udpSend_rmd (s : State) (m : Fin 2) (a u : Nat) (l : List Nat) : (s.udpSend m a u l).rmd = s.rmd := by unfold udpSend; split <;> simp
@[simp] theorem udpSend_rrx (s : State) (m : Fin 2) (a u : Nat) (l : List Nat) : (s.udpSend m a u l).rrx = s.rrx := by unfold udpSend; split <;> simp
@[simp] theorem udpSend_rsf (s : State) (m : Fin 2) (a u : Nat) (l : List Nat) : (s.udpSend m a u l).rsf = s.rsf := by unfold udpSend; split <;> simp
@[simp] theorem udpSend_memc (s : State) (m : Fin 2) (a u : Nat) (l : List Nat) : (s.udpSend m a u l).memc = s.memc := by unfold udpSend; split <;> simp
@[simp] theorem udpSend_zon (s : State) (m : Fin 2) (a u : Nat) (l : List Nat) : (s.udpSend m a u l).zon = s.zon := by unfold udpSend; split <;> simp
@[simp] theorem udpSend_eve (s : State) (m : Fin 2) (a u : Nat) (l : List Nat) : (s.udpSend m a u l).eve = s.eve := by unfold udpSend; split <;> simp
@[simp] theorem udpSend_vdc (s : State) (m : Fin 2) (a u : Nat) (l : List Nat) : (s.udpSend m a u l).vdc = s.vdc := by unfold udpSend; split <;> simp
@[simp] theorem udpSend_cmp (s : State) (m : Fin 2) (a u : Nat) (l : List Nat) : (s.udpSend m a u l).cmp = s.cmp := by unfold udpSend; split <;> simp
@[simp] theorem udpSend_sco (s : State) (m : Fin 2) (a u : Nat) (l : List Nat) : (s.udpSend m a u l).sco = s.sco := by unfold udpSend; split <;> simp
@[simp] theorem udpSend_vdcIn (s : State) (m : Fin 2) (a u : Nat) (l : List Nat) : (s.udpSend m a u l).vdcIn = s.vdcIn := by unfold udpSend; split <;> simp
@[simp] theorem udpSend_cmpIn (s : State) (m : Fin 2) (a u : Nat) (l : List Nat) : (s.udpSend m a u l).cmpIn = s.cmpIn := by unfold udpSend; split <;> simp
@[simp] theorem udpSend_cmd (s : State) (m : Fin 2) (a u : Nat) (l : List Nat) : (s.udpSend m a u l).cmd = s.cmd := by unfold udpSend; split <;> simp
@[simp] theorem udpSend_hodQueue (s : State) (m : Fin 2) (a u : Nat) (l : List Nat) : (s.udpSend m a u l).hodQueue = s.hodQueue := by unfold udpSend; split <;> simp
@[simp] theorem udpSend_hodHeld (s : State) (m : Fin 2) (a u : Nat) (l : List Nat) : (s.udpSend m a u l).hodHeld = s.hodHeld := by unfold udpSend; split <;> simp
@[simp] theorem udpSend_streams (s : State) (m : Fin 2) (a u : Nat) (l : List Nat) : (s.udpSend m a u l).streams = s.streams := by unfold udpSend; split <;> simp
@[simp] theorem udpSend_hif (s : State) (m : Fin 2) (a u : Nat) (l : List Nat) : (s.udpSend m a u l).hif = s.hif := by unfold udpSend; split <;> simp
@[simp] theorem udpSend_acq (s : State) (m : Fin 2) (a u : Nat) (l : List Nat) : (s.udpSend m a u l).acq = s.acq := by unfold udpSend; split <;> simp
@[simp] theorem udpSend_ary (s : State) (m : Fin 2) (a u : Nat) (l : List Nat) : (s.udpSend m a u l).ary = s.ary := by unfold udpSend; split <;> simp
@[simp] theorem udpSend_mgt (s : State) (m : Fin 2) (a u : Nat) (l : List Nat) : (s.udpSend m a u l).mgt = s.mgt := by unfold udpSend; split <;> simp
@[simp] theorem udpSend_fresh (s : State) (m : Fin 2) (a u : Nat) (l : List Nat) : (s.udpSend m a u l).fresh = s.fresh := by unfold udpSend; split <;> simp
@[simp] theorem udpSend_pending (s : State) (m : Fin 2) (a u : Nat) (l : List Nat) : (s.udpSend m a u l).pending = s.pending := by unfold udpSend; split <;> simp

@[simp] theorem deliver_shadow (s : State) (q : Requester) (r : Reply) (c a : Nat) (k : Option Nat) : (s.deliver q r c a k).shadow = s.shadow := by
  cases q <;> simp only [deliver]
  · simp
  · cases k <;> simp
  · split <;> rfl
  · rfl
@[simp] theorem deliver_wbuf (s : State) (q : Requester) (r : Reply) (c a : Nat) (k : Option Nat) : (s.deliver q r c a k).wbuf = s.wbuf := by
  cases q <;> simp only [deliver]
  · simp
  · cases k <;> simp
  · split <;> rfl
  · rfl
@[simp] theorem deliver_sram (s : State) (q : Requester) (r : Reply) (c a : Nat) (k : Option Nat) : (s.deliver q r c a k).sram = s.sram := by
  cases q <;> simp only [deliver]
  · simp
  · cases k <;> simp
  · split <;> rfl
  · rfl
@[simp] theorem deliver_dram (s : State) (q : Requester) (r : Reply) (c a : Nat) (k : Option Nat) : (s.deliver q r c a k).dram = s.dram := by
  cases q <;> simp only [deliver]
  · simp
  · cases k <;> simp
  · split <;> rfl
  · rfl
@[simp] theorem deliver_flash (s : State) (q : Requester) (r : Reply) (c a : Nat) (k : Option Nat) : (s.deliver q r c a k).flash = s.flash := by
  cases q <;> simp only [deliver]
  · simp
  · cases k <;> simp
  · split <;> rfl
  · rfl
@[simp] theorem deliver_sys (s : State) (q : Requester) (r : Reply) (c a : Nat) (k : Option Nat) : (s.deliver q r c a k).sys = s.sys := by
  cases q <;> simp only [deliver]
  · simp
  · cases k <;> simp
  · split <;> rfl
  · rfl
@[simp] theorem deliver_syn (s : State) (q : Requester) (r : Reply) (c a : Nat) (k : Option Nat) : (s.deliver q r c a k).syn = s.syn := by
  cases q <;> simp only [deliver]
  · simp
  · cases k <;> simp
  · split <;> rfl
  · rfl
@[simp] theorem deliver_tbu (s : State) (q : Requester) (r : Reply) (c a : Nat) (k : Option Nat) : (s.deliver q r c a k).tbu = s.tbu := by
  cases q <;> simp only [deliver]
  · simp
  · cases k <;> simp
  · split <;> rfl
  · rfl
@[simp] theorem deliver_tdc (s : State) (q : Requester) (r : Reply) (c a : Nat) (k : Option Nat) : (s.deliver q r c a k).tdc = s.tdc := by
  cases q <;> simp only [deliver]
  · simp
  · cases k <;> simp
  · split <;> rfl
  · rfl
@[simp] theorem deliver_ports (s : State) (q : Requester) (r : Reply) (c a : Nat) (k : Option Nat) : (s.deliver q r c a k).ports = s.ports := by
  cases q <;> simp only [deliver]
  · simp
  · cases k <;> simp
  · split <;> rfl
  · rfl
@[simp] theorem deliver_rmd (s : State) (q : Requester) (r : Reply) (c a : Nat) (k : Option Nat) : (s.deliver q r c a k).rmd = s.rmd := by
  cases q <;> simp only [deliver]
  · simp
  · cases k <;> simp
  · split <;> rfl
  · rfl
@[simp] theorem deliver_rrx (s : State) (q : Requester) (r : Reply) (c a : Nat) (k : Option Nat) : (s.deliver q r c a k).rrx = s.rrx := by
  cases q <;> simp only [deliver]
  · simp
  · cases k <;> simp
  · split <;> rfl
  · rfl
@[simp] theorem deliver_rsf (s : State) (q : Requester) (r : Reply) (c a : Nat) (k : Option Nat) : (s.deliver q r c a k).rsf = s.rsf := by
  cases q <;> simp only [deliver]
  · simp
  · cases k <;> simp
  · split <;> rfl
  · rfl
@[simp] theorem deliver_memc (s : State) (q : Requester) (r : Reply) (c a : Nat) (k : Option Nat) : (s.deliver q r c a k).memc = s.memc := by
  cases q <;> simp only [deliver]
  · simp
  · cases k <;> simp
  · split <;> rfl
  · rfl
@[simp] theorem deliver_zon (s : State) (q : Requester) (r : Reply) (c a : Nat) (k : Option Nat) : (s.deliver q r c a k).zon = s.zon := by
  cases q <;> simp only [deliver]
  · simp
  · cases k <;> simp
  · split <;> rfl
  · rfl
@[simp] theorem deliver_eve (s : State) (q : Requester) (r : Reply) (c a : Nat) (k : Option Nat) : (s.deliver q r c a k).eve = s.eve := by
  cases q <;> simp only [deliver]
  · simp
  · cases k <;> simp
  · split <;> rfl
  · rfl
@[simp] theorem deliver_vdc (s : State) (q : Requester) (r : Reply) (c a : Nat) (k : Option Nat) : (s.deliver q r c a k).vdc = s.vdc := by
  cases q <;> simp only [deliver]
  · simp
  · cases k <;> simp
  · split <;> rfl
  · rfl
@[simp] theorem deliver_cmp (s : State) (q : Requester) (r : Reply) (c a : Nat) (k : Option Nat) : (s.deliver q r c a k).cmp = s.cmp := by
  cases q <;> simp only [deliver]
  · simp
  · cases k <;> simp
  · split <;> rfl
  · rfl
@[simp] theorem deliver_sco (s : State) (q : Requester) (r : Reply) (c a : Nat) (k : Option Nat) : (s.deliver q r c a k).sco = s.sco := by
  cases q <;> simp only [deliver]
  · simp
  · cases k <;> simp
  · split <;> rfl
  · rfl
@[simp] theorem deliver_vdcIn (s : State) (q : Requester) (r : Reply) (c a : Nat) (k : Option Nat) : (s.deliver q r c a k).vdcIn = s.vdcIn := by
  cases q <;> simp only [deliver]
  · simp
  · cases k <;> simp
  · split <;> rfl
  · rfl
@[simp] theorem deliver_cmpIn (s : State) (q : Requester) (r : Reply) (c a : Nat) (k : Option Nat) : (s.deliver q r c a k).cmpIn = s.cmpIn := by
  cases q <;> simp only [deliver]
  · simp
  · cases k <;> simp
  · split <;> rfl
  · rfl
@[simp] theorem deliver_hodQueue (s : State) (q : Requester) (r : Reply) (c a : Nat) (k : Option Nat) : (s.deliver q r c a k).hodQueue = s.hodQueue := by
  cases q <;> simp only [deliver]
  · simp
  · cases k <;> simp
  · split <;> rfl
  · rfl
@[simp] theorem deliver_hodHeld (s : State) (q : Requester) (r : Reply) (c a : Nat) (k : Option Nat) : (s.deliver q r c a k).hodHeld = s.hodHeld := by
  cases q <;> simp only [deliver]
  · simp
  · cases k <;> simp
  · split <;> rfl
  · rfl
@[simp] theorem deliver_streams (s : State) (q : Requester) (r : Reply) (c a : Nat) (k : Option Nat) : (s.deliver q r c a k).streams = s.streams := by
  cases q <;> simp only [deliver]
  · simp
  · cases k <;> simp
  · split <;> rfl
  · rfl
@[simp] theorem deliver_acq (s : State) (q : Requester) (r : Reply) (c a : Nat) (k : Option Nat) : (s.deliver q r c a k).acq = s.acq := by
  cases q <;> simp only [deliver]
  · simp
  · cases k <;> simp
  · split <;> rfl
  · rfl
@[simp] theorem deliver_ary (s : State) (q : Requester) (r : Reply) (c a : Nat) (k : Option Nat) : (s.deliver q r c a k).ary = s.ary := by
  cases q <;> simp only [deliver]
  · simp
  · cases k <;> simp
  · split <;> rfl
  · rfl
@[simp] theorem deliver_mgt (s : State) (q : Requester) (r : Reply) (c a : Nat) (k : Option Nat) : (s.deliver q r c a k).mgt = s.mgt := by
  cases q <;> simp only [deliver]
  · simp
  · cases k <;> simp
  · split <;> rfl
  · rfl
@[simp] theorem deliver_fresh (s : State) (q : Requester) (r : Reply) (c a : Nat) (k : Option Nat) : (s.deliver q r c a k).fresh = s.fresh := by
  cases q <;> simp only [deliver]
  · simp
  · cases k <;> simp
  · split <;> rfl
  · rfl
@[simp] theorem deliver_pending (s : State) (q : Requester) (r : Reply) (c a : Nat) (k : Option Nat) : (s.deliver q r c a k).pending = s.pending := by
  cases q <;> simp only [deliver]
  · simp
  · cases k <;> simp
  · split <;> rfl
  · rfl

@[simp] theorem answer_shadow (s : State) (p : Packet) (c d : Nat) : (s.answer p c d).shadow = s.shadow := by simp [answer]
@[simp] theorem answer_wbuf (s : State) (p : Packet) (c d : Nat) : (s.answer p c d).wbuf = s.wbuf := by simp [answer]
@[simp] theorem answer_sram (s : State) (p : Packet) (c d : Nat) : (s.answer p c d).sram = s.sram := by simp [answer]
@[simp] theorem answer_dram (s : State) (p : Packet) (c d : Nat) : (s.answer p c d).dram = s.dram := by simp [answer]
@[simp] theorem answer_flash (s : State) (p : Packet) (c d : Nat) : (s.answer p c d).flash = s.flash := by simp [answer]
@[simp] theorem answer_sys (s : State) (p : Packet) (c d : Nat) : (s.answer p c d).sys = s.sys := by simp [answer]
@[simp] theorem answer_syn (s : State) (p : Packet) (c d : Nat) : (s.answer p c d).syn = s.syn := by simp [answer]
@[simp] theorem answer_tbu (s : State) (p : Packet) (c d : Nat) : (s.answer p c d).tbu = s.tbu := by simp [answer]
@[simp] theorem answer_tdc (s : State) (p : Packet) (c d : Nat) : (s.answer p c d).tdc = s.tdc := by simp [answer]
@[simp] theorem answer_ports (s : State) (p : Packet) (c d : Nat) : (s.answer p c d).ports = s.ports := by simp [answer]
@[simp] theorem answer_rmd (s : State) (p : Packet) (c d : Nat) : (s.answer p c d).rmd = s.rmd := by simp [answer]
@[simp] theorem answer_rrx (s : State) (p : Packet) (c d : Nat) : (s.answer p c d).rrx = s.rrx := by simp [answer]
@[simp] theorem answer_rsf (s : State) (p : Packet) (c d : Nat) : (s.answer p c d).rsf = s.rsf := by simp [answer]
@[simp] theorem answer_memc (s : State) (p : Packet) (c d : Nat) : (s.answer p c d).memc = s.memc := by simp [answer]
@[simp] theorem answer_zon (s : State) (p : Packet) (c d : Nat) : (s.answer p c d).zon = s.zon := by simp [answer]
@[simp] theorem answer_eve (s : State) (p : Packet) (c d : Nat) : (s.answer p c d).eve = s.eve := by simp [answer]
@[simp] theorem answer_vdc (s : State) (p : Packet) (c d : Nat) : (s.answer p c d).vdc = s.vdc := by simp [answer]
@[simp] theorem answer_cmp (s : State) (p : Packet) (c d : Nat) : (s.answer p c d).cmp = s.cmp := by simp [answer]
@[simp] theorem answer_sco (s : State) (p : Packet) (c d : Nat) : (s.answer p c d).sco = s.sco := by simp [answer]
@[simp] theorem answer_vdcIn (s : State) (p : Packet) (c d : Nat) : (s.answer p c d).vdcIn = s.vdcIn := by simp [answer]
@[simp] theorem answer_cmpIn (s : State) (p : Packet) (c d : Nat) : (s.answer p c d).cmpIn = s.cmpIn := by simp [answer]
@[simp] theorem answer_hodQueue (s : State) (p : Packet) (c d : Nat) : (s.answer p c d).hodQueue = s.hodQueue := by simp [answer]
@[simp] theorem answer_hodHeld (s : State) (p : Packet) (c d : Nat) : (s.answer p c d).hodHeld = s.hodHeld := by simp [answer]
@[simp] theorem answer_streams (s : State) (p : Packet) (c d : Nat) : (s.answer p c d).streams = s.streams := by simp [answer]
@[simp] theorem answer_acq (s : State) (p : Packet) (c d : Nat) : (s.answer p c d).acq = s.acq := by simp [answer]
@[simp] theorem answer_ary (s : State) (p : Packet) (c d : Nat) : (s.answer p c d).ary = s.ary := by simp [answer]
@[simp] theorem answer_mgt (s : State) (p : Packet) (c d : Nat) : (s.answer p c d).mgt = s.mgt := by simp [answer]
@[simp] theorem answer_fresh (s : State) (p : Packet) (c d : Nat) : (s.answer p c d).fresh = s.fresh := by simp [answer]
@[simp] theorem answer_pending (s : State) (p : Packet) (c d : Nat) : (s.answer p c d).pending = s.pending := by simp [answer]

@[simp] theorem reply_shadow (s : State) (p : Packet) (c d j : Nat) (l : List Nat) : (s.reply p c d j l).shadow = s.shadow := by
  unfold reply; dsimp only; split
  · split <;> simp
  · simp
@[simp] theorem reply_wbuf (s : State) (p : Packet) (c d j : Nat) (l : List Nat) : (s.reply p c d j l).wbuf = s.wbuf := by
  unfold reply; dsimp only; split
  · split <;> simp
  · simp
@[simp] theorem reply_sram (s : State) (p : Packet) (c d j : Nat) (l : List Nat) : (s.reply p c d j l).sram = s.sram := by
  unfold reply; dsimp only; split
  · split <;> simp
  · simp
@[simp] theorem reply_dram (s : State) (p : Packet) (c d j : Nat) (l : List Nat) : (s.reply p c d j l).dram = s.dram := by
  unfold reply; dsimp only; split
  · split <;> simp
  · simp
@[simp] theorem reply_flash (s : State) (p : Packet) (c d j : Nat) (l : List Nat) : (s.reply p c d j l).flash = s.flash := by
  unfold reply; dsimp only; split
  · split <;> simp
  · simp
@[simp] theorem reply_sys (s : State) (p : Packet) (c d j : Nat) (l : List Nat) : (s.reply p c d j l).sys = s.sys := by
  unfold reply; dsimp only; split
  · split <;> simp
  · simp
@[simp] theorem reply_syn (s : State) (p : Packet) (c d j : Nat) (l : List Nat) : (s.reply p c d j l).syn = s.syn := by
  unfold reply; dsimp only; split
  · split <;> simp
  · simp
@[simp] theorem reply_tbu (s : State) (p : Packet) (c d j : Nat) (l : List Nat) : (s.reply p c d j l).tbu = s.tbu := by
  unfold reply; dsimp only; split
  · split <;> simp
  · simp
@[simp] theorem reply_tdc (s : State) (p : Packet) (c d j : Nat) (l : List Nat) : (s.reply p c d j l).tdc = s.tdc := by
  unfold reply; dsimp only; split
  · split <;> simp
  · simp
@[simp] theorem reply_ports (s : State) (p : Packet) (c d j : Nat) (l : List Nat) : (s.reply p c d j l).ports = s.ports := by
  unfold reply; dsimp only; split
  · split <;> simp
  · simp
@[simp] theorem reply_rmd (s : State) (p : Packet) (c d j : Nat) (l : List Nat) : (s.reply p c d j l).rmd = s.rmd := by
  unfold reply; dsimp only; split
  · split <;> simp
  · simp
@[simp] theorem reply_rrx (s : State) (p : Packet) (c d j : Nat) (l : List Nat) : (s.reply p c d j l).rrx = s.rrx := by
  unfold reply; dsimp only; split
  · split <;> simp
  · simp
@[simp] theorem reply_rsf (s : State) (p : Packet) (c d j : Nat) (l : List Nat) : (s.reply p c d j l).rsf = s.rsf := by
  unfold reply; dsimp only; split
  · split <;> simp
  · simp
@[simp] theorem reply_memc (s : State) (p : Packet) (c d j : Nat) (l : List Nat) : (s.reply p c d j l).memc = s.memc := by
  unfold reply; dsimp only; split
  · split <;> simp
  · simp
@[simp] theorem reply_zon (s : State) (p : Packet) (c d j : Nat) (l : List Nat) : (s.reply p c d j l).zon = s.zon := by
  unfold reply; dsimp only; split
  · split <;> simp
  · simp
@[simp] theorem reply_eve (s : State) (p : Packet) (c d j : Nat) (l : List Nat) : (s.reply p c d j l).eve = s.eve := by
  unfold reply; dsimp only; split
  · split <;> simp
  · simp
@[simp] theorem reply_vdc (s : State) (p : Packet) (c d j : Nat) (l : List Nat) : (s.reply p c d j l).vdc = s.vdc := by
  unfold reply; dsimp only; split
  · split <;> simp
  · simp
@[simp] theorem reply_cmp (s : State) (p : Packet) (c d j : Nat) (l : List Nat) : (s.reply p c d j l).cmp = s.cmp := by
  unfold reply; dsimp only; split
  · split <;> simp
  · simp
@[simp] theorem reply_sco (s : State) (p : Packet) (c d j : Nat) (l : List Nat) : (s.reply p c d j l).sco = s.sco := by
  unfold reply; dsimp only; split
  · split <;> simp
  · simp
@[simp] theorem reply_vdcIn (s : State) (p : Packet) (c d j : Nat) (l : List Nat) : (s.reply p c d j l).vdcIn = s.vdcIn := by
  unfold reply; dsimp only; split
  · split <;> simp
  · simp
@[simp] theorem reply_cmpIn (s : State) (p : Packet) (c d j : Nat) (l : List Nat) : (s.reply p c d j l).cmpIn = s.cmpIn := by
  unfold reply; dsimp only; split
  · split <;> simp
  · simp
@[simp] theorem reply_hodQueue (s : State) (p : Packet) (c d j : Nat) (l : List Nat) : (s.reply p c d j l).hodQueue = s.hodQueue := by
  unfold reply; dsimp only; split
  · split <;> simp
  · simp
@[simp] theorem reply_hodHeld (s : State) (p : Packet) (c d j : Nat) (l : List Nat) : (s.reply p c d j l).hodHeld = s.hodHeld := by
  unfold reply; dsimp only; split
  · split <;> simp
  · simp
@[simp] theorem reply_streams (s : State) (p : Packet) (c d j : Nat) (l : List Nat) : (s.reply p c d j l).streams = s.streams := by
  unfold reply; dsimp only; split
  · split <;> simp
  · simp
@[simp] theorem reply_acq (s : State) (p : Packet) (c d j : Nat) (l : List Nat) : (s.reply p c d j l).acq = s.acq := by
  unfold reply; dsimp only; split
  · split <;> simp
  · simp
@[simp] theorem reply_ary (s : State) (p : Packet) (c d j : Nat) (l : List Nat) : (s.reply p c d j l).ary = s.ary := by
  unfold reply; dsimp only; split
  · split <;> simp
  · simp
@[simp] theorem reply_mgt (s : State) (p : Packet) (c d j : Nat) (l : List Nat) : (s.reply p c d j l).mgt = s.mgt := by
  unfold reply; dsimp only; split
  · split <;> simp
  · simp
@[simp] theorem reply_fresh (s : State) (p : Packet) (c d j : Nat) (l : List Nat) : (s.reply p c d j l).fresh = s.fresh := by
  unfold reply; dsimp only; split
  · split <;> simp
  · simp
@[simp] theorem reply_pending (s : State) (p : Packet) (c d j : Nat) (l : List Nat) : (s.reply p c d j l).pending = s.pending := by
  unfold reply; dsimp only; split
  · split <;> simp
  · simp

@[simp] theorem notifyJob_shadow (s : State) (h : Nat) : (s.notifyJob h).shadow = s.shadow := by
  unfold notifyJob; split
  · rfl
  · dsimp only; split <;> simp
@[simp] theorem notifyJob_wbuf (s : State) (h : Nat) : (s.notifyJob h).wbuf = s.wbuf := by
  unfold notifyJob; split
  · rfl
  · dsimp only; split <;> simp
@[simp] theorem notifyJob_sram (s : State) (h : Nat) : (s.notifyJob h).sram = s.sram := by
  unfold notifyJob; split
  · rfl
  · dsimp only; split <;> simp
@[simp] theorem notifyJob_dram (s : State) (h : Nat) : (s.notifyJob h).dram = s.dram := by
  unfold notifyJob; split
  · rfl
  · dsimp only; split <;> simp
@[simp] theorem notifyJob_flash (s : State) (h : Nat) : (s.notifyJob h).flash = s.flash := by
  unfold notifyJob; split
  · rfl
  · dsimp only; split <;> simp
@[simp] theorem notifyJob_sys (s : State) (h : Nat) : (s.notifyJob h).sys = s.sys := by
  unfold notifyJob; split
  · rfl
  · dsimp only; split <;> simp
@[simp] theorem notifyJob_syn (s : State) (h : Nat) : (s.notifyJob h).syn = s.syn := by
  unfold notifyJob; split
  · rfl
  · dsimp only; split <;> simp
@[simp] theorem notifyJob_tbu (s : State) (h : Nat) : (s.notifyJob h).tbu = s.tbu := by
  unfold notifyJob; split
  · rfl
  · dsimp only; split <;> simp
@[simp] theorem notifyJob_tdc (s : State) (h : Nat) : (s.notifyJob h).tdc = s.tdc := by
  unfold notifyJob; split
  · rfl
  · dsimp only; split <;> simp
@[simp] theorem notifyJob_ports (s : State) (h : Nat) : (s.notifyJob h).ports = s.ports := by
  unfold notifyJob; split
  · rfl
  · dsimp only; split <;> simp
@[simp] theorem notifyJob_rmd (s : State) (h : Nat) : (s.notifyJob h).rmd = s.rmd := by
  unfold notifyJob; split
  · rfl
  · dsimp only; split <;> simp
@[simp] theorem notifyJob_rrx (s : State) (h : Nat) : (s.notifyJob h).rrx = s.rrx := by
  unfold notifyJob; split
  · rfl
  · dsimp only; split <;> simp
@[simp] theorem notifyJob_rsf (s : State) (h : Nat) : (s.notifyJob h).rsf = s.rsf := by
  unfold notifyJob; split
  · rfl
  · dsimp only; split <;> simp
@[simp] theorem notifyJob_memc (s : State) (h : Nat) : (s.notifyJob h).memc = s.memc := by
  unfold notifyJob; split
  · rfl
  · dsimp only; split <;> simp
@[simp] theorem notifyJob_zon (s : State) (h : Nat) : (s.notifyJob h).zon = s.zon := by
  unfold notifyJob; split
  · rfl
  · dsimp only; split <;> simp
@[simp] theorem notifyJob_eve (s : State) (h : Nat) : (s.notifyJob h).eve = s.eve := by
  unfold notifyJob; split
  · rfl
  · dsimp only; split <;> simp
@[simp] theorem notifyJob_vdc (s : State) (h : Nat) : (s.notifyJob h).vdc = s.vdc := by
  unfold notifyJob; split
  · rfl
  · dsimp only; split <;> simp
@[simp] theorem notifyJob_cmp (s : State) (h : Nat) : (s.notifyJob h).cmp = s.cmp := by
  unfold notifyJob; split
  · rfl
  · dsimp only; split <;> simp
@[simp] theorem notifyJob_sco (s : State) (h : Nat) : (s.notifyJob h).sco = s.sco := by
  unfold notifyJob; split
  · rfl
  · dsimp only; split <;> simp
@[simp] theorem notifyJob_vdcIn (s : State) (h : Nat) : (s.notifyJob h).vdcIn = s.vdcIn := by
  unfold notifyJob; split
  · rfl
  · dsimp only; split <;> simp
@[simp] theorem notifyJob_cmpIn (s : State) (h : Nat) : (s.notifyJob h).cmpIn = s.cmpIn := by
  unfold notifyJob; split
  · rfl
  · dsimp only; split <;> simp
@[simp] theorem notifyJob_hodQueue (s : State) (h : Nat) : (s.notifyJob h).hodQueue = s.hodQueue := by
  unfold notifyJob; split
  · rfl
  · dsimp only; split <;> simp
@[simp] theorem notifyJob_hodHeld (s : State) (h : Nat) : (s.notifyJob h).hodHeld = s.hodHeld := by
  unfold notifyJob; split
  · rfl
  · dsimp only; split <;> simp
@[simp] theorem notifyJob_streams (s : State) (h : Nat) : (s.notifyJob h).streams = s.streams := by
  unfold notifyJob; split
  · rfl
  · dsimp only; split <;> simp
@[simp] theorem notifyJob_acq (s : State) (h : Nat) : (s.notifyJob h).acq = s.acq := by
  unfold notifyJob; split
  · rfl
  · dsimp only; split <;> simp
@[simp] theorem notifyJob_ary (s : State) (h : Nat) : (s.notifyJob h).ary = s.ary := by
  unfold notifyJob; split
  · rfl
  · dsimp only; split <;> simp
@[simp] theorem notifyJob_mgt (s : State) (h : Nat) : (s.notifyJob h).mgt = s.mgt := by
  unfold notifyJob; split
  · rfl
  · dsimp only; split <;> simp
@[simp] theorem notifyJob_fresh (s : State) (h : Nat) : (s.notifyJob h).fresh = s.fresh := by
  unfold notifyJob; split
  · rfl
  · dsimp only; split <;> simp
@[simp] theorem notifyJob_pending (s : State) (h : Nat) : (s.notifyJob h).pending = s.pending := by
  unfold notifyJob; split
  · rfl
  · dsimp only; split <;> simp

@[simp] theorem endJob_shadow (s : State) (h : Nat) (st : JobState) (c d : Nat) (l : List Nat) : (s.endJob h st c d l).shadow = s.shadow := by
  unfold endJob; split
  · rfl
  · dsimp only; split <;> simp
@[simp] theorem endJob_wbuf (s : State) (h : Nat) (st : JobState) (c d : Nat) (l : List Nat) : (s.endJob h st c d l).wbuf = s.wbuf := by
  unfold endJob; split
  · rfl
  · dsimp only; split <;> simp
@[simp] theorem endJob_sram (s : State) (h : Nat) (st : JobState) (c d : Nat) (l : List Nat) : (s.endJob h st c d l).sram = s.sram := by
  unfold endJob; split
  · rfl
  · dsimp only; split <;> simp
@[simp] theorem endJob_dram (s : State) (h : Nat) (st : JobState) (c d : Nat) (l : List Nat) : (s.endJob h st c d l).dram = s.dram := by
  unfold endJob; split
  · rfl
  · dsimp only; split <;> simp
@[simp] theorem endJob_flash (s : State) (h : Nat) (st : JobState) (c d : Nat) (l : List Nat) : (s.endJob h st c d l).flash = s.flash := by
  unfold endJob; split
  · rfl
  · dsimp only; split <;> simp
@[simp] theorem endJob_sys (s : State) (h : Nat) (st : JobState) (c d : Nat) (l : List Nat) : (s.endJob h st c d l).sys = s.sys := by
  unfold endJob; split
  · rfl
  · dsimp only; split <;> simp
@[simp] theorem endJob_syn (s : State) (h : Nat) (st : JobState) (c d : Nat) (l : List Nat) : (s.endJob h st c d l).syn = s.syn := by
  unfold endJob; split
  · rfl
  · dsimp only; split <;> simp
@[simp] theorem endJob_tbu (s : State) (h : Nat) (st : JobState) (c d : Nat) (l : List Nat) : (s.endJob h st c d l).tbu = s.tbu := by
  unfold endJob; split
  · rfl
  · dsimp only; split <;> simp
@[simp] theorem endJob_tdc (s : State) (h : Nat) (st : JobState) (c d : Nat) (l : List Nat) : (s.endJob h st c d l).tdc = s.tdc := by
  unfold endJob; split
  · rfl
  · dsimp only; split <;> simp
@[simp] theorem endJob_ports (s : State) (h : Nat) (st : JobState) (c d : Nat) (l : List Nat) : (s.endJob h st c d l).ports = s.ports := by
  unfold endJob; split
  · rfl
  · dsimp only; split <;> simp
@[simp] theorem endJob_rmd (s : State) (h : Nat) (st : JobState) (c d : Nat) (l : List Nat) : (s.endJob h st c d l).rmd = s.rmd := by
  unfold endJob; split
  · rfl
  · dsimp only; split <;> simp
@[simp] theorem endJob_rrx (s : State) (h : Nat) (st : JobState) (c d : Nat) (l : List Nat) : (s.endJob h st c d l).rrx = s.rrx := by
  unfold endJob; split
  · rfl
  · dsimp only; split <;> simp
@[simp] theorem endJob_rsf (s : State) (h : Nat) (st : JobState) (c d : Nat) (l : List Nat) : (s.endJob h st c d l).rsf = s.rsf := by
  unfold endJob; split
  · rfl
  · dsimp only; split <;> simp
@[simp] theorem endJob_memc (s : State) (h : Nat) (st : JobState) (c d : Nat) (l : List Nat) : (s.endJob h st c d l).memc = s.memc := by
  unfold endJob; split
  · rfl
  · dsimp only; split <;> simp
@[simp] theorem endJob_zon (s : State) (h : Nat) (st : JobState) (c d : Nat) (l : List Nat) : (s.endJob h st c d l).zon = s.zon := by
  unfold endJob; split
  · rfl
  · dsimp only; split <;> simp
@[simp] theorem endJob_eve (s : State) (h : Nat) (st : JobState) (c d : Nat) (l : List Nat) : (s.endJob h st c d l).eve = s.eve := by
  unfold endJob; split
  · rfl
  · dsimp only; split <;> simp
@[simp] theorem endJob_vdc (s : State) (h : Nat) (st : JobState) (c d : Nat) (l : List Nat) : (s.endJob h st c d l).vdc = s.vdc := by
  unfold endJob; split
  · rfl
  · dsimp only; split <;> simp
@[simp] theorem endJob_cmp (s : State) (h : Nat) (st : JobState) (c d : Nat) (l : List Nat) : (s.endJob h st c d l).cmp = s.cmp := by
  unfold endJob; split
  · rfl
  · dsimp only; split <;> simp
@[simp] theorem endJob_sco (s : State) (h : Nat) (st : JobState) (c d : Nat) (l : List Nat) : (s.endJob h st c d l).sco = s.sco := by
  unfold endJob; split
  · rfl
  · dsimp only; split <;> simp
@[simp] theorem endJob_vdcIn (s : State) (h : Nat) (st : JobState) (c d : Nat) (l : List Nat) : (s.endJob h st c d l).vdcIn = s.vdcIn := by
  unfold endJob; split
  · rfl
  · dsimp only; split <;> simp
@[simp] theorem endJob_cmpIn (s : State) (h : Nat) (st : JobState) (c d : Nat) (l : List Nat) : (s.endJob h st c d l).cmpIn = s.cmpIn := by
  unfold endJob; split
  · rfl
  · dsimp only; split <;> simp
@[simp] theorem endJob_hodQueue (s : State) (h : Nat) (st : JobState) (c d : Nat) (l : List Nat) : (s.endJob h st c d l).hodQueue = s.hodQueue := by
  unfold endJob; split
  · rfl
  · dsimp only; split <;> simp
@[simp] theorem endJob_hodHeld (s : State) (h : Nat) (st : JobState) (c d : Nat) (l : List Nat) : (s.endJob h st c d l).hodHeld = s.hodHeld := by
  unfold endJob; split
  · rfl
  · dsimp only; split <;> simp
@[simp] theorem endJob_streams (s : State) (h : Nat) (st : JobState) (c d : Nat) (l : List Nat) : (s.endJob h st c d l).streams = s.streams := by
  unfold endJob; split
  · rfl
  · dsimp only; split <;> simp
@[simp] theorem endJob_acq (s : State) (h : Nat) (st : JobState) (c d : Nat) (l : List Nat) : (s.endJob h st c d l).acq = s.acq := by
  unfold endJob; split
  · rfl
  · dsimp only; split <;> simp
@[simp] theorem endJob_ary (s : State) (h : Nat) (st : JobState) (c d : Nat) (l : List Nat) : (s.endJob h st c d l).ary = s.ary := by
  unfold endJob; split
  · rfl
  · dsimp only; split <;> simp
@[simp] theorem endJob_mgt (s : State) (h : Nat) (st : JobState) (c d : Nat) (l : List Nat) : (s.endJob h st c d l).mgt = s.mgt := by
  unfold endJob; split
  · rfl
  · dsimp only; split <;> simp
@[simp] theorem endJob_fresh (s : State) (h : Nat) (st : JobState) (c d : Nat) (l : List Nat) : (s.endJob h st c d l).fresh = s.fresh := by
  unfold endJob; split
  · rfl
  · dsimp only; split <;> simp
@[simp] theorem endJob_pending (s : State) (h : Nat) (st : JobState) (c d : Nat) (l : List Nat) : (s.endJob h st c d l).pending = s.pending := by
  unfold endJob; split
  · rfl
  · dsimp only; split <;> simp

@[simp] theorem jobDone_shadow (s : State) (h d : Nat) (l : List Nat) : (s.jobDone h d l).shadow = s.shadow := by simp [jobDone]
@[simp] theorem jobDone_wbuf (s : State) (h d : Nat) (l : List Nat) : (s.jobDone h d l).wbuf = s.wbuf := by simp [jobDone]
@[simp] theorem jobDone_sram (s : State) (h d : Nat) (l : List Nat) : (s.jobDone h d l).sram = s.sram := by simp [jobDone]
@[simp] theorem jobDone_dram (s : State) (h d : Nat) (l : List Nat) : (s.jobDone h d l).dram = s.dram := by simp [jobDone]
@[simp] theorem jobDone_flash (s : State) (h d : Nat) (l : List Nat) : (s.jobDone h d l).flash = s.flash := by simp [jobDone]
@[simp] theorem jobDone_sys (s : State) (h d : Nat) (l : List Nat) : (s.jobDone h d l).sys = s.sys := by simp [jobDone]
@[simp] theorem jobDone_syn (s : State) (h d : Nat) (l : List Nat) : (s.jobDone h d l).syn = s.syn := by simp [jobDone]
@[simp] theorem jobDone_tbu (s : State) (h d : Nat) (l : List Nat) : (s.jobDone h d l).tbu = s.tbu := by simp [jobDone]
@[simp] theorem jobDone_tdc (s : State) (h d : Nat) (l : List Nat) : (s.jobDone h d l).tdc = s.tdc := by simp [jobDone]
@[simp] theorem jobDone_ports (s : State) (h d : Nat) (l : List Nat) : (s.jobDone h d l).ports = s.ports := by simp [jobDone]
@[simp] theorem jobDone_rmd (s : State) (h d : Nat) (l : List Nat) : (s.jobDone h d l).rmd = s.rmd := by simp [jobDone]
@[simp] theorem jobDone_rrx (s : State) (h d : Nat) (l : List Nat) : (s.jobDone h d l).rrx = s.rrx := by simp [jobDone]
@[simp] theorem jobDone_rsf (s : State) (h d : Nat) (l : List Nat) : (s.jobDone h d l).rsf = s.rsf := by simp [jobDone]
@[simp] theorem jobDone_memc (s : State) (h d : Nat) (l : List Nat) : (s.jobDone h d l).memc = s.memc := by simp [jobDone]
@[simp] theorem jobDone_zon (s : State) (h d : Nat) (l : List Nat) : (s.jobDone h d l).zon = s.zon := by simp [jobDone]
@[simp] theorem jobDone_eve (s : State) (h d : Nat) (l : List Nat) : (s.jobDone h d l).eve = s.eve := by simp [jobDone]
@[simp] theorem jobDone_vdc (s : State) (h d : Nat) (l : List Nat) : (s.jobDone h d l).vdc = s.vdc := by simp [jobDone]
@[simp] theorem jobDone_cmp (s : State) (h d : Nat) (l : List Nat) : (s.jobDone h d l).cmp = s.cmp := by simp [jobDone]
@[simp] theorem jobDone_sco (s : State) (h d : Nat) (l : List Nat) : (s.jobDone h d l).sco = s.sco := by simp [jobDone]
@[simp] theorem jobDone_vdcIn (s : State) (h d : Nat) (l : List Nat) : (s.jobDone h d l).vdcIn = s.vdcIn := by simp [jobDone]
@[simp] theorem jobDone_cmpIn (s : State) (h d : Nat) (l : List Nat) : (s.jobDone h d l).cmpIn = s.cmpIn := by simp [jobDone]
@[simp] theorem jobDone_hodQueue (s : State) (h d : Nat) (l : List Nat) : (s.jobDone h d l).hodQueue = s.hodQueue := by simp [jobDone]
@[simp] theorem jobDone_hodHeld (s : State) (h d : Nat) (l : List Nat) : (s.jobDone h d l).hodHeld = s.hodHeld := by simp [jobDone]
@[simp] theorem jobDone_streams (s : State) (h d : Nat) (l : List Nat) : (s.jobDone h d l).streams = s.streams := by simp [jobDone]
@[simp] theorem jobDone_acq (s : State) (h d : Nat) (l : List Nat) : (s.jobDone h d l).acq = s.acq := by simp [jobDone]
@[simp] theorem jobDone_ary (s : State) (h d : Nat) (l : List Nat) : (s.jobDone h d l).ary = s.ary := by simp [jobDone]
@[simp] theorem jobDone_mgt (s : State) (h d : Nat) (l : List Nat) : (s.jobDone h d l).mgt = s.mgt := by simp [jobDone]
@[simp] theorem jobDone_fresh (s : State) (h d : Nat) (l : List Nat) : (s.jobDone h d l).fresh = s.fresh := by simp [jobDone]
@[simp] theorem jobDone_pending (s : State) (h d : Nat) (l : List Nat) : (s.jobDone h d l).pending = s.pending := by simp [jobDone]

@[simp] theorem jobFailed_shadow (s : State) (h c d : Nat) : (s.jobFailed h c d).shadow = s.shadow := by simp [jobFailed]
@[simp] theorem jobFailed_wbuf (s : State) (h c d : Nat) : (s.jobFailed h c d).wbuf = s.wbuf := by simp [jobFailed]
@[simp] theorem jobFailed_sram (s : State) (h c d : Nat) : (s.jobFailed h c d).sram = s.sram := by simp [jobFailed]
@[simp] theorem jobFailed_dram (s : State) (h c d : Nat) : (s.jobFailed h c d).dram = s.dram := by simp [jobFailed]
@[simp] theorem jobFailed_flash (s : State) (h c d : Nat) : (s.jobFailed h c d).flash = s.flash := by simp [jobFailed]
@[simp] theorem jobFailed_sys (s : State) (h c d : Nat) : (s.jobFailed h c d).sys = s.sys := by simp [jobFailed]
@[simp] theorem jobFailed_syn (s : State) (h c d : Nat) : (s.jobFailed h c d).syn = s.syn := by simp [jobFailed]
@[simp] theorem jobFailed_tbu (s : State) (h c d : Nat) : (s.jobFailed h c d).tbu = s.tbu := by simp [jobFailed]
@[simp] theorem jobFailed_tdc (s : State) (h c d : Nat) : (s.jobFailed h c d).tdc = s.tdc := by simp [jobFailed]
@[simp] theorem jobFailed_ports (s : State) (h c d : Nat) : (s.jobFailed h c d).ports = s.ports := by simp [jobFailed]
@[simp] theorem jobFailed_rmd (s : State) (h c d : Nat) : (s.jobFailed h c d).rmd = s.rmd := by simp [jobFailed]
@[simp] theorem jobFailed_rrx (s : State) (h c d : Nat) : (s.jobFailed h c d).rrx = s.rrx := by simp [jobFailed]
@[simp] theorem jobFailed_rsf (s : State) (h c d : Nat) : (s.jobFailed h c d).rsf = s.rsf := by simp [jobFailed]
@[simp] theorem jobFailed_memc (s : State) (h c d : Nat) : (s.jobFailed h c d).memc = s.memc := by simp [jobFailed]
@[simp] theorem jobFailed_zon (s : State) (h c d : Nat) : (s.jobFailed h c d).zon = s.zon := by simp [jobFailed]
@[simp] theorem jobFailed_eve (s : State) (h c d : Nat) : (s.jobFailed h c d).eve = s.eve := by simp [jobFailed]
@[simp] theorem jobFailed_vdc (s : State) (h c d : Nat) : (s.jobFailed h c d).vdc = s.vdc := by simp [jobFailed]
@[simp] theorem jobFailed_cmp (s : State) (h c d : Nat) : (s.jobFailed h c d).cmp = s.cmp := by simp [jobFailed]
@[simp] theorem jobFailed_sco (s : State) (h c d : Nat) : (s.jobFailed h c d).sco = s.sco := by simp [jobFailed]
@[simp] theorem jobFailed_vdcIn (s : State) (h c d : Nat) : (s.jobFailed h c d).vdcIn = s.vdcIn := by simp [jobFailed]
@[simp] theorem jobFailed_cmpIn (s : State) (h c d : Nat) : (s.jobFailed h c d).cmpIn = s.cmpIn := by simp [jobFailed]
@[simp] theorem jobFailed_hodQueue (s : State) (h c d : Nat) : (s.jobFailed h c d).hodQueue = s.hodQueue := by simp [jobFailed]
@[simp] theorem jobFailed_hodHeld (s : State) (h c d : Nat) : (s.jobFailed h c d).hodHeld = s.hodHeld := by simp [jobFailed]
@[simp] theorem jobFailed_streams (s : State) (h c d : Nat) : (s.jobFailed h c d).streams = s.streams := by simp [jobFailed]
@[simp] theorem jobFailed_acq (s : State) (h c d : Nat) : (s.jobFailed h c d).acq = s.acq := by simp [jobFailed]
@[simp] theorem jobFailed_ary (s : State) (h c d : Nat) : (s.jobFailed h c d).ary = s.ary := by simp [jobFailed]
@[simp] theorem jobFailed_mgt (s : State) (h c d : Nat) : (s.jobFailed h c d).mgt = s.mgt := by simp [jobFailed]
@[simp] theorem jobFailed_fresh (s : State) (h c d : Nat) : (s.jobFailed h c d).fresh = s.fresh := by simp [jobFailed]
@[simp] theorem jobFailed_pending (s : State) (h c d : Nat) : (s.jobFailed h c d).pending = s.pending := by simp [jobFailed]

@[simp] theorem jobCancelled_shadow (s : State) (h : Nat) : (s.jobCancelled h).shadow = s.shadow := by simp [jobCancelled]
@[simp] theorem jobCancelled_wbuf (s : State) (h : Nat) : (s.jobCancelled h).wbuf = s.wbuf := by simp [jobCancelled]
@[simp] theorem jobCancelled_sram (s : State) (h : Nat) : (s.jobCancelled h).sram = s.sram := by simp [jobCancelled]
@[simp] theorem jobCancelled_dram (s : State) (h : Nat) : (s.jobCancelled h).dram = s.dram := by simp [jobCancelled]
@[simp] theorem jobCancelled_flash (s : State) (h : Nat) : (s.jobCancelled h).flash = s.flash := by simp [jobCancelled]
@[simp] theorem jobCancelled_sys (s : State) (h : Nat) : (s.jobCancelled h).sys = s.sys := by simp [jobCancelled]
@[simp] theorem jobCancelled_syn (s : State) (h : Nat) : (s.jobCancelled h).syn = s.syn := by simp [jobCancelled]
@[simp] theorem jobCancelled_tbu (s : State) (h : Nat) : (s.jobCancelled h).tbu = s.tbu := by simp [jobCancelled]
@[simp] theorem jobCancelled_tdc (s : State) (h : Nat) : (s.jobCancelled h).tdc = s.tdc := by simp [jobCancelled]
@[simp] theorem jobCancelled_ports (s : State) (h : Nat) : (s.jobCancelled h).ports = s.ports := by simp [jobCancelled]
@[simp] theorem jobCancelled_rmd (s : State) (h : Nat) : (s.jobCancelled h).rmd = s.rmd := by simp [jobCancelled]
@[simp] theorem jobCancelled_rrx (s : State) (h : Nat) : (s.jobCancelled h).rrx = s.rrx := by simp [jobCancelled]
@[simp] theorem jobCancelled_rsf (s : State) (h : Nat) : (s.jobCancelled h).rsf = s.rsf := by simp [jobCancelled]
@[simp] theorem jobCancelled_memc (s : State) (h : Nat) : (s.jobCancelled h).memc = s.memc := by simp [jobCancelled]
@[simp] theorem jobCancelled_zon (s : State) (h : Nat) : (s.jobCancelled h).zon = s.zon := by simp [jobCancelled]
@[simp] theorem jobCancelled_eve (s : State) (h : Nat) : (s.jobCancelled h).eve = s.eve := by simp [jobCancelled]
@[simp] theorem jobCancelled_vdc (s : State) (h : Nat) : (s.jobCancelled h).vdc = s.vdc := by simp [jobCancelled]
@[simp] theorem jobCancelled_cmp (s : State) (h : Nat) : (s.jobCancelled h).cmp = s.cmp := by simp [jobCancelled]
@[simp] theorem jobCancelled_sco (s : State) (h : Nat) : (s.jobCancelled h).sco = s.sco := by simp [jobCancelled]
@[simp] theorem jobCancelled_vdcIn (s : State) (h : Nat) : (s.jobCancelled h).vdcIn = s.vdcIn := by simp [jobCancelled]
@[simp] theorem jobCancelled_cmpIn (s : State) (h : Nat) : (s.jobCancelled h).cmpIn = s.cmpIn := by simp [jobCancelled]
@[simp] theorem jobCancelled_hodQueue (s : State) (h : Nat) : (s.jobCancelled h).hodQueue = s.hodQueue := by simp [jobCancelled]
@[simp] theorem jobCancelled_hodHeld (s : State) (h : Nat) : (s.jobCancelled h).hodHeld = s.hodHeld := by simp [jobCancelled]
@[simp] theorem jobCancelled_streams (s : State) (h : Nat) : (s.jobCancelled h).streams = s.streams := by simp [jobCancelled]
@[simp] theorem jobCancelled_acq (s : State) (h : Nat) : (s.jobCancelled h).acq = s.acq := by simp [jobCancelled]
@[simp] theorem jobCancelled_ary (s : State) (h : Nat) : (s.jobCancelled h).ary = s.ary := by simp [jobCancelled]
@[simp] theorem jobCancelled_mgt (s : State) (h : Nat) : (s.jobCancelled h).mgt = s.mgt := by simp [jobCancelled]
@[simp] theorem jobCancelled_fresh (s : State) (h : Nat) : (s.jobCancelled h).fresh = s.fresh := by simp [jobCancelled]
@[simp] theorem jobCancelled_pending (s : State) (h : Nat) : (s.jobCancelled h).pending = s.pending := by simp [jobCancelled]

@[simp] theorem jobRuns_regs (s : State) (h : Nat) : (s.jobRuns h).regs = s.regs := rfl
@[simp] theorem jobRuns_shadow (s : State) (h : Nat) : (s.jobRuns h).shadow = s.shadow := rfl
@[simp] theorem jobRuns_wbuf (s : State) (h : Nat) : (s.jobRuns h).wbuf = s.wbuf := rfl
@[simp] theorem jobRuns_sram (s : State) (h : Nat) : (s.jobRuns h).sram = s.sram := rfl
@[simp] theorem jobRuns_dram (s : State) (h : Nat) : (s.jobRuns h).dram = s.dram := rfl
@[simp] theorem jobRuns_flash (s : State) (h : Nat) : (s.jobRuns h).flash = s.flash := rfl
@[simp] theorem jobRuns_sys (s : State) (h : Nat) : (s.jobRuns h).sys = s.sys := rfl
@[simp] theorem jobRuns_syn (s : State) (h : Nat) : (s.jobRuns h).syn = s.syn := rfl
@[simp] theorem jobRuns_tbu (s : State) (h : Nat) : (s.jobRuns h).tbu = s.tbu := rfl
@[simp] theorem jobRuns_tdc (s : State) (h : Nat) : (s.jobRuns h).tdc = s.tdc := rfl
@[simp] theorem jobRuns_ports (s : State) (h : Nat) : (s.jobRuns h).ports = s.ports := rfl
@[simp] theorem jobRuns_rmd (s : State) (h : Nat) : (s.jobRuns h).rmd = s.rmd := rfl
@[simp] theorem jobRuns_rrx (s : State) (h : Nat) : (s.jobRuns h).rrx = s.rrx := rfl
@[simp] theorem jobRuns_rsf (s : State) (h : Nat) : (s.jobRuns h).rsf = s.rsf := rfl
@[simp] theorem jobRuns_memc (s : State) (h : Nat) : (s.jobRuns h).memc = s.memc := rfl
@[simp] theorem jobRuns_zon (s : State) (h : Nat) : (s.jobRuns h).zon = s.zon := rfl
@[simp] theorem jobRuns_eve (s : State) (h : Nat) : (s.jobRuns h).eve = s.eve := rfl
@[simp] theorem jobRuns_vdc (s : State) (h : Nat) : (s.jobRuns h).vdc = s.vdc := rfl
@[simp] theorem jobRuns_cmp (s : State) (h : Nat) : (s.jobRuns h).cmp = s.cmp := rfl
@[simp] theorem jobRuns_sco (s : State) (h : Nat) : (s.jobRuns h).sco = s.sco := rfl
@[simp] theorem jobRuns_vdcIn (s : State) (h : Nat) : (s.jobRuns h).vdcIn = s.vdcIn := rfl
@[simp] theorem jobRuns_cmpIn (s : State) (h : Nat) : (s.jobRuns h).cmpIn = s.cmpIn := rfl
@[simp] theorem jobRuns_hodQueue (s : State) (h : Nat) : (s.jobRuns h).hodQueue = s.hodQueue := rfl
@[simp] theorem jobRuns_hodHeld (s : State) (h : Nat) : (s.jobRuns h).hodHeld = s.hodHeld := rfl
@[simp] theorem jobRuns_streams (s : State) (h : Nat) : (s.jobRuns h).streams = s.streams := rfl
@[simp] theorem jobRuns_hif (s : State) (h : Nat) : (s.jobRuns h).hif = s.hif := rfl
@[simp] theorem jobRuns_acq (s : State) (h : Nat) : (s.jobRuns h).acq = s.acq := rfl
@[simp] theorem jobRuns_ary (s : State) (h : Nat) : (s.jobRuns h).ary = s.ary := rfl
@[simp] theorem jobRuns_mgt (s : State) (h : Nat) : (s.jobRuns h).mgt = s.mgt := rfl
@[simp] theorem jobRuns_fresh (s : State) (h : Nat) : (s.jobRuns h).fresh = s.fresh := rfl
@[simp] theorem jobRuns_out (s : State) (h : Nat) : (s.jobRuns h).out = s.out := rfl
@[simp] theorem jobRuns_pending (s : State) (h : Nat) : (s.jobRuns h).pending = s.pending := rfl

@[simp] theorem jobStep_regs (s : State) (h : Nat) : (s.jobStep h).regs = s.regs := rfl
@[simp] theorem jobStep_shadow (s : State) (h : Nat) : (s.jobStep h).shadow = s.shadow := rfl
@[simp] theorem jobStep_wbuf (s : State) (h : Nat) : (s.jobStep h).wbuf = s.wbuf := rfl
@[simp] theorem jobStep_sram (s : State) (h : Nat) : (s.jobStep h).sram = s.sram := rfl
@[simp] theorem jobStep_dram (s : State) (h : Nat) : (s.jobStep h).dram = s.dram := rfl
@[simp] theorem jobStep_flash (s : State) (h : Nat) : (s.jobStep h).flash = s.flash := rfl
@[simp] theorem jobStep_sys (s : State) (h : Nat) : (s.jobStep h).sys = s.sys := rfl
@[simp] theorem jobStep_syn (s : State) (h : Nat) : (s.jobStep h).syn = s.syn := rfl
@[simp] theorem jobStep_tbu (s : State) (h : Nat) : (s.jobStep h).tbu = s.tbu := rfl
@[simp] theorem jobStep_tdc (s : State) (h : Nat) : (s.jobStep h).tdc = s.tdc := rfl
@[simp] theorem jobStep_ports (s : State) (h : Nat) : (s.jobStep h).ports = s.ports := rfl
@[simp] theorem jobStep_rmd (s : State) (h : Nat) : (s.jobStep h).rmd = s.rmd := rfl
@[simp] theorem jobStep_rrx (s : State) (h : Nat) : (s.jobStep h).rrx = s.rrx := rfl
@[simp] theorem jobStep_rsf (s : State) (h : Nat) : (s.jobStep h).rsf = s.rsf := rfl
@[simp] theorem jobStep_memc (s : State) (h : Nat) : (s.jobStep h).memc = s.memc := rfl
@[simp] theorem jobStep_zon (s : State) (h : Nat) : (s.jobStep h).zon = s.zon := rfl
@[simp] theorem jobStep_eve (s : State) (h : Nat) : (s.jobStep h).eve = s.eve := rfl
@[simp] theorem jobStep_vdc (s : State) (h : Nat) : (s.jobStep h).vdc = s.vdc := rfl
@[simp] theorem jobStep_cmp (s : State) (h : Nat) : (s.jobStep h).cmp = s.cmp := rfl
@[simp] theorem jobStep_sco (s : State) (h : Nat) : (s.jobStep h).sco = s.sco := rfl
@[simp] theorem jobStep_vdcIn (s : State) (h : Nat) : (s.jobStep h).vdcIn = s.vdcIn := rfl
@[simp] theorem jobStep_cmpIn (s : State) (h : Nat) : (s.jobStep h).cmpIn = s.cmpIn := rfl
@[simp] theorem jobStep_hodQueue (s : State) (h : Nat) : (s.jobStep h).hodQueue = s.hodQueue := rfl
@[simp] theorem jobStep_hodHeld (s : State) (h : Nat) : (s.jobStep h).hodHeld = s.hodHeld := rfl
@[simp] theorem jobStep_streams (s : State) (h : Nat) : (s.jobStep h).streams = s.streams := rfl
@[simp] theorem jobStep_hif (s : State) (h : Nat) : (s.jobStep h).hif = s.hif := rfl
@[simp] theorem jobStep_acq (s : State) (h : Nat) : (s.jobStep h).acq = s.acq := rfl
@[simp] theorem jobStep_ary (s : State) (h : Nat) : (s.jobStep h).ary = s.ary := rfl
@[simp] theorem jobStep_mgt (s : State) (h : Nat) : (s.jobStep h).mgt = s.mgt := rfl
@[simp] theorem jobStep_fresh (s : State) (h : Nat) : (s.jobStep h).fresh = s.fresh := rfl
@[simp] theorem jobStep_out (s : State) (h : Nat) : (s.jobStep h).out = s.out := rfl
@[simp] theorem jobStep_pending (s : State) (h : Nat) : (s.jobStep h).pending = s.pending := rfl

@[simp] theorem jobSuspended_shadow (s : State) (h : Nat) : (s.jobSuspended h).shadow = s.shadow := by simp [jobSuspended]
@[simp] theorem jobSuspended_wbuf (s : State) (h : Nat) : (s.jobSuspended h).wbuf = s.wbuf := by simp [jobSuspended]
@[simp] theorem jobSuspended_sram (s : State) (h : Nat) : (s.jobSuspended h).sram = s.sram := by simp [jobSuspended]
@[simp] theorem jobSuspended_dram (s : State) (h : Nat) : (s.jobSuspended h).dram = s.dram := by simp [jobSuspended]
@[simp] theorem jobSuspended_flash (s : State) (h : Nat) : (s.jobSuspended h).flash = s.flash := by simp [jobSuspended]
@[simp] theorem jobSuspended_sys (s : State) (h : Nat) : (s.jobSuspended h).sys = s.sys := by simp [jobSuspended]
@[simp] theorem jobSuspended_syn (s : State) (h : Nat) : (s.jobSuspended h).syn = s.syn := by simp [jobSuspended]
@[simp] theorem jobSuspended_tbu (s : State) (h : Nat) : (s.jobSuspended h).tbu = s.tbu := by simp [jobSuspended]
@[simp] theorem jobSuspended_tdc (s : State) (h : Nat) : (s.jobSuspended h).tdc = s.tdc := by simp [jobSuspended]
@[simp] theorem jobSuspended_ports (s : State) (h : Nat) : (s.jobSuspended h).ports = s.ports := by simp [jobSuspended]
@[simp] theorem jobSuspended_rmd (s : State) (h : Nat) : (s.jobSuspended h).rmd = s.rmd := by simp [jobSuspended]
@[simp] theorem jobSuspended_rrx (s : State) (h : Nat) : (s.jobSuspended h).rrx = s.rrx := by simp [jobSuspended]
@[simp] theorem jobSuspended_rsf (s : State) (h : Nat) : (s.jobSuspended h).rsf = s.rsf := by simp [jobSuspended]
@[simp] theorem jobSuspended_memc (s : State) (h : Nat) : (s.jobSuspended h).memc = s.memc := by simp [jobSuspended]
@[simp] theorem jobSuspended_zon (s : State) (h : Nat) : (s.jobSuspended h).zon = s.zon := by simp [jobSuspended]
@[simp] theorem jobSuspended_eve (s : State) (h : Nat) : (s.jobSuspended h).eve = s.eve := by simp [jobSuspended]
@[simp] theorem jobSuspended_vdc (s : State) (h : Nat) : (s.jobSuspended h).vdc = s.vdc := by simp [jobSuspended]
@[simp] theorem jobSuspended_cmp (s : State) (h : Nat) : (s.jobSuspended h).cmp = s.cmp := by simp [jobSuspended]
@[simp] theorem jobSuspended_sco (s : State) (h : Nat) : (s.jobSuspended h).sco = s.sco := by simp [jobSuspended]
@[simp] theorem jobSuspended_vdcIn (s : State) (h : Nat) : (s.jobSuspended h).vdcIn = s.vdcIn := by simp [jobSuspended]
@[simp] theorem jobSuspended_cmpIn (s : State) (h : Nat) : (s.jobSuspended h).cmpIn = s.cmpIn := by simp [jobSuspended]
@[simp] theorem jobSuspended_hodQueue (s : State) (h : Nat) : (s.jobSuspended h).hodQueue = s.hodQueue := by simp [jobSuspended]
@[simp] theorem jobSuspended_hodHeld (s : State) (h : Nat) : (s.jobSuspended h).hodHeld = s.hodHeld := by simp [jobSuspended]
@[simp] theorem jobSuspended_streams (s : State) (h : Nat) : (s.jobSuspended h).streams = s.streams := by simp [jobSuspended]
@[simp] theorem jobSuspended_acq (s : State) (h : Nat) : (s.jobSuspended h).acq = s.acq := by simp [jobSuspended]
@[simp] theorem jobSuspended_ary (s : State) (h : Nat) : (s.jobSuspended h).ary = s.ary := by simp [jobSuspended]
@[simp] theorem jobSuspended_mgt (s : State) (h : Nat) : (s.jobSuspended h).mgt = s.mgt := by simp [jobSuspended]
@[simp] theorem jobSuspended_fresh (s : State) (h : Nat) : (s.jobSuspended h).fresh = s.fresh := by simp [jobSuspended]
@[simp] theorem jobSuspended_pending (s : State) (h : Nat) : (s.jobSuspended h).pending = s.pending := by simp [jobSuspended]


/-! ### Events -/

@[simp] theorem emit_rd (s : State) (e : Emit) (f : Field) : (s.emit e).rd f = s.rd f := rfl
@[simp] theorem emit_on (s : State) (e : Emit) (f : Field) : (s.emit e).on f = s.on f := rfl
@[simp] theorem emit_bit (s : State) (e : Emit) (f : Field) (i : Nat) : (s.emit e).bit f i = s.bit f i := rfl

theorem evGroup_vector {off v : Nat} {l : List Nat} (h : evGroup off = some (v, l)) : v < 32 := by
  have h1 : ∀ e ∈ evGroups, e.1 < 32 := by decide
  exact h1 (v, l) (List.mem_of_find?_eq_some h)

theorem rd_signal (s : State) {v : Nat} (hv : v < 32) (h : f.key ≠ 0x1a48000) : (s.signal v).rd f = s.rd f := by
  unfold signal
  split
  · rfl
  · split
    · have e : v / 32 = 0 := by omega
      rw [e, putBit, rd_wr_ne]
      simpa [R.HIF_PBA_PENDING] using h.symm
    · rfl

/-- Setting flags leaves every register field alone but their own and the pending bits of MSI-X. -/
theorem rd_evMask_ne (s : State) (m : Nat) (h : f.key ≠ g.key) (hp : g.key ≠ 0x1a48000) :
    (s.evMask f m).rd g = s.rd g := by
  unfold evMask
  split
  · rfl
  · dsimp only
    split
    · exact rd_wr_ne s _ h
    · rename_i v l hg
      split
      · exact rd_wr_ne s _ h
      · rw [rd_signal _ (evGroup_vector hg) hp, rd_wr_ne s _ h]

theorem on_evMask_ne (s : State) (m : Nat) (h : f.key ≠ g.key) (hp : g.key ≠ 0x1a48000) :
    (s.evMask f m).on g = s.on g := by rw [on, rd_evMask_ne s m h hp, on]

theorem bit_evMask_ne (s : State) (m j : Nat) (h : f.key ≠ g.key) (hp : g.key ≠ 0x1a48000) :
    (s.evMask f m).bit g j = s.bit g j := by rw [bit, rd_evMask_ne s m h hp, bit]

theorem rd_ev_ne (s : State) (i : Nat) (h : f.key ≠ g.key) (hp : g.key ≠ 0x1a48000) : (s.ev f i).rd g = s.rd g :=
  rd_evMask_ne s _ h hp

theorem on_ev_ne (s : State) (i : Nat) (h : f.key ≠ g.key) (hp : g.key ≠ 0x1a48000) : (s.ev f i).on g = s.on g :=
  on_evMask_ne s _ h hp

theorem bit_ev_ne (s : State) (i j : Nat) (h : f.key ≠ g.key) (hp : g.key ≠ 0x1a48000) :
    (s.ev f i).bit g j = s.bit g j := bit_evMask_ne s _ j h hp

/-- The flags that are set read 1 and the field's others as before. -/
theorem rd_evMask_same (s : State) {m : Nat} (hm : m ≠ 0) (hp : f.key ≠ 0x1a48000) :
    (s.evMask f m).rd f = (s.rd f ||| m) % 2 ^ f.width := by
  unfold evMask
  simp only [hm, if_false]
  split
  · exact rd_wr_same ..
  · rename_i v l hg
    split
    · exact rd_wr_same ..
    · rw [rd_signal _ (evGroup_vector hg) hp, rd_wr_same]

theorem bit_ev_same (s : State) (i j : Nat) (hj : j < f.width) (hp : f.key ≠ 0x1a48000) :
    (s.ev f i).bit f j = (s.bit f j || decide (i = j)) := by
  rw [ev, bit, rd_evMask_same s (by positivity) hp, Nat.testBit_mod_two_pow, Nat.testBit_or, bit, Nat.testBit_two_pow]
  simp [hj]

theorem on_ev_same (s : State) (hw : f.width = 1) (hp : f.key ≠ 0x1a48000) : (s.ev f 0).on f = true := by
  have h : (s.ev f 0).bit f 0 = true := by rw [bit_ev_same s 0 0 (by omega) hp]; simp
  rw [bit] at h
  rw [on]
  rcases hr : (s.ev f 0).rd f with _ | k
  · simp [hr] at h
  · rfl


/-! ### The event log -/

/-- The keys of the fields that logging writes: MGT_LOG_SEQ, the two log flags, and the level, discard and wait counts
of stream 6. -/
def logKeys : List Nat := [0x100060, 0x100021, 0x100022, 0x1410300, 0x1410340, 0x1410360, 0x1a48000]

theorem rd_offer (s : State) (st : Fin 7) (r : Rec) (h : g.key ≠ 0x1410000 + 0x80 * st.val)
    (h1 : g.key ≠ 0x1410040 + 0x80 * st.val) (h2 : g.key ≠ 0x1410060 + 0x80 * st.val) : (s.offer st r).rd g = s.rd g := by
  unfold offer
  dsimp only
  split
  · exact rd_wr_ne _ _ (by simpa [R.CMP_STR_DISCARD_COUNT] using h1.symm)
  · have e1 : (R.CMP_STR_STAT_LEVEL st).key ≠ g.key := by simpa [R.CMP_STR_STAT_LEVEL] using h.symm
    have e2 : (R.CMP_STR_WAITS_COUNT st).key ≠ g.key := by simpa [R.CMP_STR_WAITS_COUNT] using h2.symm
    repeat (first | exact rd_wr_ne _ _ e1 | exact rd_wr_ne _ _ e2 | split)

/-- Logging leaves every other register field alone. -/
theorem rd_log (s : State) (a b c d : Nat) (l : List Nat) (h : g.key ∉ logKeys) : (s.log a b c d l).rd g = s.rd g := by
  simp only [logKeys, List.mem_cons, List.not_mem_nil, or_false, not_or] at h
  obtain ⟨h1, h2, h3, h4, h5, h6, h7⟩ := h
  have e : ∀ (t : State) (v : Nat) (ws : List Nat), (t.logPut v ws).rd g = t.rd g := by
    intro t v ws
    unfold logPut
    dsimp only
    split
    · rw [rd_ev_ne _ _ (Ne.symm h3) h7, rd_ev_ne _ _ (Ne.symm h2) h7, rd_offer _ _ _ (by simpa using h4) (by simpa using h5) (by simpa using h6)]
      rfl
    · rw [rd_ev_ne _ _ (Ne.symm h2) h7, rd_offer _ _ _ (by simpa using h4) (by simpa using h5) (by simpa using h6)]
      rfl
  unfold log
  dsimp only
  rw [e, bump, rd_wr_ne _ _ (Ne.symm h1)]

end Sys2Proof.Machine.State
end

