-- ==== Sys2Proof/Laws/Blocks.lean ====
section
/-! SUPPORT. One lemma per field for each operation that changes the record of a block: it changes nothing else. -/

-- One thread, so that the whole package compiles within a bounded number of threads.
set_option Elab.async false

namespace Sys2Proof.Machine.State
open Sys2Proof Arith

@[simp] theorem modPort_rd (s : State) (n : Fin 4) (h : Port → Port) (f : Field) : (s.modPort n h).rd f = s.rd f := rfl
@[simp] theorem modPort_on (s : State) (n : Fin 4) (h : Port → Port) (f : Field) : (s.modPort n h).on f = s.on f := rfl
@[simp] theorem modPort_bit (s : State) (n : Fin 4) (h : Port → Port) (f : Field) (i : Nat) : (s.modPort n h).bit f i = s.bit f i := rfl
@[simp] theorem modPort_self (s : State) (n : Fin 4) (h : Port → Port) : (s.modPort n h).ports = s.ports.set n (h s.ports[n]) := rfl

@[simp] theorem modSys_rd (s : State) (h : Sys → Sys) (f : Field) : (s.modSys h).rd f = s.rd f := rfl
@[simp] theorem modSys_on (s : State) (h : Sys → Sys) (f : Field) : (s.modSys h).on f = s.on f := rfl
@[simp] theorem modSys_bit (s : State) (h : Sys → Sys) (f : Field) (i : Nat) : (s.modSys h).bit f i = s.bit f i := rfl
@[simp] theorem modSys_self (s : State) (h : Sys → Sys) : (s.modSys h).sys = h s.sys := rfl

@[simp] theorem modRrx_rd (s : State) (n : Fin 4) (h : Rrx → Rrx) (f : Field) : (s.modRrx n h).rd f = s.rd f := rfl
@[simp] theorem modRrx_on (s : State) (n : Fin 4) (h : Rrx → Rrx) (f : Field) : (s.modRrx n h).on f = s.on f := rfl
@[simp] theorem modRrx_bit (s : State) (n : Fin 4) (h : Rrx → Rrx) (f : Field) (i : Nat) : (s.modRrx n h).bit f i = s.bit f i := rfl
@[simp] theorem modRrx_self (s : State) (n : Fin 4) (h : Rrx → Rrx) : (s.modRrx n h).rrx = s.rrx.set n (h s.rrx[n]) := rfl

@[simp] theorem modJob_rd (s : State) (j : Nat) (h : Job → Job) (f : Field) : (s.modJob j h).rd f = s.rd f := rfl
@[simp] theorem modJob_on (s : State) (j : Nat) (h : Job → Job) (f : Field) : (s.modJob j h).on f = s.on f := rfl
@[simp] theorem modJob_bit (s : State) (j : Nat) (h : Job → Job) (f : Field) (i : Nat) : (s.modJob j h).bit f i = s.bit f i := rfl

@[simp] theorem modCore_regs (s : State) (c : Fin 64) (h : DCore → DCore) : (s.modCore c h).regs = s.regs := rfl
@[simp] theorem modCore_shadow (s : State) (c : Fin 64) (h : DCore → DCore) : (s.modCore c h).shadow = s.shadow := rfl
@[simp] theorem modCore_wbuf (s : State) (c : Fin 64) (h : DCore → DCore) : (s.modCore c h).wbuf = s.wbuf := rfl
@[simp] theorem modCore_sram (s : State) (c : Fin 64) (h : DCore → DCore) : (s.modCore c h).sram = s.sram := rfl
@[simp] theorem modCore_dram (s : State) (c : Fin 64) (h : DCore → DCore) : (s.modCore c h).dram = s.dram := rfl
@[simp] theorem modCore_flash (s : State) (c : Fin 64) (h : DCore → DCore) : (s.modCore c h).flash = s.flash := rfl
@[simp] theorem modCore_sys (s : State) (c : Fin 64) (h : DCore → DCore) : (s.modCore c h).sys = s.sys := rfl
@[simp] theorem modCore_syn (s : State) (c : Fin 64) (h : DCore → DCore) : (s.modCore c h).syn = s.syn := rfl
@[simp] theorem modCore_tbu (s : State) (c : Fin 64) (h : DCore → DCore) : (s.modCore c h).tbu = s.tbu := rfl
@[simp] theorem modCore_tdc (s : State) (c : Fin 64) (h : DCore → DCore) : (s.modCore c h).tdc = s.tdc := rfl
@[simp] theorem modCore_ports (s : State) (c : Fin 64) (h : DCore → DCore) : (s.modCore c h).ports = s.ports := rfl
@[simp] theorem modCore_rmd (s : State) (c : Fin 64) (h : DCore → DCore) : (s.modCore c h).rmd = s.rmd := rfl
@[simp] theorem modCore_rrx (s : State) (c : Fin 64) (h : DCore → DCore) : (s.modCore c h).rrx = s.rrx := rfl
@[simp] theorem modCore_rsf (s : State) (c : Fin 64) (h : DCore → DCore) : (s.modCore c h).rsf = s.rsf := rfl
@[simp] theorem modCore_memc (s : State) (c : Fin 64) (h : DCore → DCore) : (s.modCore c h).memc = s.memc := rfl
@[simp] theorem modCore_zon (s : State) (c : Fin 64) (h : DCore → DCore) : (s.modCore c h).zon = s.zon := rfl
@[simp] theorem modCore_eve (s : State) (c : Fin 64) (h : DCore → DCore) : (s.modCore c h).eve = s.eve := rfl
@[simp] theorem modCore_cmp (s : State) (c : Fin 64) (h : DCore → DCore) : (s.modCore c h).cmp = s.cmp := rfl
@[simp] theorem modCore_sco (s : State) (c : Fin 64) (h : DCore → DCore) : (s.modCore c h).sco = s.sco := rfl
@[simp] theorem modCore_vdcIn (s : State) (c : Fin 64) (h : DCore → DCore) : (s.modCore c h).vdcIn = s.vdcIn := rfl
@[simp] theorem modCore_cmpIn (s : State) (c : Fin 64) (h : DCore → DCore) : (s.modCore c h).cmpIn = s.cmpIn := rfl
@[simp] theorem modCore_cmd (s : State) (c : Fin 64) (h : DCore → DCore) : (s.modCore c h).cmd = s.cmd := rfl
@[simp] theorem modCore_hodQueue (s : State) (c : Fin 64) (h : DCore → DCore) : (s.modCore c h).hodQueue = s.hodQueue := rfl
@[simp] theorem modCore_hodHeld (s : State) (c : Fin 64) (h : DCore → DCore) : (s.modCore c h).hodHeld = s.hodHeld := rfl
@[simp] theorem modCore_streams (s : State) (c : Fin 64) (h : DCore → DCore) : (s.modCore c h).streams = s.streams := rfl
@[simp] theorem modCore_hif (s : State) (c : Fin 64) (h : DCore → DCore) : (s.modCore c h).hif = s.hif := rfl
@[simp] theorem modCore_acq (s : State) (c : Fin 64) (h : DCore → DCore) : (s.modCore c h).acq = s.acq := rfl
@[simp] theorem modCore_ary (s : State) (c : Fin 64) (h : DCore → DCore) : (s.modCore c h).ary = s.ary := rfl
@[simp] theorem modCore_mgt (s : State) (c : Fin 64) (h : DCore → DCore) : (s.modCore c h).mgt = s.mgt := rfl
@[simp] theorem modCore_fresh (s : State) (c : Fin 64) (h : DCore → DCore) : (s.modCore c h).fresh = s.fresh := rfl
@[simp] theorem modCore_out (s : State) (c : Fin 64) (h : DCore → DCore) : (s.modCore c h).out = s.out := rfl
@[simp] theorem modCore_pending (s : State) (c : Fin 64) (h : DCore → DCore) : (s.modCore c h).pending = s.pending := rfl
@[simp] theorem modCore_rd (s : State) (c : Fin 64) (h : DCore → DCore) (f : Field) : (s.modCore c h).rd f = s.rd f := rfl
@[simp] theorem modCore_on (s : State) (c : Fin 64) (h : DCore → DCore) (f : Field) : (s.modCore c h).on f = s.on f := rfl
@[simp] theorem modCore_bit (s : State) (c : Fin 64) (h : DCore → DCore) (f : Field) (i : Nat) : (s.modCore c h).bit f i = s.bit f i := rfl

@[simp] theorem modGroup_regs (s : State) (g : Fin 8) (h : DGroup → DGroup) : (s.modGroup g h).regs = s.regs := rfl
@[simp] theorem modGroup_shadow (s : State) (g : Fin 8) (h : DGroup → DGroup) : (s.modGroup g h).shadow = s.shadow := rfl
@[simp] theorem modGroup_wbuf (s : State) (g : Fin 8) (h : DGroup → DGroup) : (s.modGroup g h).wbuf = s.wbuf := rfl
@[simp] theorem modGroup_sram (s : State) (g : Fin 8) (h : DGroup → DGroup) : (s.modGroup g h).sram = s.sram := rfl
@[simp] theorem modGroup_dram (s : State) (g : Fin 8) (h : DGroup → DGroup) : (s.modGroup g h).dram = s.dram := rfl
@[simp] theorem modGroup_flash (s : State) (g : Fin 8) (h : DGroup → DGroup) : (s.modGroup g h).flash = s.flash := rfl
@[simp] theorem modGroup_sys (s : State) (g : Fin 8) (h : DGroup → DGroup) : (s.modGroup g h).sys = s.sys := rfl
@[simp] theorem modGroup_syn (s : State) (g : Fin 8) (h : DGroup → DGroup) : (s.modGroup g h).syn = s.syn := rfl
@[simp] theorem modGroup_tbu (s : State) (g : Fin 8) (h : DGroup → DGroup) : (s.modGroup g h).tbu = s.tbu := rfl
@[simp] theorem modGroup_tdc (s : State) (g : Fin 8) (h : DGroup → DGroup) : (s.modGroup g h).tdc = s.tdc := rfl
@[simp] theorem modGroup_ports (s : State) (g : Fin 8) (h : DGroup → DGroup) : (s.modGroup g h).ports = s.ports := rfl
@[simp] theorem modGroup_rmd (s : State) (g : Fin 8) (h : DGroup → DGroup) : (s.modGroup g h).rmd = s.rmd := rfl
@[simp] theorem modGroup_rrx (s : State) (g : Fin 8) (h : DGroup → DGroup) : (s.modGroup g h).rrx = s.rrx := rfl
@[simp] theorem modGroup_rsf (s : State) (g : Fin 8) (h : DGroup → DGroup) : (s.modGroup g h).rsf = s.rsf := rfl
@[simp] theorem modGroup_memc (s : State) (g : Fin 8) (h : DGroup → DGroup) : (s.modGroup g h).memc = s.memc := rfl
@[simp] theorem modGroup_zon (s : State) (g : Fin 8) (h : DGroup → DGroup) : (s.modGroup g h).zon = s.zon := rfl
@[simp] theorem modGroup_eve (s : State) (g : Fin 8) (h : DGroup → DGroup) : (s.modGroup g h).eve = s.eve := rfl
@[simp] theorem modGroup_cmp (s : State) (g : Fin 8) (h : DGroup → DGroup) : (s.modGroup g h).cmp = s.cmp := rfl
@[simp] theorem modGroup_sco (s : State) (g : Fin 8) (h : DGroup → DGroup) : (s.modGroup g h).sco = s.sco := rfl
@[simp] theorem modGroup_vdcIn (s : State) (g : Fin 8) (h : DGroup → DGroup) : (s.modGroup g h).vdcIn = s.vdcIn := rfl
@[simp] theorem modGroup_cmpIn (s : State) (g : Fin 8) (h : DGroup → DGroup) : (s.modGroup g h).cmpIn = s.cmpIn := rfl
@[simp] theorem modGroup_cmd (s : State) (g : Fin 8) (h : DGroup → DGroup) : (s.modGroup g h).cmd = s.cmd := rfl
@[simp] theorem modGroup_hodQueue (s : State) (g : Fin 8) (h : DGroup → DGroup) : (s.modGroup g h).hodQueue = s.hodQueue := rfl
@[simp] theorem modGroup_hodHeld (s : State) (g : Fin 8) (h : DGroup → DGroup) : (s.modGroup g h).hodHeld = s.hodHeld := rfl
@[simp] theorem modGroup_streams (s : State) (g : Fin 8) (h : DGroup → DGroup) : (s.modGroup g h).streams = s.streams := rfl
@[simp] theorem modGroup_hif (s : State) (g : Fin 8) (h : DGroup → DGroup) : (s.modGroup g h).hif = s.hif := rfl
@[simp] theorem modGroup_acq (s : State) (g : Fin 8) (h : DGroup → DGroup) : (s.modGroup g h).acq = s.acq := rfl
@[simp] theorem modGroup_ary (s : State) (g : Fin 8) (h : DGroup → DGroup) : (s.modGroup g h).ary = s.ary := rfl
@[simp] theorem modGroup_mgt (s : State) (g : Fin 8) (h : DGroup → DGroup) : (s.modGroup g h).mgt = s.mgt := rfl
@[simp] theorem modGroup_fresh (s : State) (g : Fin 8) (h : DGroup → DGroup) : (s.modGroup g h).fresh = s.fresh := rfl
@[simp] theorem modGroup_out (s : State) (g : Fin 8) (h : DGroup → DGroup) : (s.modGroup g h).out = s.out := rfl
@[simp] theorem modGroup_pending (s : State) (g : Fin 8) (h : DGroup → DGroup) : (s.modGroup g h).pending = s.pending := rfl
@[simp] theorem modGroup_rd (s : State) (g : Fin 8) (h : DGroup → DGroup) (f : Field) : (s.modGroup g h).rd f = s.rd f := rfl
@[simp] theorem modGroup_on (s : State) (g : Fin 8) (h : DGroup → DGroup) (f : Field) : (s.modGroup g h).on f = s.on f := rfl
@[simp] theorem modGroup_bit (s : State) (g : Fin 8) (h : DGroup → DGroup) (f : Field) (i : Nat) : (s.modGroup g h).bit f i = s.bit f i := rfl

@[simp] theorem modHif_regs (s : State) (h : Hif → Hif) : (s.modHif h).regs = s.regs := rfl
@[simp] theorem modHif_shadow (s : State) (h : Hif → Hif) : (s.modHif h).shadow = s.shadow := rfl
@[simp] theorem modHif_wbuf (s : State) (h : Hif → Hif) : (s.modHif h).wbuf = s.wbuf := rfl
@[simp] theorem modHif_sram (s : State) (h : Hif → Hif) : (s.modHif h).sram = s.sram := rfl
@[simp] theorem modHif_dram (s : State) (h : Hif → Hif) : (s.modHif h).dram = s.dram := rfl
@[simp] theorem modHif_flash (s : State) (h : Hif → Hif) : (s.modHif h).flash = s.flash := rfl
@[simp] theorem modHif_sys (s : State) (h : Hif → Hif) : (s.modHif h).sys = s.sys := rfl
@[simp] theorem modHif_syn (s : State) (h : Hif → Hif) : (s.modHif h).syn = s.syn := rfl
@[simp] theorem modHif_tbu (s : State) (h : Hif → Hif) : (s.modHif h).tbu = s.tbu := rfl
@[simp] theorem modHif_tdc (s : State) (h : Hif → Hif) : (s.modHif h).tdc = s.tdc := rfl
@[simp] theorem modHif_ports (s : State) (h : Hif → Hif) : (s.modHif h).ports = s.ports := rfl
@[simp] theorem modHif_rmd (s : State) (h : Hif → Hif) : (s.modHif h).rmd = s.rmd := rfl
@[simp] theorem modHif_rrx (s : State) (h : Hif → Hif) : (s.modHif h).rrx = s.rrx := rfl
@[simp] theorem modHif_rsf (s : State) (h : Hif → Hif) : (s.modHif h).rsf = s.rsf := rfl
@[simp] theorem modHif_memc (s : State) (h : Hif → Hif) : (s.modHif h).memc = s.memc := rfl
@[simp] theorem modHif_zon (s : State) (h : Hif → Hif) : (s.modHif h).zon = s.zon := rfl
@[simp] theorem modHif_eve (s : State) (h : Hif → Hif) : (s.modHif h).eve = s.eve := rfl
@[simp] theorem modHif_vdc (s : State) (h : Hif → Hif) : (s.modHif h).vdc = s.vdc := rfl
@[simp] theorem modHif_cmp (s : State) (h : Hif → Hif) : (s.modHif h).cmp = s.cmp := rfl
@[simp] theorem modHif_sco (s : State) (h : Hif → Hif) : (s.modHif h).sco = s.sco := rfl
@[simp] theorem modHif_vdcIn (s : State) (h : Hif → Hif) : (s.modHif h).vdcIn = s.vdcIn := rfl
@[simp] theorem modHif_cmpIn (s : State) (h : Hif → Hif) : (s.modHif h).cmpIn = s.cmpIn := rfl
@[simp] theorem modHif_cmd (s : State) (h : Hif → Hif) : (s.modHif h).cmd = s.cmd := rfl
@[simp] theorem modHif_hodQueue (s : State) (h : Hif → Hif) : (s.modHif h).hodQueue = s.hodQueue := rfl
@[simp] theorem modHif_hodHeld (s : State) (h : Hif → Hif) : (s.modHif h).hodHeld = s.hodHeld := rfl
@[simp] theorem modHif_streams (s : State) (h : Hif → Hif) : (s.modHif h).streams = s.streams := rfl
@[simp] theorem modHif_acq (s : State) (h : Hif → Hif) : (s.modHif h).acq = s.acq := rfl
@[simp] theorem modHif_ary (s : State) (h : Hif → Hif) : (s.modHif h).ary = s.ary := rfl
@[simp] theorem modHif_mgt (s : State) (h : Hif → Hif) : (s.modHif h).mgt = s.mgt := rfl
@[simp] theorem modHif_fresh (s : State) (h : Hif → Hif) : (s.modHif h).fresh = s.fresh := rfl
@[simp] theorem modHif_out (s : State) (h : Hif → Hif) : (s.modHif h).out = s.out := rfl
@[simp] theorem modHif_pending (s : State) (h : Hif → Hif) : (s.modHif h).pending = s.pending := rfl
@[simp] theorem modHif_rd (s : State) (h : Hif → Hif) (f : Field) : (s.modHif h).rd f = s.rd f := rfl
@[simp] theorem modHif_on (s : State) (h : Hif → Hif) (f : Field) : (s.modHif h).on f = s.on f := rfl
@[simp] theorem modHif_bit (s : State) (h : Hif → Hif) (f : Field) (i : Nat) : (s.modHif h).bit f i = s.bit f i := rfl
@[simp] theorem modHif_self (s : State) (h : Hif → Hif) : (s.modHif h).hif = h s.hif := rfl

@[simp] theorem modAry_regs (s : State) (h : Ary → Ary) : (s.modAry h).regs = s.regs := rfl
@[simp] theorem modAry_shadow (s : State) (h : Ary → Ary) : (s.modAry h).shadow = s.shadow := rfl
@[simp] theorem modAry_wbuf (s : State) (h : Ary → Ary) : (s.modAry h).wbuf = s.wbuf := rfl
@[simp] theorem modAry_sram (s : State) (h : Ary → Ary) : (s.modAry h).sram = s.sram := rfl
@[simp] theorem modAry_dram (s : State) (h : Ary → Ary) : (s.modAry h).dram = s.dram := rfl
@[simp] theorem modAry_flash (s : State) (h : Ary → Ary) : (s.modAry h).flash = s.flash := rfl
@[simp] theorem modAry_sys (s : State) (h : Ary → Ary) : (s.modAry h).sys = s.sys := rfl
@[simp] theorem modAry_syn (s : State) (h : Ary → Ary) : (s.modAry h).syn = s.syn := rfl
@[simp] theorem modAry_tbu (s : State) (h : Ary → Ary) : (s.modAry h).tbu = s.tbu := rfl
@[simp] theorem modAry_tdc (s : State) (h : Ary → Ary) : (s.modAry h).tdc = s.tdc := rfl
@[simp] theorem modAry_ports (s : State) (h : Ary → Ary) : (s.modAry h).ports = s.ports := rfl
@[simp] theorem modAry_rmd (s : State) (h : Ary → Ary) : (s.modAry h).rmd = s.rmd := rfl
@[simp] theorem modAry_rrx (s : State) (h : Ary → Ary) : (s.modAry h).rrx = s.rrx := rfl
@[simp] theorem modAry_rsf (s : State) (h : Ary → Ary) : (s.modAry h).rsf = s.rsf := rfl
@[simp] theorem modAry_memc (s : State) (h : Ary → Ary) : (s.modAry h).memc = s.memc := rfl
@[simp] theorem modAry_zon (s : State) (h : Ary → Ary) : (s.modAry h).zon = s.zon := rfl
@[simp] theorem modAry_eve (s : State) (h : Ary → Ary) : (s.modAry h).eve = s.eve := rfl
@[simp] theorem modAry_vdc (s : State) (h : Ary → Ary) : (s.modAry h).vdc = s.vdc := rfl
@[simp] theorem modAry_cmp (s : State) (h : Ary → Ary) : (s.modAry h).cmp = s.cmp := rfl
@[simp] theorem modAry_sco (s : State) (h : Ary → Ary) : (s.modAry h).sco = s.sco := rfl
@[simp] theorem modAry_vdcIn (s : State) (h : Ary → Ary) : (s.modAry h).vdcIn = s.vdcIn := rfl
@[simp] theorem modAry_cmpIn (s : State) (h : Ary → Ary) : (s.modAry h).cmpIn = s.cmpIn := rfl
@[simp] theorem modAry_cmd (s : State) (h : Ary → Ary) : (s.modAry h).cmd = s.cmd := rfl
@[simp] theorem modAry_hodQueue (s : State) (h : Ary → Ary) : (s.modAry h).hodQueue = s.hodQueue := rfl
@[simp] theorem modAry_hodHeld (s : State) (h : Ary → Ary) : (s.modAry h).hodHeld = s.hodHeld := rfl
@[simp] theorem modAry_streams (s : State) (h : Ary → Ary) : (s.modAry h).streams = s.streams := rfl
@[simp] theorem modAry_hif (s : State) (h : Ary → Ary) : (s.modAry h).hif = s.hif := rfl
@[simp] theorem modAry_acq (s : State) (h : Ary → Ary) : (s.modAry h).acq = s.acq := rfl
@[simp] theorem modAry_mgt (s : State) (h : Ary → Ary) : (s.modAry h).mgt = s.mgt := rfl
@[simp] theorem modAry_fresh (s : State) (h : Ary → Ary) : (s.modAry h).fresh = s.fresh := rfl
@[simp] theorem modAry_out (s : State) (h : Ary → Ary) : (s.modAry h).out = s.out := rfl
@[simp] theorem modAry_pending (s : State) (h : Ary → Ary) : (s.modAry h).pending = s.pending := rfl
@[simp] theorem modAry_rd (s : State) (h : Ary → Ary) (f : Field) : (s.modAry h).rd f = s.rd f := rfl
@[simp] theorem modAry_on (s : State) (h : Ary → Ary) (f : Field) : (s.modAry h).on f = s.on f := rfl
@[simp] theorem modAry_bit (s : State) (h : Ary → Ary) (f : Field) (i : Nat) : (s.modAry h).bit f i = s.bit f i := rfl
@[simp] theorem modAry_self (s : State) (h : Ary → Ary) : (s.modAry h).ary = h s.ary := rfl

@[simp] theorem modMember_regs (s : State) (i : Nat) (h : Member → Member) : (s.modMember i h).regs = s.regs := rfl
@[simp] theorem modMember_shadow (s : State) (i : Nat) (h : Member → Member) : (s.modMember i h).shadow = s.shadow := rfl
@[simp] theorem modMember_wbuf (s : State) (i : Nat) (h : Member → Member) : (s.modMember i h).wbuf = s.wbuf := rfl
@[simp] theorem modMember_sram (s : State) (i : Nat) (h : Member → Member) : (s.modMember i h).sram = s.sram := rfl
@[simp] theorem modMember_dram (s : State) (i : Nat) (h : Member → Member) : (s.modMember i h).dram = s.dram := rfl
@[simp] theorem modMember_flash (s : State) (i : Nat) (h : Member → Member) : (s.modMember i h).flash = s.flash := rfl
@[simp] theorem modMember_sys (s : State) (i : Nat) (h : Member → Member) : (s.modMember i h).sys = s.sys := rfl
@[simp] theorem modMember_syn (s : State) (i : Nat) (h : Member → Member) : (s.modMember i h).syn = s.syn := rfl
@[simp] theorem modMember_tbu (s : State) (i : Nat) (h : Member → Member) : (s.modMember i h).tbu = s.tbu := rfl
@[simp] theorem modMember_tdc (s : State) (i : Nat) (h : Member → Member) : (s.modMember i h).tdc = s.tdc := rfl
@[simp] theorem modMember_ports (s : State) (i : Nat) (h : Member → Member) : (s.modMember i h).ports = s.ports := rfl
@[simp] theorem modMember_rmd (s : State) (i : Nat) (h : Member → Member) : (s.modMember i h).rmd = s.rmd := rfl
@[simp] theorem modMember_rrx (s : State) (i : Nat) (h : Member → Member) : (s.modMember i h).rrx = s.rrx := rfl
@[simp] theorem modMember_rsf (s : State) (i : Nat) (h : Member → Member) : (s.modMember i h).rsf = s.rsf := rfl
@[simp] theorem modMember_memc (s : State) (i : Nat) (h : Member → Member) : (s.modMember i h).memc = s.memc := rfl
@[simp] theorem modMember_zon (s : State) (i : Nat) (h : Member → Member) : (s.modMember i h).zon = s.zon := rfl
@[simp] theorem modMember_eve (s : State) (i : Nat) (h : Member → Member) : (s.modMember i h).eve = s.eve := rfl
@[simp] theorem modMember_vdc (s : State) (i : Nat) (h : Member → Member) : (s.modMember i h).vdc = s.vdc := rfl
@[simp] theorem modMember_cmp (s : State) (i : Nat) (h : Member → Member) : (s.modMember i h).cmp = s.cmp := rfl
@[simp] theorem modMember_sco (s : State) (i : Nat) (h : Member → Member) : (s.modMember i h).sco = s.sco := rfl
@[simp] theorem modMember_vdcIn (s : State) (i : Nat) (h : Member → Member) : (s.modMember i h).vdcIn = s.vdcIn := rfl
@[simp] theorem modMember_cmpIn (s : State) (i : Nat) (h : Member → Member) : (s.modMember i h).cmpIn = s.cmpIn := rfl
@[simp] theorem modMember_cmd (s : State) (i : Nat) (h : Member → Member) : (s.modMember i h).cmd = s.cmd := rfl
@[simp] theorem modMember_hodQueue (s : State) (i : Nat) (h : Member → Member) : (s.modMember i h).hodQueue = s.hodQueue := rfl
@[simp] theorem modMember_hodHeld (s : State) (i : Nat) (h : Member → Member) : (s.modMember i h).hodHeld = s.hodHeld := rfl
@[simp] theorem modMember_streams (s : State) (i : Nat) (h : Member → Member) : (s.modMember i h).streams = s.streams := rfl
@[simp] theorem modMember_hif (s : State) (i : Nat) (h : Member → Member) : (s.modMember i h).hif = s.hif := rfl
@[simp] theorem modMember_acq (s : State) (i : Nat) (h : Member → Member) : (s.modMember i h).acq = s.acq := rfl
@[simp] theorem modMember_mgt (s : State) (i : Nat) (h : Member → Member) : (s.modMember i h).mgt = s.mgt := rfl
@[simp] theorem modMember_fresh (s : State) (i : Nat) (h : Member → Member) : (s.modMember i h).fresh = s.fresh := rfl
@[simp] theorem modMember_out (s : State) (i : Nat) (h : Member → Member) : (s.modMember i h).out = s.out := rfl
@[simp] theorem modMember_pending (s : State) (i : Nat) (h : Member → Member) : (s.modMember i h).pending = s.pending := rfl
@[simp] theorem modMember_rd (s : State) (i : Nat) (h : Member → Member) (f : Field) : (s.modMember i h).rd f = s.rd f := rfl
@[simp] theorem modMember_on (s : State) (i : Nat) (h : Member → Member) (f : Field) : (s.modMember i h).on f = s.on f := rfl
@[simp] theorem modMember_bit (s : State) (i : Nat) (h : Member → Member) (f : Field) (j : Nat) : (s.modMember i h).bit f j = s.bit f j := rfl

@[simp] theorem modSyn_regs (s : State) (h : Syn → Syn) : (s.modSyn h).regs = s.regs := rfl
@[simp] theorem modSyn_shadow (s : State) (h : Syn → Syn) : (s.modSyn h).shadow = s.shadow := rfl
@[simp] theorem modSyn_wbuf (s : State) (h : Syn → Syn) : (s.modSyn h).wbuf = s.wbuf := rfl
@[simp] theorem modSyn_sram (s : State) (h : Syn → Syn) : (s.modSyn h).sram = s.sram := rfl
@[simp] theorem modSyn_dram (s : State) (h : Syn → Syn) : (s.modSyn h).dram = s.dram := rfl
@[simp] theorem modSyn_flash (s : State) (h : Syn → Syn) : (s.modSyn h).flash = s.flash := rfl
@[simp] theorem modSyn_sys (s : State) (h : Syn → Syn) : (s.modSyn h).sys = s.sys := rfl
@[simp] theorem modSyn_tbu (s : State) (h : Syn → Syn) : (s.modSyn h).tbu = s.tbu := rfl
@[simp] theorem modSyn_tdc (s : State) (h : Syn → Syn) : (s.modSyn h).tdc = s.tdc := rfl
@[simp] theorem modSyn_ports (s : State) (h : Syn → Syn) : (s.modSyn h).ports = s.ports := rfl
@[simp] theorem modSyn_rmd (s : State) (h : Syn → Syn) : (s.modSyn h).rmd = s.rmd := rfl
@[simp] theorem modSyn_rrx (s : State) (h : Syn → Syn) : (s.modSyn h).rrx = s.rrx := rfl
@[simp] theorem modSyn_rsf (s : State) (h : Syn → Syn) : (s.modSyn h).rsf = s.rsf := rfl
@[simp] theorem modSyn_memc (s : State) (h : Syn → Syn) : (s.modSyn h).memc = s.memc := rfl
@[simp] theorem modSyn_zon (s : State) (h : Syn → Syn) : (s.modSyn h).zon = s.zon := rfl
@[simp] theorem modSyn_eve (s : State) (h : Syn → Syn) : (s.modSyn h).eve = s.eve := rfl
@[simp] theorem modSyn_vdc (s : State) (h : Syn → Syn) : (s.modSyn h).vdc = s.vdc := rfl
@[simp] theorem modSyn_cmp (s : State) (h : Syn → Syn) : (s.modSyn h).cmp = s.cmp := rfl
@[simp] theorem modSyn_sco (s : State) (h : Syn → Syn) : (s.modSyn h).sco = s.sco := rfl
@[simp] theorem modSyn_vdcIn (s : State) (h : Syn → Syn) : (s.modSyn h).vdcIn = s.vdcIn := rfl
@[simp] theorem modSyn_cmpIn (s : State) (h : Syn → Syn) : (s.modSyn h).cmpIn = s.cmpIn := rfl
@[simp] theorem modSyn_cmd (s : State) (h : Syn → Syn) : (s.modSyn h).cmd = s.cmd := rfl
@[simp] theorem modSyn_hodQueue (s : State) (h : Syn → Syn) : (s.modSyn h).hodQueue = s.hodQueue := rfl
@[simp] theorem modSyn_hodHeld (s : State) (h : Syn → Syn) : (s.modSyn h).hodHeld = s.hodHeld := rfl
@[simp] theorem modSyn_streams (s : State) (h : Syn → Syn) : (s.modSyn h).streams = s.streams := rfl
@[simp] theorem modSyn_hif (s : State) (h : Syn → Syn) : (s.modSyn h).hif = s.hif := rfl
@[simp] theorem modSyn_acq (s : State) (h : Syn → Syn) : (s.modSyn h).acq = s.acq := rfl
@[simp] theorem modSyn_ary (s : State) (h : Syn → Syn) : (s.modSyn h).ary = s.ary := rfl
@[simp] theorem modSyn_mgt (s : State) (h : Syn → Syn) : (s.modSyn h).mgt = s.mgt := rfl
@[simp] theorem modSyn_fresh (s : State) (h : Syn → Syn) : (s.modSyn h).fresh = s.fresh := rfl
@[simp] theorem modSyn_out (s : State) (h : Syn → Syn) : (s.modSyn h).out = s.out := rfl
@[simp] theorem modSyn_pending (s : State) (h : Syn → Syn) : (s.modSyn h).pending = s.pending := rfl
@[simp] theorem modSyn_rd (s : State) (h : Syn → Syn) (f : Field) : (s.modSyn h).rd f = s.rd f := rfl
@[simp] theorem modSyn_on (s : State) (h : Syn → Syn) (f : Field) : (s.modSyn h).on f = s.on f := rfl
@[simp] theorem modSyn_bit (s : State) (h : Syn → Syn) (f : Field) (i : Nat) : (s.modSyn h).bit f i = s.bit f i := rfl
@[simp] theorem modSyn_self (s : State) (h : Syn → Syn) : (s.modSyn h).syn = h s.syn := rfl

@[simp] theorem modCh_regs (s : State) (k : Fin 4) (h : Chan → Chan) : (s.modCh k h).regs = s.regs := rfl
@[simp] theorem modCh_shadow (s : State) (k : Fin 4) (h : Chan → Chan) : (s.modCh k h).shadow = s.shadow := rfl
@[simp] theorem modCh_wbuf (s : State) (k : Fin 4) (h : Chan → Chan) : (s.modCh k h).wbuf = s.wbuf := rfl
@[simp] theorem modCh_sram (s : State) (k : Fin 4) (h : Chan → Chan) : (s.modCh k h).sram = s.sram := rfl
@[simp] theorem modCh_dram (s : State) (k : Fin 4) (h : Chan → Chan) : (s.modCh k h).dram = s.dram := rfl
@[simp] theorem modCh_flash (s : State) (k : Fin 4) (h : Chan → Chan) : (s.modCh k h).flash = s.flash := rfl
@[simp] theorem modCh_sys (s : State) (k : Fin 4) (h : Chan → Chan) : (s.modCh k h).sys = s.sys := rfl
@[simp] theorem modCh_syn (s : State) (k : Fin 4) (h : Chan → Chan) : (s.modCh k h).syn = s.syn := rfl
@[simp] theorem modCh_tbu (s : State) (k : Fin 4) (h : Chan → Chan) : (s.modCh k h).tbu = s.tbu := rfl
@[simp] theorem modCh_tdc (s : State) (k : Fin 4) (h : Chan → Chan) : (s.modCh k h).tdc = s.tdc := rfl
@[simp] theorem modCh_ports (s : State) (k : Fin 4) (h : Chan → Chan) : (s.modCh k h).ports = s.ports := rfl
@[simp] theorem modCh_rmd (s : State) (k : Fin 4) (h : Chan → Chan) : (s.modCh k h).rmd = s.rmd := rfl
@[simp] theorem modCh_rrx (s : State) (k : Fin 4) (h : Chan → Chan) : (s.modCh k h).rrx = s.rrx := rfl
@[simp] theorem modCh_rsf (s : State) (k : Fin 4) (h : Chan → Chan) : (s.modCh k h).rsf = s.rsf := rfl
@[simp] theorem modCh_memc (s : State) (k : Fin 4) (h : Chan → Chan) : (s.modCh k h).memc = s.memc := rfl
@[simp] theorem modCh_zon (s : State) (k : Fin 4) (h : Chan → Chan) : (s.modCh k h).zon = s.zon := rfl
@[simp] theorem modCh_eve (s : State) (k : Fin 4) (h : Chan → Chan) : (s.modCh k h).eve = s.eve := rfl
@[simp] theorem modCh_vdc (s : State) (k : Fin 4) (h : Chan → Chan) : (s.modCh k h).vdc = s.vdc := rfl
@[simp] theorem modCh_cmp (s : State) (k : Fin 4) (h : Chan → Chan) : (s.modCh k h).cmp = s.cmp := rfl
@[simp] theorem modCh_sco (s : State) (k : Fin 4) (h : Chan → Chan) : (s.modCh k h).sco = s.sco := rfl
@[simp] theorem modCh_vdcIn (s : State) (k : Fin 4) (h : Chan → Chan) : (s.modCh k h).vdcIn = s.vdcIn := rfl
@[simp] theorem modCh_cmpIn (s : State) (k : Fin 4) (h : Chan → Chan) : (s.modCh k h).cmpIn = s.cmpIn := rfl
@[simp] theorem modCh_cmd (s : State) (k : Fin 4) (h : Chan → Chan) : (s.modCh k h).cmd = s.cmd := rfl
@[simp] theorem modCh_hodQueue (s : State) (k : Fin 4) (h : Chan → Chan) : (s.modCh k h).hodQueue = s.hodQueue := rfl
@[simp] theorem modCh_hodHeld (s : State) (k : Fin 4) (h : Chan → Chan) : (s.modCh k h).hodHeld = s.hodHeld := rfl
@[simp] theorem modCh_streams (s : State) (k : Fin 4) (h : Chan → Chan) : (s.modCh k h).streams = s.streams := rfl
@[simp] theorem modCh_hif (s : State) (k : Fin 4) (h : Chan → Chan) : (s.modCh k h).hif = s.hif := rfl
@[simp] theorem modCh_ary (s : State) (k : Fin 4) (h : Chan → Chan) : (s.modCh k h).ary = s.ary := rfl
@[simp] theorem modCh_mgt (s : State) (k : Fin 4) (h : Chan → Chan) : (s.modCh k h).mgt = s.mgt := rfl
@[simp] theorem modCh_fresh (s : State) (k : Fin 4) (h : Chan → Chan) : (s.modCh k h).fresh = s.fresh := rfl
@[simp] theorem modCh_out (s : State) (k : Fin 4) (h : Chan → Chan) : (s.modCh k h).out = s.out := rfl
@[simp] theorem modCh_pending (s : State) (k : Fin 4) (h : Chan → Chan) : (s.modCh k h).pending = s.pending := rfl
@[simp] theorem modCh_rd (s : State) (k : Fin 4) (h : Chan → Chan) (f : Field) : (s.modCh k h).rd f = s.rd f := rfl
@[simp] theorem modCh_on (s : State) (k : Fin 4) (h : Chan → Chan) (f : Field) : (s.modCh k h).on f = s.on f := rfl
@[simp] theorem modCh_bit (s : State) (k : Fin 4) (h : Chan → Chan) (f : Field) (i : Nat) : (s.modCh k h).bit f i = s.bit f i := rfl

@[simp] theorem modTdc_regs (s : State) (u : Fin 8) (h : Tdc → Tdc) : (s.modTdc u h).regs = s.regs := rfl
@[simp] theorem modTdc_shadow (s : State) (u : Fin 8) (h : Tdc → Tdc) : (s.modTdc u h).shadow = s.shadow := rfl
@[simp] theorem modTdc_wbuf (s : State) (u : Fin 8) (h : Tdc → Tdc) : (s.modTdc u h).wbuf = s.wbuf := rfl
@[simp] theorem modTdc_sram (s : State) (u : Fin 8) (h : Tdc → Tdc) : (s.modTdc u h).sram = s.sram := rfl
@[simp] theorem modTdc_dram (s : State) (u : Fin 8) (h : Tdc → Tdc) : (s.modTdc u h).dram = s.dram := rfl
@[simp] theorem modTdc_flash (s : State) (u : Fin 8) (h : Tdc → Tdc) : (s.modTdc u h).flash = s.flash := rfl
@[simp] theorem modTdc_sys (s : State) (u : Fin 8) (h : Tdc → Tdc) : (s.modTdc u h).sys = s.sys := rfl
@[simp] theorem modTdc_syn (s : State) (u : Fin 8) (h : Tdc → Tdc) : (s.modTdc u h).syn = s.syn := rfl
@[simp] theorem modTdc_tbu (s : State) (u : Fin 8) (h : Tdc → Tdc) : (s.modTdc u h).tbu = s.tbu := rfl
@[simp] theorem modTdc_ports (s : State) (u : Fin 8) (h : Tdc → Tdc) : (s.modTdc u h).ports = s.ports := rfl
@[simp] theorem modTdc_rmd (s : State) (u : Fin 8) (h : Tdc → Tdc) : (s.modTdc u h).rmd = s.rmd := rfl
@[simp] theorem modTdc_rrx (s : State) (u : Fin 8) (h : Tdc → Tdc) : (s.modTdc u h).rrx = s.rrx := rfl
@[simp] theorem modTdc_rsf (s : State) (u : Fin 8) (h : Tdc → Tdc) : (s.modTdc u h).rsf = s.rsf := rfl
@[simp] theorem modTdc_memc (s : State) (u : Fin 8) (h : Tdc → Tdc) : (s.modTdc u h).memc = s.memc := rfl
@[simp] theorem modTdc_zon (s : State) (u : Fin 8) (h : Tdc → Tdc) : (s.modTdc u h).zon = s.zon := rfl
@[simp] theorem modTdc_eve (s : State) (u : Fin 8) (h : Tdc → Tdc) : (s.modTdc u h).eve = s.eve := rfl
@[simp] theorem modTdc_vdc (s : State) (u : Fin 8) (h : Tdc → Tdc) : (s.modTdc u h).vdc = s.vdc := rfl
@[simp] theorem modTdc_cmp (s : State) (u : Fin 8) (h : Tdc → Tdc) : (s.modTdc u h).cmp = s.cmp := rfl
@[simp] theorem modTdc_sco (s : State) (u : Fin 8) (h : Tdc → Tdc) : (s.modTdc u h).sco = s.sco := rfl
@[simp] theorem modTdc_vdcIn (s : State) (u : Fin 8) (h : Tdc → Tdc) : (s.modTdc u h).vdcIn = s.vdcIn := rfl
@[simp] theorem modTdc_cmpIn (s : State) (u : Fin 8) (h : Tdc → Tdc) : (s.modTdc u h).cmpIn = s.cmpIn := rfl
@[simp] theorem modTdc_cmd (s : State) (u : Fin 8) (h : Tdc → Tdc) : (s.modTdc u h).cmd = s.cmd := rfl
@[simp] theorem modTdc_hodQueue (s : State) (u : Fin 8) (h : Tdc → Tdc) : (s.modTdc u h).hodQueue = s.hodQueue := rfl
@[simp] theorem modTdc_hodHeld (s : State) (u : Fin 8) (h : Tdc → Tdc) : (s.modTdc u h).hodHeld = s.hodHeld := rfl
@[simp] theorem modTdc_streams (s : State) (u : Fin 8) (h : Tdc → Tdc) : (s.modTdc u h).streams = s.streams := rfl
@[simp] theorem modTdc_hif (s : State) (u : Fin 8) (h : Tdc → Tdc) : (s.modTdc u h).hif = s.hif := rfl
@[simp] theorem modTdc_acq (s : State) (u : Fin 8) (h : Tdc → Tdc) : (s.modTdc u h).acq = s.acq := rfl
@[simp] theorem modTdc_ary (s : State) (u : Fin 8) (h : Tdc → Tdc) : (s.modTdc u h).ary = s.ary := rfl
@[simp] theorem modTdc_mgt (s : State) (u : Fin 8) (h : Tdc → Tdc) : (s.modTdc u h).mgt = s.mgt := rfl
@[simp] theorem modTdc_fresh (s : State) (u : Fin 8) (h : Tdc → Tdc) : (s.modTdc u h).fresh = s.fresh := rfl
@[simp] theorem modTdc_out (s : State) (u : Fin 8) (h : Tdc → Tdc) : (s.modTdc u h).out = s.out := rfl
@[simp] theorem modTdc_pending (s : State) (u : Fin 8) (h : Tdc → Tdc) : (s.modTdc u h).pending = s.pending := rfl
@[simp] theorem modTdc_rd (s : State) (u : Fin 8) (h : Tdc → Tdc) (f : Field) : (s.modTdc u h).rd f = s.rd f := rfl
@[simp] theorem modTdc_on (s : State) (u : Fin 8) (h : Tdc → Tdc) (f : Field) : (s.modTdc u h).on f = s.on f := rfl
@[simp] theorem modTdc_bit (s : State) (u : Fin 8) (h : Tdc → Tdc) (f : Field) (i : Nat) : (s.modTdc u h).bit f i = s.bit f i := rfl
@[simp] theorem modTdc_self (s : State) (u : Fin 8) (h : Tdc → Tdc) : (s.modTdc u h).tdc = s.tdc.set u (h s.tdc[u]) := rfl

@[simp] theorem modDef_regs (s : State) (t : Fin 32) (h : TDef → TDef) : (s.modDef t h).regs = s.regs := rfl
@[simp] theorem modDef_shadow (s : State) (t : Fin 32) (h : TDef → TDef) : (s.modDef t h).shadow = s.shadow := rfl
@[simp] theorem modDef_wbuf (s : State) (t : Fin 32) (h : TDef → TDef) : (s.modDef t h).wbuf = s.wbuf := rfl
@[simp] theorem modDef_sram (s : State) (t : Fin 32) (h : TDef → TDef) : (s.modDef t h).sram = s.sram := rfl
@[simp] theorem modDef_dram (s : State) (t : Fin 32) (h : TDef → TDef) : (s.modDef t h).dram = s.dram := rfl
@[simp] theorem modDef_flash (s : State) (t : Fin 32) (h : TDef → TDef) : (s.modDef t h).flash = s.flash := rfl
@[simp] theorem modDef_sys (s : State) (t : Fin 32) (h : TDef → TDef) : (s.modDef t h).sys = s.sys := rfl
@[simp] theorem modDef_syn (s : State) (t : Fin 32) (h : TDef → TDef) : (s.modDef t h).syn = s.syn := rfl
@[simp] theorem modDef_tbu (s : State) (t : Fin 32) (h : TDef → TDef) : (s.modDef t h).tbu = s.tbu := rfl
@[simp] theorem modDef_tdc (s : State) (t : Fin 32) (h : TDef → TDef) : (s.modDef t h).tdc = s.tdc := rfl
@[simp] theorem modDef_ports (s : State) (t : Fin 32) (h : TDef → TDef) : (s.modDef t h).ports = s.ports := rfl
@[simp] theorem modDef_rmd (s : State) (t : Fin 32) (h : TDef → TDef) : (s.modDef t h).rmd = s.rmd := rfl
@[simp] theorem modDef_rrx (s : State) (t : Fin 32) (h : TDef → TDef) : (s.modDef t h).rrx = s.rrx := rfl
@[simp] theorem modDef_rsf (s : State) (t : Fin 32) (h : TDef → TDef) : (s.modDef t h).rsf = s.rsf := rfl
@[simp] theorem modDef_memc (s : State) (t : Fin 32) (h : TDef → TDef) : (s.modDef t h).memc = s.memc := rfl
@[simp] theorem modDef_zon (s : State) (t : Fin 32) (h : TDef → TDef) : (s.modDef t h).zon = s.zon := rfl
@[simp] theorem modDef_eve (s : State) (t : Fin 32) (h : TDef → TDef) : (s.modDef t h).eve = s.eve := rfl
@[simp] theorem modDef_vdc (s : State) (t : Fin 32) (h : TDef → TDef) : (s.modDef t h).vdc = s.vdc := rfl
@[simp] theorem modDef_sco (s : State) (t : Fin 32) (h : TDef → TDef) : (s.modDef t h).sco = s.sco := rfl
@[simp] theorem modDef_vdcIn (s : State) (t : Fin 32) (h : TDef → TDef) : (s.modDef t h).vdcIn = s.vdcIn := rfl
@[simp] theorem modDef_cmpIn (s : State) (t : Fin 32) (h : TDef → TDef) : (s.modDef t h).cmpIn = s.cmpIn := rfl
@[simp] theorem modDef_cmd (s : State) (t : Fin 32) (h : TDef → TDef) : (s.modDef t h).cmd = s.cmd := rfl
@[simp] theorem modDef_hodQueue (s : State) (t : Fin 32) (h : TDef → TDef) : (s.modDef t h).hodQueue = s.hodQueue := rfl
@[simp] theorem modDef_hodHeld (s : State) (t : Fin 32) (h : TDef → TDef) : (s.modDef t h).hodHeld = s.hodHeld := rfl
@[simp] theorem modDef_streams (s : State) (t : Fin 32) (h : TDef → TDef) : (s.modDef t h).streams = s.streams := rfl
@[simp] theorem modDef_hif (s : State) (t : Fin 32) (h : TDef → TDef) : (s.modDef t h).hif = s.hif := rfl
@[simp] theorem modDef_acq (s : State) (t : Fin 32) (h : TDef → TDef) : (s.modDef t h).acq = s.acq := rfl
@[simp] theorem modDef_ary (s : State) (t : Fin 32) (h : TDef → TDef) : (s.modDef t h).ary = s.ary := rfl
@[simp] theorem modDef_mgt (s : State) (t : Fin 32) (h : TDef → TDef) : (s.modDef t h).mgt = s.mgt := rfl
@[simp] theorem modDef_fresh (s : State) (t : Fin 32) (h : TDef → TDef) : (s.modDef t h).fresh = s.fresh := rfl
@[simp] theorem modDef_out (s : State) (t : Fin 32) (h : TDef → TDef) : (s.modDef t h).out = s.out := rfl
@[simp] theorem modDef_pending (s : State) (t : Fin 32) (h : TDef → TDef) : (s.modDef t h).pending = s.pending := rfl
@[simp] theorem modDef_rd (s : State) (t : Fin 32) (h : TDef → TDef) (f : Field) : (s.modDef t h).rd f = s.rd f := rfl
@[simp] theorem modDef_on (s : State) (t : Fin 32) (h : TDef → TDef) (f : Field) : (s.modDef t h).on f = s.on f := rfl
@[simp] theorem modDef_bit (s : State) (t : Fin 32) (h : TDef → TDef) (f : Field) (i : Nat) : (s.modDef t h).bit f i = s.bit f i := rfl

@[simp] theorem modEng_regs (s : State) (n : Fin 4) (h : Eng → Eng) : (s.modEng n h).regs = s.regs := rfl
@[simp] theorem modEng_shadow (s : State) (n : Fin 4) (h : Eng → Eng) : (s.modEng n h).shadow = s.shadow := rfl
@[simp] theorem modEng_wbuf (s : State) (n : Fin 4) (h : Eng → Eng) : (s.modEng n h).wbuf = s.wbuf := rfl
@[simp] theorem modEng_sram (s : State) (n : Fin 4) (h : Eng → Eng) : (s.modEng n h).sram = s.sram := rfl
@[simp] theorem modEng_dram (s : State) (n : Fin 4) (h : Eng → Eng) : (s.modEng n h).dram = s.dram := rfl
@[simp] theorem modEng_flash (s : State) (n : Fin 4) (h : Eng → Eng) : (s.modEng n h).flash = s.flash := rfl
@[simp] theorem modEng_sys (s : State) (n : Fin 4) (h : Eng → Eng) : (s.modEng n h).sys = s.sys := rfl
@[simp] theorem modEng_syn (s : State) (n : Fin 4) (h : Eng → Eng) : (s.modEng n h).syn = s.syn := rfl
@[simp] theorem modEng_tbu (s : State) (n : Fin 4) (h : Eng → Eng) : (s.modEng n h).tbu = s.tbu := rfl
@[simp] theorem modEng_tdc (s : State) (n : Fin 4) (h : Eng → Eng) : (s.modEng n h).tdc = s.tdc := rfl
@[simp] theorem modEng_ports (s : State) (n : Fin 4) (h : Eng → Eng) : (s.modEng n h).ports = s.ports := rfl
@[simp] theorem modEng_rmd (s : State) (n : Fin 4) (h : Eng → Eng) : (s.modEng n h).rmd = s.rmd := rfl
@[simp] theorem modEng_rrx (s : State) (n : Fin 4) (h : Eng → Eng) : (s.modEng n h).rrx = s.rrx := rfl
@[simp] theorem modEng_rsf (s : State) (n : Fin 4) (h : Eng → Eng) : (s.modEng n h).rsf = s.rsf := rfl
@[simp] theorem modEng_memc (s : State) (n : Fin 4) (h : Eng → Eng) : (s.modEng n h).memc = s.memc := rfl
@[simp] theorem modEng_zon (s : State) (n : Fin 4) (h : Eng → Eng) : (s.modEng n h).zon = s.zon := rfl
@[simp] theorem modEng_eve (s : State) (n : Fin 4) (h : Eng → Eng) : (s.modEng n h).eve = s.eve := rfl
@[simp] theorem modEng_vdc (s : State) (n : Fin 4) (h : Eng → Eng) : (s.modEng n h).vdc = s.vdc := rfl
@[simp] theorem modEng_sco (s : State) (n : Fin 4) (h : Eng → Eng) : (s.modEng n h).sco = s.sco := rfl
@[simp] theorem modEng_vdcIn (s : State) (n : Fin 4) (h : Eng → Eng) : (s.modEng n h).vdcIn = s.vdcIn := rfl
@[simp] theorem modEng_cmpIn (s : State) (n : Fin 4) (h : Eng → Eng) : (s.modEng n h).cmpIn = s.cmpIn := rfl
@[simp] theorem modEng_cmd (s : State) (n : Fin 4) (h : Eng → Eng) : (s.modEng n h).cmd = s.cmd := rfl
@[simp] theorem modEng_hodQueue (s : State) (n : Fin 4) (h : Eng → Eng) : (s.modEng n h).hodQueue = s.hodQueue := rfl
@[simp] theorem modEng_hodHeld (s : State) (n : Fin 4) (h : Eng → Eng) : (s.modEng n h).hodHeld = s.hodHeld := rfl
@[simp] theorem modEng_streams (s : State) (n : Fin 4) (h : Eng → Eng) : (s.modEng n h).streams = s.streams := rfl
@[simp] theorem modEng_hif (s : State) (n : Fin 4) (h : Eng → Eng) : (s.modEng n h).hif = s.hif := rfl
@[simp] theorem modEng_acq (s : State) (n : Fin 4) (h : Eng → Eng) : (s.modEng n h).acq = s.acq := rfl
@[simp] theorem modEng_ary (s : State) (n : Fin 4) (h : Eng → Eng) : (s.modEng n h).ary = s.ary := rfl
@[simp] theorem modEng_mgt (s : State) (n : Fin 4) (h : Eng → Eng) : (s.modEng n h).mgt = s.mgt := rfl
@[simp] theorem modEng_fresh (s : State) (n : Fin 4) (h : Eng → Eng) : (s.modEng n h).fresh = s.fresh := rfl
@[simp] theorem modEng_out (s : State) (n : Fin 4) (h : Eng → Eng) : (s.modEng n h).out = s.out := rfl
@[simp] theorem modEng_pending (s : State) (n : Fin 4) (h : Eng → Eng) : (s.modEng n h).pending = s.pending := rfl
@[simp] theorem modEng_rd (s : State) (n : Fin 4) (h : Eng → Eng) (f : Field) : (s.modEng n h).rd f = s.rd f := rfl
@[simp] theorem modEng_on (s : State) (n : Fin 4) (h : Eng → Eng) (f : Field) : (s.modEng n h).on f = s.on f := rfl
@[simp] theorem modEng_bit (s : State) (n : Fin 4) (h : Eng → Eng) (f : Field) (i : Nat) : (s.modEng n h).bit f i = s.bit f i := rfl

@[simp] theorem modSco_regs (s : State) (h : Sco → Sco) : (s.modSco h).regs = s.regs := rfl
@[simp] theorem modSco_shadow (s : State) (h : Sco → Sco) : (s.modSco h).shadow = s.shadow := rfl
@[simp] theorem modSco_wbuf (s : State) (h : Sco → Sco) : (s.modSco h).wbuf = s.wbuf := rfl
@[simp] theorem modSco_sram (s : State) (h : Sco → Sco) : (s.modSco h).sram = s.sram := rfl
@[simp] theorem modSco_dram (s : State) (h : Sco → Sco) : (s.modSco h).dram = s.dram := rfl
@[simp] theorem modSco_flash (s : State) (h : Sco → Sco) : (s.modSco h).flash = s.flash := rfl
@[simp] theorem modSco_sys (s : State) (h : Sco → Sco) : (s.modSco h).sys = s.sys := rfl
@[simp] theorem modSco_syn (s : State) (h : Sco → Sco) : (s.modSco h).syn = s.syn := rfl
@[simp] theorem modSco_tbu (s : State) (h : Sco → Sco) : (s.modSco h).tbu = s.tbu := rfl
@[simp] theorem modSco_tdc (s : State) (h : Sco → Sco) : (s.modSco h).tdc = s.tdc := rfl
@[simp] theorem modSco_ports (s : State) (h : Sco → Sco) : (s.modSco h).ports = s.ports := rfl
@[simp] theorem modSco_rmd (s : State) (h : Sco → Sco) : (s.modSco h).rmd = s.rmd := rfl
@[simp] theorem modSco_rrx (s : State) (h : Sco → Sco) : (s.modSco h).rrx = s.rrx := rfl
@[simp] theorem modSco_rsf (s : State) (h : Sco → Sco) : (s.modSco h).rsf = s.rsf := rfl
@[simp] theorem modSco_memc (s : State) (h : Sco → Sco) : (s.modSco h).memc = s.memc := rfl
@[simp] theorem modSco_zon (s : State) (h : Sco → Sco) : (s.modSco h).zon = s.zon := rfl
@[simp] theorem modSco_eve (s : State) (h : Sco → Sco) : (s.modSco h).eve = s.eve := rfl
@[simp] theorem modSco_vdc (s : State) (h : Sco → Sco) : (s.modSco h).vdc = s.vdc := rfl
@[simp] theorem modSco_cmp (s : State) (h : Sco → Sco) : (s.modSco h).cmp = s.cmp := rfl
@[simp] theorem modSco_vdcIn (s : State) (h : Sco → Sco) : (s.modSco h).vdcIn = s.vdcIn := rfl
@[simp] theorem modSco_cmpIn (s : State) (h : Sco → Sco) : (s.modSco h).cmpIn = s.cmpIn := rfl
@[simp] theorem modSco_cmd (s : State) (h : Sco → Sco) : (s.modSco h).cmd = s.cmd := rfl
@[simp] theorem modSco_hodQueue (s : State) (h : Sco → Sco) : (s.modSco h).hodQueue = s.hodQueue := rfl
@[simp] theorem modSco_hodHeld (s : State) (h : Sco → Sco) : (s.modSco h).hodHeld = s.hodHeld := rfl
@[simp] theorem modSco_streams (s : State) (h : Sco → Sco) : (s.modSco h).streams = s.streams := rfl
@[simp] theorem modSco_hif (s : State) (h : Sco → Sco) : (s.modSco h).hif = s.hif := rfl
@[simp] theorem modSco_acq (s : State) (h : Sco → Sco) : (s.modSco h).acq = s.acq := rfl
@[simp] theorem modSco_ary (s : State) (h : Sco → Sco) : (s.modSco h).ary = s.ary := rfl
@[simp] theorem modSco_mgt (s : State) (h : Sco → Sco) : (s.modSco h).mgt = s.mgt := rfl
@[simp] theorem modSco_fresh (s : State) (h : Sco → Sco) : (s.modSco h).fresh = s.fresh := rfl
@[simp] theorem modSco_out (s : State) (h : Sco → Sco) : (s.modSco h).out = s.out := rfl
@[simp] theorem modSco_pending (s : State) (h : Sco → Sco) : (s.modSco h).pending = s.pending := rfl
@[simp] theorem modSco_rd (s : State) (h : Sco → Sco) (f : Field) : (s.modSco h).rd f = s.rd f := rfl
@[simp] theorem modSco_on (s : State) (h : Sco → Sco) (f : Field) : (s.modSco h).on f = s.on f := rfl
@[simp] theorem modSco_bit (s : State) (h : Sco → Sco) (f : Field) (i : Nat) : (s.modSco h).bit f i = s.bit f i := rfl
@[simp] theorem modSco_self (s : State) (h : Sco → Sco) : (s.modSco h).sco = h s.sco := rfl

@[simp] theorem modRmd_regs (s : State) (h : Rmd → Rmd) : (s.modRmd h).regs = s.regs := rfl
@[simp] theorem modRmd_shadow (s : State) (h : Rmd → Rmd) : (s.modRmd h).shadow = s.shadow := rfl
@[simp] theorem modRmd_wbuf (s : State) (h : Rmd → Rmd) : (s.modRmd h).wbuf = s.wbuf := rfl
@[simp] theorem modRmd_sram (s : State) (h : Rmd → Rmd) : (s.modRmd h).sram = s.sram := rfl
@[simp] theorem modRmd_dram (s : State) (h : Rmd → Rmd) : (s.modRmd h).dram = s.dram := rfl
@[simp] theorem modRmd_flash (s : State) (h : Rmd → Rmd) : (s.modRmd h).flash = s.flash := rfl
@[simp] theorem modRmd_sys (s : State) (h : Rmd → Rmd) : (s.modRmd h).sys = s.sys := rfl
@[simp] theorem modRmd_syn (s : State) (h : Rmd → Rmd) : (s.modRmd h).syn = s.syn := rfl
@[simp] theorem modRmd_tbu (s : State) (h : Rmd → Rmd) : (s.modRmd h).tbu = s.tbu := rfl
@[simp] theorem modRmd_tdc (s : State) (h : Rmd → Rmd) : (s.modRmd h).tdc = s.tdc := rfl
@[simp] theorem modRmd_ports (s : State) (h : Rmd → Rmd) : (s.modRmd h).ports = s.ports := rfl
@[simp] theorem modRmd_rrx (s : State) (h : Rmd → Rmd) : (s.modRmd h).rrx = s.rrx := rfl
@[simp] theorem modRmd_rsf (s : State) (h : Rmd → Rmd) : (s.modRmd h).rsf = s.rsf := rfl
@[simp] theorem modRmd_memc (s : State) (h : Rmd → Rmd) : (s.modRmd h).memc = s.memc := rfl
@[simp] theorem modRmd_zon (s : State) (h : Rmd → Rmd) : (s.modRmd h).zon = s.zon := rfl
@[simp] theorem modRmd_eve (s : State) (h : Rmd → Rmd) : (s.modRmd h).eve = s.eve := rfl
@[simp] theorem modRmd_vdc (s : State) (h : Rmd → Rmd) : (s.modRmd h).vdc = s.vdc := rfl
@[simp] theorem modRmd_cmp (s : State) (h : Rmd → Rmd) : (s.modRmd h).cmp = s.cmp := rfl
@[simp] theorem modRmd_sco (s : State) (h : Rmd → Rmd) : (s.modRmd h).sco = s.sco := rfl
@[simp] theorem modRmd_vdcIn (s : State) (h : Rmd → Rmd) : (s.modRmd h).vdcIn = s.vdcIn := rfl
@[simp] theorem modRmd_cmpIn (s : State) (h : Rmd → Rmd) : (s.modRmd h).cmpIn = s.cmpIn := rfl
@[simp] theorem modRmd_cmd (s : State) (h : Rmd → Rmd) : (s.modRmd h).cmd = s.cmd := rfl
@[simp] theorem modRmd_hodQueue (s : State) (h : Rmd → Rmd) : (s.modRmd h).hodQueue = s.hodQueue := rfl
@[simp] theorem modRmd_hodHeld (s : State) (h : Rmd → Rmd) : (s.modRmd h).hodHeld = s.hodHeld := rfl
@[simp] theorem modRmd_streams (s : State) (h : Rmd → Rmd) : (s.modRmd h).streams = s.streams := rfl
@[simp] theorem modRmd_hif (s : State) (h : Rmd → Rmd) : (s.modRmd h).hif = s.hif := rfl
@[simp] theorem modRmd_acq (s : State) (h : Rmd → Rmd) : (s.modRmd h).acq = s.acq := rfl
@[simp] theorem modRmd_ary (s : State) (h : Rmd → Rmd) : (s.modRmd h).ary = s.ary := rfl
@[simp] theorem modRmd_mgt (s : State) (h : Rmd → Rmd) : (s.modRmd h).mgt = s.mgt := rfl
@[simp] theorem modRmd_fresh (s : State) (h : Rmd → Rmd) : (s.modRmd h).fresh = s.fresh := rfl
@[simp] theorem modRmd_out (s : State) (h : Rmd → Rmd) : (s.modRmd h).out = s.out := rfl
@[simp] theorem modRmd_pending (s : State) (h : Rmd → Rmd) : (s.modRmd h).pending = s.pending := rfl
@[simp] theorem modRmd_rd (s : State) (h : Rmd → Rmd) (f : Field) : (s.modRmd h).rd f = s.rd f := rfl
@[simp] theorem modRmd_on (s : State) (h : Rmd → Rmd) (f : Field) : (s.modRmd h).on f = s.on f := rfl
@[simp] theorem modRmd_bit (s : State) (h : Rmd → Rmd) (f : Field) (i : Nat) : (s.modRmd h).bit f i = s.bit f i := rfl
@[simp] theorem modRmd_self (s : State) (h : Rmd → Rmd) : (s.modRmd h).rmd = h s.rmd := rfl

@[simp] theorem modRet_regs (s : State) (h : Retention → Retention) : (s.modRet h).regs = s.regs := rfl
@[simp] theorem modRet_shadow (s : State) (h : Retention → Retention) : (s.modRet h).shadow = s.shadow := rfl
@[simp] theorem modRet_wbuf (s : State) (h : Retention → Retention) : (s.modRet h).wbuf = s.wbuf := rfl
@[simp] theorem modRet_sram (s : State) (h : Retention → Retention) : (s.modRet h).sram = s.sram := rfl
@[simp] theorem modRet_dram (s : State) (h : Retention → Retention) : (s.modRet h).dram = s.dram := rfl
@[simp] theorem modRet_flash (s : State) (h : Retention → Retention) : (s.modRet h).flash = s.flash := rfl
@[simp] theorem modRet_syn (s : State) (h : Retention → Retention) : (s.modRet h).syn = s.syn := rfl
@[simp] theorem modRet_tbu (s : State) (h : Retention → Retention) : (s.modRet h).tbu = s.tbu := rfl
@[simp] theorem modRet_tdc (s : State) (h : Retention → Retention) : (s.modRet h).tdc = s.tdc := rfl
@[simp] theorem modRet_ports (s : State) (h : Retention → Retention) : (s.modRet h).ports = s.ports := rfl
@[simp] theorem modRet_rmd (s : State) (h : Retention → Retention) : (s.modRet h).rmd = s.rmd := rfl
@[simp] theorem modRet_rrx (s : State) (h : Retention → Retention) : (s.modRet h).rrx = s.rrx := rfl
@[simp] theorem modRet_rsf (s : State) (h : Retention → Retention) : (s.modRet h).rsf = s.rsf := rfl
@[simp] theorem modRet_memc (s : State) (h : Retention → Retention) : (s.modRet h).memc = s.memc := rfl
@[simp] theorem modRet_zon (s : State) (h : Retention → Retention) : (s.modRet h).zon = s.zon := rfl
@[simp] theorem modRet_eve (s : State) (h : Retention → Retention) : (s.modRet h).eve = s.eve := rfl
@[simp] theorem modRet_vdc (s : State) (h : Retention → Retention) : (s.modRet h).vdc = s.vdc := rfl
@[simp] theorem modRet_cmp (s : State) (h : Retention → Retention) : (s.modRet h).cmp = s.cmp := rfl
@[simp] theorem modRet_sco (s : State) (h : Retention → Retention) : (s.modRet h).sco = s.sco := rfl
@[simp] theorem modRet_vdcIn (s : State) (h : Retention → Retention) : (s.modRet h).vdcIn = s.vdcIn := rfl
@[simp] theorem modRet_cmpIn (s : State) (h : Retention → Retention) : (s.modRet h).cmpIn = s.cmpIn := rfl
@[simp] theorem modRet_cmd (s : State) (h : Retention → Retention) : (s.modRet h).cmd = s.cmd := rfl
@[simp] theorem modRet_hodQueue (s : State) (h : Retention → Retention) : (s.modRet h).hodQueue = s.hodQueue := rfl
@[simp] theorem modRet_hodHeld (s : State) (h : Retention → Retention) : (s.modRet h).hodHeld = s.hodHeld := rfl
@[simp] theorem modRet_streams (s : State) (h : Retention → Retention) : (s.modRet h).streams = s.streams := rfl
@[simp] theorem modRet_hif (s : State) (h : Retention → Retention) : (s.modRet h).hif = s.hif := rfl
@[simp] theorem modRet_acq (s : State) (h : Retention → Retention) : (s.modRet h).acq = s.acq := rfl
@[simp] theorem modRet_ary (s : State) (h : Retention → Retention) : (s.modRet h).ary = s.ary := rfl
@[simp] theorem modRet_mgt (s : State) (h : Retention → Retention) : (s.modRet h).mgt = s.mgt := rfl
@[simp] theorem modRet_fresh (s : State) (h : Retention → Retention) : (s.modRet h).fresh = s.fresh := rfl
@[simp] theorem modRet_out (s : State) (h : Retention → Retention) : (s.modRet h).out = s.out := rfl
@[simp] theorem modRet_pending (s : State) (h : Retention → Retention) : (s.modRet h).pending = s.pending := rfl
@[simp] theorem modRet_rd (s : State) (h : Retention → Retention) (f : Field) : (s.modRet h).rd f = s.rd f := rfl
@[simp] theorem modRet_on (s : State) (h : Retention → Retention) (f : Field) : (s.modRet h).on f = s.on f := rfl
@[simp] theorem modRet_bit (s : State) (h : Retention → Retention) (f : Field) (i : Nat) : (s.modRet h).bit f i = s.bit f i := rfl

@[simp] theorem modStrm_regs (s : State) (st : Fin 7) (h : Strm → Strm) : (s.modStrm st h).regs = s.regs := rfl
@[simp] theorem modStrm_shadow (s : State) (st : Fin 7) (h : Strm → Strm) : (s.modStrm st h).shadow = s.shadow := rfl
@[simp] theorem modStrm_wbuf (s : State) (st : Fin 7) (h : Strm → Strm) : (s.modStrm st h).wbuf = s.wbuf := rfl
@[simp] theorem modStrm_sram (s : State) (st : Fin 7) (h : Strm → Strm) : (s.modStrm st h).sram = s.sram := rfl
@[simp] theorem modStrm_dram (s : State) (st : Fin 7) (h : Strm → Strm) : (s.modStrm st h).dram = s.dram := rfl
@[simp] theorem modStrm_flash (s : State) (st : Fin 7) (h : Strm → Strm) : (s.modStrm st h).flash = s.flash := rfl
@[simp] theorem modStrm_sys (s : State) (st : Fin 7) (h : Strm → Strm) : (s.modStrm st h).sys = s.sys := rfl
@[simp] theorem modStrm_syn (s : State) (st : Fin 7) (h : Strm → Strm) : (s.modStrm st h).syn = s.syn := rfl
@[simp] theorem modStrm_tbu (s : State) (st : Fin 7) (h : Strm → Strm) : (s.modStrm st h).tbu = s.tbu := rfl
@[simp] theorem modStrm_tdc (s : State) (st : Fin 7) (h : Strm → Strm) : (s.modStrm st h).tdc = s.tdc := rfl
@[simp] theorem modStrm_ports (s : State) (st : Fin 7) (h : Strm → Strm) : (s.modStrm st h).ports = s.ports := rfl
@[simp] theorem modStrm_rmd (s : State) (st : Fin 7) (h : Strm → Strm) : (s.modStrm st h).rmd = s.rmd := rfl
@[simp] theorem modStrm_rrx (s : State) (st : Fin 7) (h : Strm → Strm) : (s.modStrm st h).rrx = s.rrx := rfl
@[simp] theorem modStrm_rsf (s : State) (st : Fin 7) (h : Strm → Strm) : (s.modStrm st h).rsf = s.rsf := rfl
@[simp] theorem modStrm_memc (s : State) (st : Fin 7) (h : Strm → Strm) : (s.modStrm st h).memc = s.memc := rfl
@[simp] theorem modStrm_zon (s : State) (st : Fin 7) (h : Strm → Strm) : (s.modStrm st h).zon = s.zon := rfl
@[simp] theorem modStrm_eve (s : State) (st : Fin 7) (h : Strm → Strm) : (s.modStrm st h).eve = s.eve := rfl
@[simp] theorem modStrm_vdc (s : State) (st : Fin 7) (h : Strm → Strm) : (s.modStrm st h).vdc = s.vdc := rfl
@[simp] theorem modStrm_cmp (s : State) (st : Fin 7) (h : Strm → Strm) : (s.modStrm st h).cmp = s.cmp := rfl
@[simp] theorem modStrm_sco (s : State) (st : Fin 7) (h : Strm → Strm) : (s.modStrm st h).sco = s.sco := rfl
@[simp] theorem modStrm_vdcIn (s : State) (st : Fin 7) (h : Strm → Strm) : (s.modStrm st h).vdcIn = s.vdcIn := rfl
@[simp] theorem modStrm_cmpIn (s : State) (st : Fin 7) (h : Strm → Strm) : (s.modStrm st h).cmpIn = s.cmpIn := rfl
@[simp] theorem modStrm_cmd (s : State) (st : Fin 7) (h : Strm → Strm) : (s.modStrm st h).cmd = s.cmd := rfl
@[simp] theorem modStrm_hodQueue (s : State) (st : Fin 7) (h : Strm → Strm) : (s.modStrm st h).hodQueue = s.hodQueue := rfl
@[simp] theorem modStrm_hodHeld (s : State) (st : Fin 7) (h : Strm → Strm) : (s.modStrm st h).hodHeld = s.hodHeld := rfl
@[simp] theorem modStrm_hif (s : State) (st : Fin 7) (h : Strm → Strm) : (s.modStrm st h).hif = s.hif := rfl
@[simp] theorem modStrm_acq (s : State) (st : Fin 7) (h : Strm → Strm) : (s.modStrm st h).acq = s.acq := rfl
@[simp] theorem modStrm_ary (s : State) (st : Fin 7) (h : Strm → Strm) : (s.modStrm st h).ary = s.ary := rfl
@[simp] theorem modStrm_mgt (s : State) (st : Fin 7) (h : Strm → Strm) : (s.modStrm st h).mgt = s.mgt := rfl
@[simp] theorem modStrm_fresh (s : State) (st : Fin 7) (h : Strm → Strm) : (s.modStrm st h).fresh = s.fresh := rfl
@[simp] theorem modStrm_out (s : State) (st : Fin 7) (h : Strm → Strm) : (s.modStrm st h).out = s.out := rfl
@[simp] theorem modStrm_pending (s : State) (st : Fin 7) (h : Strm → Strm) : (s.modStrm st h).pending = s.pending := rfl
@[simp] theorem modStrm_rd (s : State) (st : Fin 7) (h : Strm → Strm) (f : Field) : (s.modStrm st h).rd f = s.rd f := rfl
@[simp] theorem modStrm_on (s : State) (st : Fin 7) (h : Strm → Strm) (f : Field) : (s.modStrm st h).on f = s.on f := rfl
@[simp] theorem modStrm_bit (s : State) (st : Fin 7) (h : Strm → Strm) (f : Field) (i : Nat) : (s.modStrm st h).bit f i = s.bit f i := rfl
@[simp] theorem modStrm_self (s : State) (st : Fin 7) (h : Strm → Strm) : (s.modStrm st h).streams = s.streams.set st (h s.streams[st]) := rfl

@[simp] theorem modRsf_regs (s : State) (h : Rsf → Rsf) : (s.modRsf h).regs = s.regs := rfl
@[simp] theorem modRsf_shadow (s : State) (h : Rsf → Rsf) : (s.modRsf h).shadow = s.shadow := rfl
@[simp] theorem modRsf_wbuf (s : State) (h : Rsf → Rsf) : (s.modRsf h).wbuf = s.wbuf := rfl
@[simp] theorem modRsf_sram (s : State) (h : Rsf → Rsf) : (s.modRsf h).sram = s.sram := rfl
@[simp] theorem modRsf_dram (s : State) (h : Rsf → Rsf) : (s.modRsf h).dram = s.dram := rfl
@[simp] theorem modRsf_flash (s : State) (h : Rsf → Rsf) : (s.modRsf h).flash = s.flash := rfl
@[simp] theorem modRsf_sys (s : State) (h : Rsf → Rsf) : (s.modRsf h).sys = s.sys := rfl
@[simp] theorem modRsf_syn (s : State) (h : Rsf → Rsf) : (s.modRsf h).syn = s.syn := rfl
@[simp] theorem modRsf_tbu (s : State) (h : Rsf → Rsf) : (s.modRsf h).tbu = s.tbu := rfl
@[simp] theorem modRsf_tdc (s : State) (h : Rsf → Rsf) : (s.modRsf h).tdc = s.tdc := rfl
@[simp] theorem modRsf_ports (s : State) (h : Rsf → Rsf) : (s.modRsf h).ports = s.ports := rfl
@[simp] theorem modRsf_rmd (s : State) (h : Rsf → Rsf) : (s.modRsf h).rmd = s.rmd := rfl
@[simp] theorem modRsf_rrx (s : State) (h : Rsf → Rsf) : (s.modRsf h).rrx = s.rrx := rfl
@[simp] theorem modRsf_memc (s : State) (h : Rsf → Rsf) : (s.modRsf h).memc = s.memc := rfl
@[simp] theorem modRsf_zon (s : State) (h : Rsf → Rsf) : (s.modRsf h).zon = s.zon := rfl
@[simp] theorem modRsf_eve (s : State) (h : Rsf → Rsf) : (s.modRsf h).eve = s.eve := rfl
@[simp] theorem modRsf_vdc (s : State) (h : Rsf → Rsf) : (s.modRsf h).vdc = s.vdc := rfl
@[simp] theorem modRsf_cmp (s : State) (h : Rsf → Rsf) : (s.modRsf h).cmp = s.cmp := rfl
@[simp] theorem modRsf_sco (s : State) (h : Rsf → Rsf) : (s.modRsf h).sco = s.sco := rfl
@[simp] theorem modRsf_vdcIn (s : State) (h : Rsf → Rsf) : (s.modRsf h).vdcIn = s.vdcIn := rfl
@[simp] theorem modRsf_cmpIn (s : State) (h : Rsf → Rsf) : (s.modRsf h).cmpIn = s.cmpIn := rfl
@[simp] theorem modRsf_cmd (s : State) (h : Rsf → Rsf) : (s.modRsf h).cmd = s.cmd := rfl
@[simp] theorem modRsf_hodQueue (s : State) (h : Rsf → Rsf) : (s.modRsf h).hodQueue = s.hodQueue := rfl
@[simp] theorem modRsf_hodHeld (s : State) (h : Rsf → Rsf) : (s.modRsf h).hodHeld = s.hodHeld := rfl
@[simp] theorem modRsf_streams (s : State) (h : Rsf → Rsf) : (s.modRsf h).streams = s.streams := rfl
@[simp] theorem modRsf_hif (s : State) (h : Rsf → Rsf) : (s.modRsf h).hif = s.hif := rfl
@[simp] theorem modRsf_acq (s : State) (h : Rsf → Rsf) : (s.modRsf h).acq = s.acq := rfl
@[simp] theorem modRsf_ary (s : State) (h : Rsf → Rsf) : (s.modRsf h).ary = s.ary := rfl
@[simp] theorem modRsf_mgt (s : State) (h : Rsf → Rsf) : (s.modRsf h).mgt = s.mgt := rfl
@[simp] theorem modRsf_fresh (s : State) (h : Rsf → Rsf) : (s.modRsf h).fresh = s.fresh := rfl
@[simp] theorem modRsf_out (s : State) (h : Rsf → Rsf) : (s.modRsf h).out = s.out := rfl
@[simp] theorem modRsf_pending (s : State) (h : Rsf → Rsf) : (s.modRsf h).pending = s.pending := rfl
@[simp] theorem modRsf_rd (s : State) (h : Rsf → Rsf) (f : Field) : (s.modRsf h).rd f = s.rd f := rfl
@[simp] theorem modRsf_on (s : State) (h : Rsf → Rsf) (f : Field) : (s.modRsf h).on f = s.on f := rfl
@[simp] theorem modRsf_bit (s : State) (h : Rsf → Rsf) (f : Field) (i : Nat) : (s.modRsf h).bit f i = s.bit f i := rfl
@[simp] theorem modRsf_self (s : State) (h : Rsf → Rsf) : (s.modRsf h).rsf = h s.rsf := rfl

@[simp] theorem modMem_regs (s : State) (h : Memc → Memc) : (s.modMem h).regs = s.regs := rfl
@[simp] theorem modMem_shadow (s : State) (h : Memc → Memc) : (s.modMem h).shadow = s.shadow := rfl
@[simp] theorem modMem_wbuf (s : State) (h : Memc → Memc) : (s.modMem h).wbuf = s.wbuf := rfl
@[simp] theorem modMem_sram (s : State) (h : Memc → Memc) : (s.modMem h).sram = s.sram := rfl
@[simp] theorem modMem_dram (s : State) (h : Memc → Memc) : (s.modMem h).dram = s.dram := rfl
@[simp] theorem modMem_flash (s : State) (h : Memc → Memc) : (s.modMem h).flash = s.flash := rfl
@[simp] theorem modMem_sys (s : State) (h : Memc → Memc) : (s.modMem h).sys = s.sys := rfl
@[simp] theorem modMem_syn (s : State) (h : Memc → Memc) : (s.modMem h).syn = s.syn := rfl
@[simp] theorem modMem_tbu (s : State) (h : Memc → Memc) : (s.modMem h).tbu = s.tbu := rfl
@[simp] theorem modMem_tdc (s : State) (h : Memc → Memc) : (s.modMem h).tdc = s.tdc := rfl
@[simp] theorem modMem_ports (s : State) (h : Memc → Memc) : (s.modMem h).ports = s.ports := rfl
@[simp] theorem modMem_rmd (s : State) (h : Memc → Memc) : (s.modMem h).rmd = s.rmd := rfl
@[simp] theorem modMem_rrx (s : State) (h : Memc → Memc) : (s.modMem h).rrx = s.rrx := rfl
@[simp] theorem modMem_rsf (s : State) (h : Memc → Memc) : (s.modMem h).rsf = s.rsf := rfl
@[simp] theorem modMem_zon (s : State) (h : Memc → Memc) : (s.modMem h).zon = s.zon := rfl
@[simp] theorem modMem_eve (s : State) (h : Memc → Memc) : (s.modMem h).eve = s.eve := rfl
@[simp] theorem modMem_vdc (s : State) (h : Memc → Memc) : (s.modMem h).vdc = s.vdc := rfl
@[simp] theorem modMem_cmp (s : State) (h : Memc → Memc) : (s.modMem h).cmp = s.cmp := rfl
@[simp] theorem modMem_sco (s : State) (h : Memc → Memc) : (s.modMem h).sco = s.sco := rfl
@[simp] theorem modMem_vdcIn (s : State) (h : Memc → Memc) : (s.modMem h).vdcIn = s.vdcIn := rfl
@[simp] theorem modMem_cmpIn (s : State) (h : Memc → Memc) : (s.modMem h).cmpIn = s.cmpIn := rfl
@[simp] theorem modMem_cmd (s : State) (h : Memc → Memc) : (s.modMem h).cmd = s.cmd := rfl
@[simp] theorem modMem_hodQueue (s : State) (h : Memc → Memc) : (s.modMem h).hodQueue = s.hodQueue := rfl
@[simp] theorem modMem_hodHeld (s : State) (h : Memc → Memc) : (s.modMem h).hodHeld = s.hodHeld := rfl
@[simp] theorem modMem_streams (s : State) (h : Memc → Memc) : (s.modMem h).streams = s.streams := rfl
@[simp] theorem modMem_hif (s : State) (h : Memc → Memc) : (s.modMem h).hif = s.hif := rfl
@[simp] theorem modMem_acq (s : State) (h : Memc → Memc) : (s.modMem h).acq = s.acq := rfl
@[simp] theorem modMem_ary (s : State) (h : Memc → Memc) : (s.modMem h).ary = s.ary := rfl
@[simp] theorem modMem_mgt (s : State) (h : Memc → Memc) : (s.modMem h).mgt = s.mgt := rfl
@[simp] theorem modMem_fresh (s : State) (h : Memc → Memc) : (s.modMem h).fresh = s.fresh := rfl
@[simp] theorem modMem_out (s : State) (h : Memc → Memc) : (s.modMem h).out = s.out := rfl
@[simp] theorem modMem_pending (s : State) (h : Memc → Memc) : (s.modMem h).pending = s.pending := rfl
@[simp] theorem modMem_rd (s : State) (h : Memc → Memc) (f : Field) : (s.modMem h).rd f = s.rd f := rfl
@[simp] theorem modMem_on (s : State) (h : Memc → Memc) (f : Field) : (s.modMem h).on f = s.on f := rfl
@[simp] theorem modMem_bit (s : State) (h : Memc → Memc) (f : Field) (i : Nat) : (s.modMem h).bit f i = s.bit f i := rfl
@[simp] theorem modMem_self (s : State) (h : Memc → Memc) : (s.modMem h).memc = h s.memc := rfl

@[simp] theorem modFdc_regs (s : State) (n : Fin 4) (h : Fdc → Fdc) : (s.modFdc n h).regs = s.regs := rfl
@[simp] theorem modFdc_shadow (s : State) (n : Fin 4) (h : Fdc → Fdc) : (s.modFdc n h).shadow = s.shadow := rfl
@[simp] theorem modFdc_wbuf (s : State) (n : Fin 4) (h : Fdc → Fdc) : (s.modFdc n h).wbuf = s.wbuf := rfl
@[simp] theorem modFdc_sram (s : State) (n : Fin 4) (h : Fdc → Fdc) : (s.modFdc n h).sram = s.sram := rfl
@[simp] theorem modFdc_dram (s : State) (n : Fin 4) (h : Fdc → Fdc) : (s.modFdc n h).dram = s.dram := rfl
@[simp] theorem modFdc_flash (s : State) (n : Fin 4) (h : Fdc → Fdc) : (s.modFdc n h).flash = s.flash := rfl
@[simp] theorem modFdc_sys (s : State) (n : Fin 4) (h : Fdc → Fdc) : (s.modFdc n h).sys = s.sys := rfl
@[simp] theorem modFdc_syn (s : State) (n : Fin 4) (h : Fdc → Fdc) : (s.modFdc n h).syn = s.syn := rfl
@[simp] theorem modFdc_tbu (s : State) (n : Fin 4) (h : Fdc → Fdc) : (s.modFdc n h).tbu = s.tbu := rfl
@[simp] theorem modFdc_tdc (s : State) (n : Fin 4) (h : Fdc → Fdc) : (s.modFdc n h).tdc = s.tdc := rfl
@[simp] theorem modFdc_rmd (s : State) (n : Fin 4) (h : Fdc → Fdc) : (s.modFdc n h).rmd = s.rmd := rfl
@[simp] theorem modFdc_rrx (s : State) (n : Fin 4) (h : Fdc → Fdc) : (s.modFdc n h).rrx = s.rrx := rfl
@[simp] theorem modFdc_rsf (s : State) (n : Fin 4) (h : Fdc → Fdc) : (s.modFdc n h).rsf = s.rsf := rfl
@[simp] theorem modFdc_memc (s : State) (n : Fin 4) (h : Fdc → Fdc) : (s.modFdc n h).memc = s.memc := rfl
@[simp] theorem modFdc_zon (s : State) (n : Fin 4) (h : Fdc → Fdc) : (s.modFdc n h).zon = s.zon := rfl
@[simp] theorem modFdc_eve (s : State) (n : Fin 4) (h : Fdc → Fdc) : (s.modFdc n h).eve = s.eve := rfl
@[simp] theorem modFdc_vdc (s : State) (n : Fin 4) (h : Fdc → Fdc) : (s.modFdc n h).vdc = s.vdc := rfl
@[simp] theorem modFdc_cmp (s : State) (n : Fin 4) (h : Fdc → Fdc) : (s.modFdc n h).cmp = s.cmp := rfl
@[simp] theorem modFdc_sco (s : State) (n : Fin 4) (h : Fdc → Fdc) : (s.modFdc n h).sco = s.sco := rfl
@[simp] theorem modFdc_vdcIn (s : State) (n : Fin 4) (h : Fdc → Fdc) : (s.modFdc n h).vdcIn = s.vdcIn := rfl
@[simp] theorem modFdc_cmpIn (s : State) (n : Fin 4) (h : Fdc → Fdc) : (s.modFdc n h).cmpIn = s.cmpIn := rfl
@[simp] theorem modFdc_cmd (s : State) (n : Fin 4) (h : Fdc → Fdc) : (s.modFdc n h).cmd = s.cmd := rfl
@[simp] theorem modFdc_hodQueue (s : State) (n : Fin 4) (h : Fdc → Fdc) : (s.modFdc n h).hodQueue = s.hodQueue := rfl
@[simp] theorem modFdc_hodHeld (s : State) (n : Fin 4) (h : Fdc → Fdc) : (s.modFdc n h).hodHeld = s.hodHeld := rfl
@[simp] theorem modFdc_streams (s : State) (n : Fin 4) (h : Fdc → Fdc) : (s.modFdc n h).streams = s.streams := rfl
@[simp] theorem modFdc_hif (s : State) (n : Fin 4) (h : Fdc → Fdc) : (s.modFdc n h).hif = s.hif := rfl
@[simp] theorem modFdc_acq (s : State) (n : Fin 4) (h : Fdc → Fdc) : (s.modFdc n h).acq = s.acq := rfl
@[simp] theorem modFdc_ary (s : State) (n : Fin 4) (h : Fdc → Fdc) : (s.modFdc n h).ary = s.ary := rfl
@[simp] theorem modFdc_mgt (s : State) (n : Fin 4) (h : Fdc → Fdc) : (s.modFdc n h).mgt = s.mgt := rfl
@[simp] theorem modFdc_fresh (s : State) (n : Fin 4) (h : Fdc → Fdc) : (s.modFdc n h).fresh = s.fresh := rfl
@[simp] theorem modFdc_out (s : State) (n : Fin 4) (h : Fdc → Fdc) : (s.modFdc n h).out = s.out := rfl
@[simp] theorem modFdc_pending (s : State) (n : Fin 4) (h : Fdc → Fdc) : (s.modFdc n h).pending = s.pending := rfl
@[simp] theorem modFdc_rd (s : State) (n : Fin 4) (h : Fdc → Fdc) (f : Field) : (s.modFdc n h).rd f = s.rd f := rfl
@[simp] theorem modFdc_on (s : State) (n : Fin 4) (h : Fdc → Fdc) (f : Field) : (s.modFdc n h).on f = s.on f := rfl
@[simp] theorem modFdc_bit (s : State) (n : Fin 4) (h : Fdc → Fdc) (f : Field) (i : Nat) : (s.modFdc n h).bit f i = s.bit f i := rfl

@[simp] theorem modProf_regs (s : State) (n : Fin 4) (p : Nat) (h : FProf → FProf) : (s.modProf n p h).regs = s.regs := rfl
@[simp] theorem modProf_shadow (s : State) (n : Fin 4) (p : Nat) (h : FProf → FProf) : (s.modProf n p h).shadow = s.shadow := rfl
@[simp] theorem modProf_wbuf (s : State) (n : Fin 4) (p : Nat) (h : FProf → FProf) : (s.modProf n p h).wbuf = s.wbuf := rfl
@[simp] theorem modProf_sram (s : State) (n : Fin 4) (p : Nat) (h : FProf → FProf) : (s.modProf n p h).sram = s.sram := rfl
@[simp] theorem modProf_dram (s : State) (n : Fin 4) (p : Nat) (h : FProf → FProf) : (s.modProf n p h).dram = s.dram := rfl
@[simp] theorem modProf_flash (s : State) (n : Fin 4) (p : Nat) (h : FProf → FProf) : (s.modProf n p h).flash = s.flash := rfl
@[simp] theorem modProf_sys (s : State) (n : Fin 4) (p : Nat) (h : FProf → FProf) : (s.modProf n p h).sys = s.sys := rfl
@[simp] theorem modProf_syn (s : State) (n : Fin 4) (p : Nat) (h : FProf → FProf) : (s.modProf n p h).syn = s.syn := rfl
@[simp] theorem modProf_tbu (s : State) (n : Fin 4) (p : Nat) (h : FProf → FProf) : (s.modProf n p h).tbu = s.tbu := rfl
@[simp] theorem modProf_tdc (s : State) (n : Fin 4) (p : Nat) (h : FProf → FProf) : (s.modProf n p h).tdc = s.tdc := rfl
@[simp] theorem modProf_rmd (s : State) (n : Fin 4) (p : Nat) (h : FProf → FProf) : (s.modProf n p h).rmd = s.rmd := rfl
@[simp] theorem modProf_rrx (s : State) (n : Fin 4) (p : Nat) (h : FProf → FProf) : (s.modProf n p h).rrx = s.rrx := rfl
@[simp] theorem modProf_rsf (s : State) (n : Fin 4) (p : Nat) (h : FProf → FProf) : (s.modProf n p h).rsf = s.rsf := rfl
@[simp] theorem modProf_memc (s : State) (n : Fin 4) (p : Nat) (h : FProf → FProf) : (s.modProf n p h).memc = s.memc := rfl
@[simp] theorem modProf_zon (s : State) (n : Fin 4) (p : Nat) (h : FProf → FProf) : (s.modProf n p h).zon = s.zon := rfl
@[simp] theorem modProf_eve (s : State) (n : Fin 4) (p : Nat) (h : FProf → FProf) : (s.modProf n p h).eve = s.eve := rfl
@[simp] theorem modProf_vdc (s : State) (n : Fin 4) (p : Nat) (h : FProf → FProf) : (s.modProf n p h).vdc = s.vdc := rfl
@[simp] theorem modProf_cmp (s : State) (n : Fin 4) (p : Nat) (h : FProf → FProf) : (s.modProf n p h).cmp = s.cmp := rfl
@[simp] theorem modProf_sco (s : State) (n : Fin 4) (p : Nat) (h : FProf → FProf) : (s.modProf n p h).sco = s.sco := rfl
@[simp] theorem modProf_vdcIn (s : State) (n : Fin 4) (p : Nat) (h : FProf → FProf) : (s.modProf n p h).vdcIn = s.vdcIn := rfl
@[simp] theorem modProf_cmpIn (s : State) (n : Fin 4) (p : Nat) (h : FProf → FProf) : (s.modProf n p h).cmpIn = s.cmpIn := rfl
@[simp] theorem modProf_cmd (s : State) (n : Fin 4) (p : Nat) (h : FProf → FProf) : (s.modProf n p h).cmd = s.cmd := rfl
@[simp] theorem modProf_hodQueue (s : State) (n : Fin 4) (p : Nat) (h : FProf → FProf) : (s.modProf n p h).hodQueue = s.hodQueue := rfl
@[simp] theorem modProf_hodHeld (s : State) (n : Fin 4) (p : Nat) (h : FProf → FProf) : (s.modProf n p h).hodHeld = s.hodHeld := rfl
@[simp] theorem modProf_streams (s : State) (n : Fin 4) (p : Nat) (h : FProf → FProf) : (s.modProf n p h).streams = s.streams := rfl
@[simp] theorem modProf_hif (s : State) (n : Fin 4) (p : Nat) (h : FProf → FProf) : (s.modProf n p h).hif = s.hif := rfl
@[simp] theorem modProf_acq (s : State) (n : Fin 4) (p : Nat) (h : FProf → FProf) : (s.modProf n p h).acq = s.acq := rfl
@[simp] theorem modProf_ary (s : State) (n : Fin 4) (p : Nat) (h : FProf → FProf) : (s.modProf n p h).ary = s.ary := rfl
@[simp] theorem modProf_mgt (s : State) (n : Fin 4) (p : Nat) (h : FProf → FProf) : (s.modProf n p h).mgt = s.mgt := rfl
@[simp] theorem modProf_fresh (s : State) (n : Fin 4) (p : Nat) (h : FProf → FProf) : (s.modProf n p h).fresh = s.fresh := rfl
@[simp] theorem modProf_out (s : State) (n : Fin 4) (p : Nat) (h : FProf → FProf) : (s.modProf n p h).out = s.out := rfl
@[simp] theorem modProf_pending (s : State) (n : Fin 4) (p : Nat) (h : FProf → FProf) : (s.modProf n p h).pending = s.pending := rfl
@[simp] theorem modProf_rd (s : State) (n : Fin 4) (p : Nat) (h : FProf → FProf) (f : Field) : (s.modProf n p h).rd f = s.rd f := rfl
@[simp] theorem modProf_on (s : State) (n : Fin 4) (p : Nat) (h : FProf → FProf) (f : Field) : (s.modProf n p h).on f = s.on f := rfl
@[simp] theorem modProf_bit (s : State) (n : Fin 4) (p : Nat) (h : FProf → FProf) (f : Field) (i : Nat) : (s.modProf n p h).bit f i = s.bit f i := rfl

end Sys2Proof.Machine.State
end

