-- ==== Sys2Proof/Laws/Mem.lean ====
section
/-! SUPPORT. Laws of the addressed memories: a byte reads as the last one written there, every other byte as before,
and every operation keeps the canonical form. -/

-- One thread, so that the whole package compiles within a bounded number of threads.
set_option Elab.async false

namespace Sys2Proof.Machine.Mem

variable {m : List Host.Cell} {a b lo hi : Nat} {v d : Byte}

theorem erase_eq_filter (m : List Host.Cell) (a : Nat) : erase m a = m.filter fun c => c.1 != a := by
  induction m with
  | nil => rfl
  | cons x r ih =>
    obtain ⟨k, w⟩ := x
    by_cases h : k = a <;> simp [erase, h, ih]

theorem read_erase_same (m : List Host.Cell) (d : Byte) (a : Nat) : read (erase m a) d a = d := by
  induction m with
  | nil => rfl
  | cons x r ih =>
    obtain ⟨k, w⟩ := x
    by_cases h : k = a <;> simp [erase, read, h, ih]

theorem read_erase_ne (m : List Host.Cell) (d : Byte) (h : a ≠ b) : read (erase m a) d b = read m d b := by
  induction m with
  | nil => rfl
  | cons x r ih =>
    obtain ⟨k, w⟩ := x
    by_cases h1 : k = a <;> simp [erase, read, h1, ih, h]

theorem read_insert_ne (m : List Host.Cell) (d v : Byte) (h : a ≠ b) : read (insert m a v) d b = read m d b := by
  induction m with
  | nil => simp [insert, read, h]
  | cons x r ih =>
    obtain ⟨k, w⟩ := x
    by_cases h1 : a < k <;> simp [insert, read, h1, ih, h]

theorem read_insert_erase (m : List Host.Cell) (d v : Byte) (a : Nat) : read (insert (erase m a) a v) d a = v := by
  induction m with
  | nil => simp [insert, read, erase]
  | cons x r ih =>
    obtain ⟨k, w⟩ := x
    by_cases h : k = a
    · simpa [erase, h] using ih
    · by_cases h1 : a < k <;> simp [erase, h, insert, h1, read, ih]

/-- A byte that was written reads as written. -/
@[simp] theorem read_write_same (m : List Host.Cell) (d v : Byte) (a : Nat) : read (write m d a v) d a = v := by
  by_cases h : v = d
  · simp [write, h, read_erase_same]
  · simp [write, h, read_insert_erase]

/-- A write leaves every other byte as it was. -/
theorem read_write_ne (m : List Host.Cell) (d v : Byte) (h : a ≠ b) : read (write m d a v) d b = read m d b := by
  by_cases h1 : v = d
  · simp [write, h1, read_erase_ne _ _ h]
  · simp [write, h1, read_insert_ne _ _ _ h, read_erase_ne _ _ h]

/-- Bytes outside those written read as before. -/
theorem read_writes_out (d : Byte) (l : List Nat) (m : List Host.Cell) (a b : Nat) (h : b < a ∨ a + l.length ≤ b) :
    read (writes d m a l) d b = read m d b := by
  induction l generalizing m a with
  | nil => rfl
  | cons x r ih =>
    rw [writes, ih]
    · exact read_write_ne _ _ _ (by simp at h; omega)
    · simp at h; omega

/-- A byte among those written reads as written. -/
theorem read_writes_in (d : Byte) (l : List Nat) (m : List Host.Cell) (a i : Nat) (h : i < l.length) :
    read (writes d m a l) d (a + i) = BitVec.ofNat 8 l[i] := by
  induction l generalizing m a i with
  | nil => simp at h
  | cons x r ih =>
    cases i with
    | zero =>
      rw [writes, read_writes_out _ _ _ _ _ (by omega)]
      simp
    | succ i =>
      have h1 : a + (i + 1) = a + 1 + i := by omega
      rw [writes, h1, ih _ _ _ (by simpa using h)]
      simp

theorem wf_iff (m : List Host.Cell) (d : Byte) :
    wf m d = true ↔ m.Pairwise (fun x y => x.1 < y.1) ∧ ∀ c ∈ m, c.2 ≠ d := by
  induction m with
  | nil => simp [wf]
  | cons x r ih =>
    cases r with
    | nil => simp [wf]
    | cons y r =>
      have h : wf (x :: y :: r) d = ((x.2 != d) && decide (x.1 < y.1) && wf (y :: r) d) := rfl
      rw [h, List.pairwise_cons, Bool.and_eq_true, Bool.and_eq_true, ih, decide_eq_true_eq, bne_iff_ne]
      constructor
      · rintro ⟨⟨h0, h1⟩, h2, h3⟩
        refine ⟨⟨fun z hz => ?_, h2⟩, fun z hz => ?_⟩
        · rcases List.mem_cons.1 hz with rfl | hz
          · exact h1
          · exact lt_trans h1 (List.rel_of_pairwise_cons h2 hz)
        · rcases List.mem_cons.1 hz with rfl | hz
          · exact h0
          · exact h3 z hz
      · rintro ⟨⟨h1, h2⟩, h3⟩
        exact ⟨⟨h3 x (by simp), h1 y (by simp)⟩, h2, fun z hz => h3 z (List.mem_cons_of_mem _ hz)⟩

theorem wf_filter (p : Host.Cell → Bool) (h : wf m d = true) : wf (m.filter p) d = true := by
  rw [wf_iff] at h ⊢
  exact ⟨h.1.filter _, fun c hc => h.2 c (List.mem_of_mem_filter hc)⟩

theorem wf_erase (h : wf m d = true) : wf (erase m a) d = true := by
  rw [erase_eq_filter]
  exact wf_filter _ h

theorem wf_drop (h : wf m d = true) : wf (drop m lo hi) d = true := wf_filter _ h

theorem mem_insert {x : Host.Cell} (m : List Host.Cell) (a : Nat) (v : Byte) :
    x ∈ insert m a v ↔ x = (a, v) ∨ x ∈ m := by
  induction m with
  | nil => simp [insert]
  | cons y r ih =>
    obtain ⟨k, w⟩ := y
    by_cases h : a < k
    · simp [insert, h]
    · simp [insert, h, ih]
      tauto

theorem pairwise_insert_erase (m : List Host.Cell) (a : Nat) (v : Byte) (h : m.Pairwise fun x y => x.1 < y.1) :
    (insert (erase m a) a v).Pairwise fun x y => x.1 < y.1 := by
  induction m with
  | nil => simp [erase, insert]
  | cons y r ih =>
    obtain ⟨k, w⟩ := y
    rw [List.pairwise_cons] at h
    have hm : ∀ z ∈ erase r a, k < z.1 := by
      intro z hz
      rw [erase_eq_filter] at hz
      exact h.1 z (List.mem_of_mem_filter hz)
    by_cases h1 : k = a
    · simpa [erase, h1] using ih h.2
    · by_cases h2 : a < k
      · have e1 : insert (erase ((k, w) :: r) a) a v = (a, v) :: (k, w) :: erase r a := by simp [erase, h1, insert, h2]
        rw [e1, List.pairwise_cons, List.pairwise_cons]
        refine ⟨fun z hz => ?_, hm, ?_⟩
        · rcases List.mem_cons.1 hz with rfl | hz
          · exact h2
          · exact lt_trans h2 (hm z hz)
        · rw [erase_eq_filter]
          exact h.2.filter _
      · have e1 : insert (erase ((k, w) :: r) a) a v = (k, w) :: insert (erase r a) a v := by simp [erase, h1, insert, h2]
        rw [e1, List.pairwise_cons]
        refine ⟨fun z hz => ?_, ih h.2⟩
        rcases (mem_insert _ _ _).1 hz with rfl | hz
        · exact lt_of_le_of_ne (not_lt.1 h2) h1
        · exact hm z hz

/-- A write keeps the canonical form. -/
theorem wf_write (h : wf m d = true) : wf (write m d a v) d = true := by
  by_cases h1 : v = d
  · simpa [write, h1] using wf_erase h
  · rw [write, if_neg h1, wf_iff]
    rw [wf_iff] at h
    refine ⟨pairwise_insert_erase _ _ _ h.1, fun c hc => ?_⟩
    rcases (mem_insert _ _ _).1 hc with rfl | hc
    · exact h1
    · rw [erase_eq_filter] at hc
      exact h.2 c (List.mem_of_mem_filter hc)

theorem wf_writes (d : Byte) (l : List Nat) (m : List Host.Cell) (a : Nat) (h : wf m d = true) :
    wf (writes d m a l) d = true := by
  induction l generalizing m a with
  | nil => exact h
  | cons x r ih => exact ih _ _ (wf_write h)

@[simp] theorem reads_length (m : List Host.Cell) (d : Byte) (a n : Nat) : (reads m d a n).length = n := by
  induction n generalizing a with
  | zero => rfl
  | succ n ih => simp [reads, ih]

end Sys2Proof.Machine.Mem
end

