-- ==== Sys2Proof/Laws/Shared.lean ====
section
/-! SUPPORT. Laws of the operations that several blocks share: which part of State each leaves alone. -/

-- One thread, so that the whole package compiles within a bounded number of threads.
set_option Elab.async false

namespace Sys2Proof.Machine.State
open Sys2Proof Arith

variable {s : State} {f g : Field}

/-- A fold keeps what each step keeps. -/
theorem foldl_keeps {α β : Type} (proj : State → β) (step : State → α → State)
    (h : ∀ s a, proj (step s a) = proj s) (l : List α) (s : State) : proj (l.foldl step s) = proj s := by
  induction l generalizing s with
  | nil => rfl
  | cons a l ih => rw [List.foldl_cons, ih, h]

/-- A write reaches its block while the domain is on (R29). -/
theorem gate_on {off d : Nat} {k : State → State} (h : domainOf off = some d) (hd : s.domOn d = true) :
    s.gate off k = k s := by simp [gate, h, hd]

/-- A write to a block whose domain is off sets PD_ACCESS (R29). -/
theorem gate_off {off d : Nat} {k : State → State} (h : domainOf off = some d) (hd : s.domOn d = false)
    (hr : retainedAt off = false) : s.gate off k = s.ev R.SYS_GSTAT_PD_ACCESS := by simp [gate, h, hd, hr]

@[simp] theorem spoilTraces_regs (s : State) (n : Fin 4) : (s.spoilTraces n).regs = s.regs := rfl
@[simp] theorem spoilTraces_shadow (s : State) (n : Fin 4) : (s.spoilTraces n).shadow = s.shadow := rfl
@[simp] theorem spoilTraces_wbuf (s : State) (n : Fin 4) : (s.spoilTraces n).wbuf = s.wbuf := rfl
@[simp] theorem spoilTraces_sram (s : State) (n : Fin 4) : (s.spoilTraces n).sram = s.sram := rfl
@[simp] theorem spoilTraces_dram (s : State) (n : Fin 4) : (s.spoilTraces n).dram = s.dram := rfl
@[simp] theorem spoilTraces_flash (s : State) (n : Fin 4) : (s.spoilTraces n).flash = s.flash := rfl
@[simp] theorem spoilTraces_sys (s : State) (n : Fin 4) : (s.spoilTraces n).sys = s.sys := rfl
@[simp] theorem spoilTraces_syn (s : State) (n : Fin 4) : (s.spoilTraces n).syn = s.syn := rfl
@[simp] theorem spoilTraces_tbu (s : State) (n : Fin 4) : (s.spoilTraces n).tbu = s.tbu := rfl
@[simp] theorem spoilTraces_tdc (s : State) (n : Fin 4) : (s.spoilTraces n).tdc = s.tdc := rfl
@[simp] theorem spoilTraces_rmd (s : State) (n : Fin 4) : (s.spoilTraces n).rmd = s.rmd := rfl
@[simp] theorem spoilTraces_rsf (s : State) (n : Fin 4) : (s.spoilTraces n).rsf = s.rsf := rfl
@[simp] theorem spoilTraces_memc (s : State) (n : Fin 4) : (s.spoilTraces n).memc = s.memc := rfl
@[simp] theorem spoilTraces_zon (s : State) (n : Fin 4) : (s.spoilTraces n).zon = s.zon := rfl
@[simp] theorem spoilTraces_eve (s : State) (n : Fin 4) : (s.spoilTraces n).eve = s.eve := rfl
@[simp] theorem spoilTraces_vdc (s : State) (n : Fin 4) : (s.spoilTraces n).vdc = s.vdc := rfl
@[simp] theorem spoilTraces_cmp (s : State) (n : Fin 4) : (s.spoilTraces n).cmp = s.cmp := rfl
@[simp] theorem spoilTraces_sco (s : State) (n : Fin 4) : (s.spoilTraces n).sco = s.sco := rfl
@[simp] theorem spoilTraces_vdcIn (s : State) (n : Fin 4) : (s.spoilTraces n).vdcIn = s.vdcIn := rfl
@[simp] theorem spoilTraces_cmpIn (s : State) (n : Fin 4) : (s.spoilTraces n).cmpIn = s.cmpIn := rfl
@[simp] theorem spoilTraces_cmd (s : State) (n : Fin 4) : (s.spoilTraces n).cmd = s.cmd := rfl
@[simp] theorem spoilTraces_hodQueue (s : State) (n : Fin 4) : (s.spoilTraces n).hodQueue = s.hodQueue := rfl
@[simp] theorem spoilTraces_hodHeld (s : State) (n : Fin 4) : (s.spoilTraces n).hodHeld = s.hodHeld := rfl
@[simp] theorem spoilTraces_streams (s : State) (n : Fin 4) : (s.spoilTraces n).streams = s.streams := rfl
@[simp] theorem spoilTraces_hif (s : State) (n : Fin 4) : (s.spoilTraces n).hif = s.hif := rfl
@[simp] theorem spoilTraces_acq (s : State) (n : Fin 4) : (s.spoilTraces n).acq = s.acq := rfl
@[simp] theorem spoilTraces_ary (s : State) (n : Fin 4) : (s.spoilTraces n).ary = s.ary := rfl
@[simp] theorem spoilTraces_mgt (s : State) (n : Fin 4) : (s.spoilTraces n).mgt = s.mgt := rfl
@[simp] theorem spoilTraces_fresh (s : State) (n : Fin 4) : (s.spoilTraces n).fresh = s.fresh := rfl
@[simp] theorem spoilTraces_out (s : State) (n : Fin 4) : (s.spoilTraces n).out = s.out := rfl
@[simp] theorem spoilTraces_pending (s : State) (n : Fin 4) : (s.spoilTraces n).pending = s.pending := rfl
@[simp] theorem spoilTraces_rd (s : State) (n : Fin 4) (f : Field) : (s.spoilTraces n).rd f = s.rd f := rd_of_regs (spoilTraces_regs s n) f
@[simp] theorem spoilTraces_on (s : State) (n : Fin 4) (f : Field) : (s.spoilTraces n).on f = s.on f := on_of_regs (spoilTraces_regs s n) f
@[simp] theorem spoilTraces_bit (s : State) (n : Fin 4) (f : Field) (i : Nat) : (s.spoilTraces n).bit f i = s.bit f i := bit_of_regs (spoilTraces_regs s n) f i

@[simp] theorem cause_regs (s : State) (n : Fin 4) (m : Nat) : (s.cause n m).regs = s.regs := by unfold cause; dsimp only; split <;> split <;> rfl
@[simp] theorem cause_shadow (s : State) (n : Fin 4) (m : Nat) : (s.cause n m).shadow = s.shadow := by unfold cause; dsimp only; split <;> split <;> rfl
@[simp] theorem cause_wbuf (s : State) (n : Fin 4) (m : Nat) : (s.cause n m).wbuf = s.wbuf := by unfold cause; dsimp only; split <;> split <;> rfl
@[simp] theorem cause_sram (s : State) (n : Fin 4) (m : Nat) : (s.cause n m).sram = s.sram := by unfold cause; dsimp only; split <;> split <;> rfl
@[simp] theorem cause_dram (s : State) (n : Fin 4) (m : Nat) : (s.cause n m).dram = s.dram := by unfold cause; dsimp only; split <;> split <;> rfl
@[simp] theorem cause_flash (s : State) (n : Fin 4) (m : Nat) : (s.cause n m).flash = s.flash := by unfold cause; dsimp only; split <;> split <;> rfl
@[simp] theorem cause_sys (s : State) (n : Fin 4) (m : Nat) : (s.cause n m).sys = s.sys := by unfold cause; dsimp only; split <;> split <;> rfl
@[simp] theorem cause_syn (s : State) (n : Fin 4) (m : Nat) : (s.cause n m).syn = s.syn := by unfold cause; dsimp only; split <;> split <;> rfl
@[simp] theorem cause_tbu (s : State) (n : Fin 4) (m : Nat) : (s.cause n m).tbu = s.tbu := by unfold cause; dsimp only; split <;> split <;> rfl
@[simp] theorem cause_tdc (s : State) (n : Fin 4) (m : Nat) : (s.cause n m).tdc = s.tdc := by unfold cause; dsimp only; split <;> split <;> rfl
@[simp] theorem cause_rmd (s : State) (n : Fin 4) (m : Nat) : (s.cause n m).rmd = s.rmd := by unfold cause; dsimp only; split <;> split <;> rfl
@[simp] theorem cause_rsf (s : State) (n : Fin 4) (m : Nat) : (s.cause n m).rsf = s.rsf := by unfold cause; dsimp only; split <;> split <;> rfl
@[simp] theorem cause_memc (s : State) (n : Fin 4) (m : Nat) : (s.cause n m).memc = s.memc := by unfold cause; dsimp only; split <;> split <;> rfl
@[simp] theorem cause_zon (s : State) (n : Fin 4) (m : Nat) : (s.cause n m).zon = s.zon := by unfold cause; dsimp only; split <;> split <;> rfl
@[simp] theorem cause_eve (s : State) (n : Fin 4) (m : Nat) : (s.cause n m).eve = s.eve := by unfold cause; dsimp only; split <;> split <;> rfl
@[simp] theorem cause_vdc (s : State) (n : Fin 4) (m : Nat) : (s.cause n m).vdc = s.vdc := by unfold cause; dsimp only; split <;> split <;> rfl
@[simp] theorem cause_cmp (s : State) (n : Fin 4) (m : Nat) : (s.cause n m).cmp = s.cmp := by unfold cause; dsimp only; split <;> split <;> rfl
@[simp] theorem cause_sco (s : State) (n : Fin 4) (m : Nat) : (s.cause n m).sco = s.sco := by unfold cause; dsimp only; split <;> split <;> rfl
@[simp] theorem cause_vdcIn (s : State) (n : Fin 4) (m : Nat) : (s.cause n m).vdcIn = s.vdcIn := by unfold cause; dsimp only; split <;> split <;> rfl
@[simp] theorem cause_cmpIn (s : State) (n : Fin 4) (m : Nat) : (s.cause n m).cmpIn = s.cmpIn := by unfold cause; dsimp only; split <;> split <;> rfl
@[simp] theorem cause_cmd (s : State) (n : Fin 4) (m : Nat) : (s.cause n m).cmd = s.cmd := by unfold cause; dsimp only; split <;> split <;> rfl
@[simp] theorem cause_hodQueue (s : State) (n : Fin 4) (m : Nat) : (s.cause n m).hodQueue = s.hodQueue := by unfold cause; dsimp only; split <;> split <;> rfl
@[simp] theorem cause_hodHeld (s : State) (n : Fin 4) (m : Nat) : (s.cause n m).hodHeld = s.hodHeld := by unfold cause; dsimp only; split <;> split <;> rfl
@[simp] theorem cause_streams (s : State) (n : Fin 4) (m : Nat) : (s.cause n m).streams = s.streams := by unfold cause; dsimp only; split <;> split <;> rfl
@[simp] theorem cause_hif (s : State) (n : Fin 4) (m : Nat) : (s.cause n m).hif = s.hif := by unfold cause; dsimp only; split <;> split <;> rfl
@[simp] theorem cause_acq (s : State) (n : Fin 4) (m : Nat) : (s.cause n m).acq = s.acq := by unfold cause; dsimp only; split <;> split <;> rfl
@[simp] theorem cause_ary (s : State) (n : Fin 4) (m : Nat) : (s.cause n m).ary = s.ary := by unfold cause; dsimp only; split <;> split <;> rfl
@[simp] theorem cause_mgt (s : State) (n : Fin 4) (m : Nat) : (s.cause n m).mgt = s.mgt := by unfold cause; dsimp only; split <;> split <;> rfl
@[simp] theorem cause_fresh (s : State) (n : Fin 4) (m : Nat) : (s.cause n m).fresh = s.fresh := by unfold cause; dsimp only; split <;> split <;> rfl
@[simp] theorem cause_out (s : State) (n : Fin 4) (m : Nat) : (s.cause n m).out = s.out := by unfold cause; dsimp only; split <;> split <;> rfl
@[simp] theorem cause_pending (s : State) (n : Fin 4) (m : Nat) : (s.cause n m).pending = s.pending := by unfold cause; dsimp only; split <;> split <;> rfl
@[simp] theorem cause_rd (s : State) (n : Fin 4) (m : Nat) (f : Field) : (s.cause n m).rd f = s.rd f := rd_of_regs (cause_regs s n m) f
@[simp] theorem cause_on (s : State) (n : Fin 4) (m : Nat) (f : Field) : (s.cause n m).on f = s.on f := on_of_regs (cause_regs s n m) f
@[simp] theorem cause_bit (s : State) (n : Fin 4) (m : Nat) (f : Field) (i : Nat) : (s.cause n m).bit f i = s.bit f i := bit_of_regs (cause_regs s n m) f i

@[simp] theorem causeAll_regs (s : State) (m : Nat) : (s.causeAll m).regs = s.regs := foldl_keeps (fun x => x.regs) _ (fun s n => cause_regs s n m) _ _
@[simp] theorem causeAll_shadow (s : State) (m : Nat) : (s.causeAll m).shadow = s.shadow := foldl_keeps (fun x => x.shadow) _ (fun s n => cause_shadow s n m) _ _
@[simp] theorem causeAll_wbuf (s : State) (m : Nat) : (s.causeAll m).wbuf = s.wbuf := foldl_keeps (fun x => x.wbuf) _ (fun s n => cause_wbuf s n m) _ _
@[simp] theorem causeAll_sram (s : State) (m : Nat) : (s.causeAll m).sram = s.sram := foldl_keeps (fun x => x.sram) _ (fun s n => cause_sram s n m) _ _
@[simp] theorem causeAll_dram (s : State) (m : Nat) : (s.causeAll m).dram = s.dram := foldl_keeps (fun x => x.dram) _ (fun s n => cause_dram s n m) _ _
@[simp] theorem causeAll_flash (s : State) (m : Nat) : (s.causeAll m).flash = s.flash := foldl_keeps (fun x => x.flash) _ (fun s n => cause_flash s n m) _ _
@[simp] theorem causeAll_sys (s : State) (m : Nat) : (s.causeAll m).sys = s.sys := foldl_keeps (fun x => x.sys) _ (fun s n => cause_sys s n m) _ _
@[simp] theorem causeAll_syn (s : State) (m : Nat) : (s.causeAll m).syn = s.syn := foldl_keeps (fun x => x.syn) _ (fun s n => cause_syn s n m) _ _
@[simp] theorem causeAll_tbu (s : State) (m : Nat) : (s.causeAll m).tbu = s.tbu := foldl_keeps (fun x => x.tbu) _ (fun s n => cause_tbu s n m) _ _
@[simp] theorem causeAll_tdc (s : State) (m : Nat) : (s.causeAll m).tdc = s.tdc := foldl_keeps (fun x => x.tdc) _ (fun s n => cause_tdc s n m) _ _
@[simp] theorem causeAll_rmd (s : State) (m : Nat) : (s.causeAll m).rmd = s.rmd := foldl_keeps (fun x => x.rmd) _ (fun s n => cause_rmd s n m) _ _
@[simp] theorem causeAll_rsf (s : State) (m : Nat) : (s.causeAll m).rsf = s.rsf := foldl_keeps (fun x => x.rsf) _ (fun s n => cause_rsf s n m) _ _
@[simp] theorem causeAll_memc (s : State) (m : Nat) : (s.causeAll m).memc = s.memc := foldl_keeps (fun x => x.memc) _ (fun s n => cause_memc s n m) _ _
@[simp] theorem causeAll_zon (s : State) (m : Nat) : (s.causeAll m).zon = s.zon := foldl_keeps (fun x => x.zon) _ (fun s n => cause_zon s n m) _ _
@[simp] theorem causeAll_eve (s : State) (m : Nat) : (s.causeAll m).eve = s.eve := foldl_keeps (fun x => x.eve) _ (fun s n => cause_eve s n m) _ _
@[simp] theorem causeAll_vdc (s : State) (m : Nat) : (s.causeAll m).vdc = s.vdc := foldl_keeps (fun x => x.vdc) _ (fun s n => cause_vdc s n m) _ _
@[simp] theorem causeAll_cmp (s : State) (m : Nat) : (s.causeAll m).cmp = s.cmp := foldl_keeps (fun x => x.cmp) _ (fun s n => cause_cmp s n m) _ _
@[simp] theorem causeAll_sco (s : State) (m : Nat) : (s.causeAll m).sco = s.sco := foldl_keeps (fun x => x.sco) _ (fun s n => cause_sco s n m) _ _
@[simp] theorem causeAll_vdcIn (s : State) (m : Nat) : (s.causeAll m).vdcIn = s.vdcIn := foldl_keeps (fun x => x.vdcIn) _ (fun s n => cause_vdcIn s n m) _ _
@[simp] theorem causeAll_cmpIn (s : State) (m : Nat) : (s.causeAll m).cmpIn = s.cmpIn := foldl_keeps (fun x => x.cmpIn) _ (fun s n => cause_cmpIn s n m) _ _
@[simp] theorem causeAll_cmd (s : State) (m : Nat) : (s.causeAll m).cmd = s.cmd := foldl_keeps (fun x => x.cmd) _ (fun s n => cause_cmd s n m) _ _
@[simp] theorem causeAll_hodQueue (s : State) (m : Nat) : (s.causeAll m).hodQueue = s.hodQueue := foldl_keeps (fun x => x.hodQueue) _ (fun s n => cause_hodQueue s n m) _ _
@[simp] theorem causeAll_hodHeld (s : State) (m : Nat) : (s.causeAll m).hodHeld = s.hodHeld := foldl_keeps (fun x => x.hodHeld) _ (fun s n => cause_hodHeld s n m) _ _
@[simp] theorem causeAll_streams (s : State) (m : Nat) : (s.causeAll m).streams = s.streams := foldl_keeps (fun x => x.streams) _ (fun s n => cause_streams s n m) _ _
@[simp] theorem causeAll_hif (s : State) (m : Nat) : (s.causeAll m).hif = s.hif := foldl_keeps (fun x => x.hif) _ (fun s n => cause_hif s n m) _ _
@[simp] theorem causeAll_acq (s : State) (m : Nat) : (s.causeAll m).acq = s.acq := foldl_keeps (fun x => x.acq) _ (fun s n => cause_acq s n m) _ _
@[simp] theorem causeAll_ary (s : State) (m : Nat) : (s.causeAll m).ary = s.ary := foldl_keeps (fun x => x.ary) _ (fun s n => cause_ary s n m) _ _
@[simp] theorem causeAll_mgt (s : State) (m : Nat) : (s.causeAll m).mgt = s.mgt := foldl_keeps (fun x => x.mgt) _ (fun s n => cause_mgt s n m) _ _
@[simp] theorem causeAll_fresh (s : State) (m : Nat) : (s.causeAll m).fresh = s.fresh := foldl_keeps (fun x => x.fresh) _ (fun s n => cause_fresh s n m) _ _
@[simp] theorem causeAll_out (s : State) (m : Nat) : (s.causeAll m).out = s.out := foldl_keeps (fun x => x.out) _ (fun s n => cause_out s n m) _ _
@[simp] theorem causeAll_pending (s : State) (m : Nat) : (s.causeAll m).pending = s.pending := foldl_keeps (fun x => x.pending) _ (fun s n => cause_pending s n m) _ _
@[simp] theorem causeAll_rd (s : State) (m : Nat) (f : Field) : (s.causeAll m).rd f = s.rd f := rd_of_regs (causeAll_regs s m) f
@[simp] theorem causeAll_on (s : State) (m : Nat) (f : Field) : (s.causeAll m).on f = s.on f := on_of_regs (causeAll_regs s m) f
@[simp] theorem causeAll_bit (s : State) (m : Nat) (f : Field) (i : Nat) : (s.causeAll m).bit f i = s.bit f i := bit_of_regs (causeAll_regs s m) f i

@[simp] theorem evalTq_shadow (s : State) : (s.evalTq ).shadow = s.shadow := by unfold evalTq; dsimp only; split <;> simp
@[simp] theorem evalTq_wbuf (s : State) : (s.evalTq ).wbuf = s.wbuf := by unfold evalTq; dsimp only; split <;> simp
@[simp] theorem evalTq_sram (s : State) : (s.evalTq ).sram = s.sram := by unfold evalTq; dsimp only; split <;> simp
@[simp] theorem evalTq_dram (s : State) : (s.evalTq ).dram = s.dram := by unfold evalTq; dsimp only; split <;> simp
@[simp] theorem evalTq_flash (s : State) : (s.evalTq ).flash = s.flash := by unfold evalTq; dsimp only; split <;> simp
@[simp] theorem evalTq_sys (s : State) : (s.evalTq ).sys = s.sys := by unfold evalTq; dsimp only; split <;> simp
@[simp] theorem evalTq_syn (s : State) : (s.evalTq ).syn = s.syn := by unfold evalTq; dsimp only; split <;> simp
@[simp] theorem evalTq_tbu (s : State) : (s.evalTq ).tbu = s.tbu := by unfold evalTq; dsimp only; split <;> simp
@[simp] theorem evalTq_tdc (s : State) : (s.evalTq ).tdc = s.tdc := by unfold evalTq; dsimp only; split <;> simp
@[simp] theorem evalTq_ports (s : State) : (s.evalTq ).ports = s.ports := by unfold evalTq; dsimp only; split <;> simp
@[simp] theorem evalTq_rmd (s : State) : (s.evalTq ).rmd = s.rmd := by unfold evalTq; dsimp only; split <;> simp
@[simp] theorem evalTq_rrx (s : State) : (s.evalTq ).rrx = s.rrx := by unfold evalTq; dsimp only; split <;> simp
@[simp] theorem evalTq_rsf (s : State) : (s.evalTq ).rsf = s.rsf := by unfold evalTq; dsimp only; split <;> simp
@[simp] theorem evalTq_memc (s : State) : (s.evalTq ).memc = s.memc := by unfold evalTq; dsimp only; split <;> simp
@[simp] theorem evalTq_zon (s : State) : (s.evalTq ).zon = s.zon := by unfold evalTq; dsimp only; split <;> simp
@[simp] theorem evalTq_eve (s : State) : (s.evalTq ).eve = s.eve := by unfold evalTq; dsimp only; split <;> simp
@[simp] theorem evalTq_vdc (s : State) : (s.evalTq ).vdc = s.vdc := by unfold evalTq; dsimp only; split <;> simp
@[simp] theorem evalTq_cmp (s : State) : (s.evalTq ).cmp = s.cmp := by unfold evalTq; dsimp only; split <;> simp
@[simp] theorem evalTq_sco (s : State) : (s.evalTq ).sco = s.sco := by unfold evalTq; dsimp only; split <;> simp
@[simp] theorem evalTq_vdcIn (s : State) : (s.evalTq ).vdcIn = s.vdcIn := by unfold evalTq; dsimp only; split <;> simp
@[simp] theorem evalTq_cmpIn (s : State) : (s.evalTq ).cmpIn = s.cmpIn := by unfold evalTq; dsimp only; split <;> simp
@[simp] theorem evalTq_cmd (s : State) : (s.evalTq ).cmd = s.cmd := by unfold evalTq; dsimp only; split <;> simp
@[simp] theorem evalTq_hodQueue (s : State) : (s.evalTq ).hodQueue = s.hodQueue := by unfold evalTq; dsimp only; split <;> simp
@[simp] theorem evalTq_hodHeld (s : State) : (s.evalTq ).hodHeld = s.hodHeld := by unfold evalTq; dsimp only; split <;> simp
@[simp] theorem evalTq_streams (s : State) : (s.evalTq ).streams = s.streams := by unfold evalTq; dsimp only; split <;> simp
@[simp] theorem evalTq_hif (s : State) : (s.evalTq ).hif = s.hif := by unfold evalTq; dsimp only; split <;> simp
@[simp] theorem evalTq_acq (s : State) : (s.evalTq ).acq = s.acq := by unfold evalTq; dsimp only; split <;> simp
@[simp] theorem evalTq_ary (s : State) : (s.evalTq ).ary = s.ary := by unfold evalTq; dsimp only; split <;> simp
@[simp] theorem evalTq_mgt (s : State) : (s.evalTq ).mgt = s.mgt := by unfold evalTq; dsimp only; split <;> simp
@[simp] theorem evalTq_fresh (s : State) : (s.evalTq ).fresh = s.fresh := by unfold evalTq; dsimp only; split <;> simp
@[simp] theorem evalTq_pending (s : State) : (s.evalTq ).pending = s.pending := by unfold evalTq; dsimp only; split <;> simp

@[simp] theorem calAbandon_regs (s : State) (k : Nat) : (s.calAbandon k).regs = s.regs := by unfold calAbandon; split <;> rfl
@[simp] theorem calAbandon_shadow (s : State) (k : Nat) : (s.calAbandon k).shadow = s.shadow := by unfold calAbandon; split <;> rfl
@[simp] theorem calAbandon_wbuf (s : State) (k : Nat) : (s.calAbandon k).wbuf = s.wbuf := by unfold calAbandon; split <;> rfl
@[simp] theorem calAbandon_sram (s : State) (k : Nat) : (s.calAbandon k).sram = s.sram := by unfold calAbandon; split <;> rfl
@[simp] theorem calAbandon_dram (s : State) (k : Nat) : (s.calAbandon k).dram = s.dram := by unfold calAbandon; split <;> rfl
@[simp] theorem calAbandon_flash (s : State) (k : Nat) : (s.calAbandon k).flash = s.flash := by unfold calAbandon; split <;> rfl
@[simp] theorem calAbandon_sys (s : State) (k : Nat) : (s.calAbandon k).sys = s.sys := by unfold calAbandon; split <;> rfl
@[simp] theorem calAbandon_syn (s : State) (k : Nat) : (s.calAbandon k).syn = s.syn := by unfold calAbandon; split <;> rfl
@[simp] theorem calAbandon_tbu (s : State) (k : Nat) : (s.calAbandon k).tbu = s.tbu := by unfold calAbandon; split <;> rfl
@[simp] theorem calAbandon_tdc (s : State) (k : Nat) : (s.calAbandon k).tdc = s.tdc := by unfold calAbandon; split <;> rfl
@[simp] theorem calAbandon_ports (s : State) (k : Nat) : (s.calAbandon k).ports = s.ports := by unfold calAbandon; split <;> rfl
@[simp] theorem calAbandon_rmd (s : State) (k : Nat) : (s.calAbandon k).rmd = s.rmd := by unfold calAbandon; split <;> rfl
@[simp] theorem calAbandon_rrx (s : State) (k : Nat) : (s.calAbandon k).rrx = s.rrx := by unfold calAbandon; split <;> rfl
@[simp] theorem calAbandon_rsf (s : State) (k : Nat) : (s.calAbandon k).rsf = s.rsf := by unfold calAbandon; split <;> rfl
@[simp] theorem calAbandon_memc (s : State) (k : Nat) : (s.calAbandon k).memc = s.memc := by unfold calAbandon; split <;> rfl
@[simp] theorem calAbandon_zon (s : State) (k : Nat) : (s.calAbandon k).zon = s.zon := by unfold calAbandon; split <;> rfl
@[simp] theorem calAbandon_eve (s : State) (k : Nat) : (s.calAbandon k).eve = s.eve := by unfold calAbandon; split <;> rfl
@[simp] theorem calAbandon_vdc (s : State) (k : Nat) : (s.calAbandon k).vdc = s.vdc := by unfold calAbandon; split <;> rfl
@[simp] theorem calAbandon_cmp (s : State) (k : Nat) : (s.calAbandon k).cmp = s.cmp := by unfold calAbandon; split <;> rfl
@[simp] theorem calAbandon_sco (s : State) (k : Nat) : (s.calAbandon k).sco = s.sco := by unfold calAbandon; split <;> rfl
@[simp] theorem calAbandon_vdcIn (s : State) (k : Nat) : (s.calAbandon k).vdcIn = s.vdcIn := by unfold calAbandon; split <;> rfl
@[simp] theorem calAbandon_cmpIn (s : State) (k : Nat) : (s.calAbandon k).cmpIn = s.cmpIn := by unfold calAbandon; split <;> rfl
@[simp] theorem calAbandon_cmd (s : State) (k : Nat) : (s.calAbandon k).cmd = s.cmd := by unfold calAbandon; split <;> rfl
@[simp] theorem calAbandon_hodQueue (s : State) (k : Nat) : (s.calAbandon k).hodQueue = s.hodQueue := by unfold calAbandon; split <;> rfl
@[simp] theorem calAbandon_hodHeld (s : State) (k : Nat) : (s.calAbandon k).hodHeld = s.hodHeld := by unfold calAbandon; split <;> rfl
@[simp] theorem calAbandon_streams (s : State) (k : Nat) : (s.calAbandon k).streams = s.streams := by unfold calAbandon; split <;> rfl
@[simp] theorem calAbandon_hif (s : State) (k : Nat) : (s.calAbandon k).hif = s.hif := by unfold calAbandon; split <;> rfl
@[simp] theorem calAbandon_acq (s : State) (k : Nat) : (s.calAbandon k).acq = s.acq := by unfold calAbandon; split <;> rfl
@[simp] theorem calAbandon_ary (s : State) (k : Nat) : (s.calAbandon k).ary = s.ary := by unfold calAbandon; split <;> rfl
@[simp] theorem calAbandon_fresh (s : State) (k : Nat) : (s.calAbandon k).fresh = s.fresh := by unfold calAbandon; split <;> rfl
@[simp] theorem calAbandon_out (s : State) (k : Nat) : (s.calAbandon k).out = s.out := by unfold calAbandon; split <;> rfl
@[simp] theorem calAbandon_pending (s : State) (k : Nat) : (s.calAbandon k).pending = s.pending := by unfold calAbandon; split <;> rfl
@[simp] theorem calAbandon_rd (s : State) (k : Nat) (f : Field) : (s.calAbandon k).rd f = s.rd f := rd_of_regs (calAbandon_regs s k) f
@[simp] theorem calAbandon_on (s : State) (k : Nat) (f : Field) : (s.calAbandon k).on f = s.on f := on_of_regs (calAbandon_regs s k) f
@[simp] theorem calAbandon_bit (s : State) (k : Nat) (f : Field) (i : Nat) : (s.calAbandon k).bit f i = s.bit f i := bit_of_regs (calAbandon_regs s k) f i

@[simp] theorem calAbandonAll_regs (s : State) : (s.calAbandonAll ).regs = s.regs := by
  unfold calAbandonAll; split
  · split
    · simp
    · rfl
  · rfl
@[simp] theorem calAbandonAll_shadow (s : State) : (s.calAbandonAll ).shadow = s.shadow := by
  unfold calAbandonAll; split
  · split
    · simp
    · rfl
  · rfl
@[simp] theorem calAbandonAll_wbuf (s : State) : (s.calAbandonAll ).wbuf = s.wbuf := by
  unfold calAbandonAll; split
  · split
    · simp
    · rfl
  · rfl
@[simp] theorem calAbandonAll_sram (s : State) : (s.calAbandonAll ).sram = s.sram := by
  unfold calAbandonAll; split
  · split
    · simp
    · rfl
  · rfl
@[simp] theorem calAbandonAll_dram (s : State) : (s.calAbandonAll ).dram = s.dram := by
  unfold calAbandonAll; split
  · split
    · simp
    · rfl
  · rfl
@[simp] theorem calAbandonAll_flash (s : State) : (s.calAbandonAll ).flash = s.flash := by
  unfold calAbandonAll; split
  · split
    · simp
    · rfl
  · rfl
@[simp] theorem calAbandonAll_sys (s : State) : (s.calAbandonAll ).sys = s.sys := by
  unfold calAbandonAll; split
  · split
    · simp
    · rfl
  · rfl
@[simp] theorem calAbandonAll_syn (s : State) : (s.calAbandonAll ).syn = s.syn := by
  unfold calAbandonAll; split
  · split
    · simp
    · rfl
  · rfl
@[simp] theorem calAbandonAll_tbu (s : State) : (s.calAbandonAll ).tbu = s.tbu := by
  unfold calAbandonAll; split
  · split
    · simp
    · rfl
  · rfl
@[simp] theorem calAbandonAll_tdc (s : State) : (s.calAbandonAll ).tdc = s.tdc := by
  unfold calAbandonAll; split
  · split
    · simp
    · rfl
  · rfl
@[simp] theorem calAbandonAll_ports (s : State) : (s.calAbandonAll ).ports = s.ports := by
  unfold calAbandonAll; split
  · split
    · simp
    · rfl
  · rfl
@[simp] theorem calAbandonAll_rmd (s : State) : (s.calAbandonAll ).rmd = s.rmd := by
  unfold calAbandonAll; split
  · split
    · simp
    · rfl
  · rfl
@[simp] theorem calAbandonAll_rrx (s : State) : (s.calAbandonAll ).rrx = s.rrx := by
  unfold calAbandonAll; split
  · split
    · simp
    · rfl
  · rfl
@[simp] theorem calAbandonAll_rsf (s : State) : (s.calAbandonAll ).rsf = s.rsf := by
  unfold calAbandonAll; split
  · split
    · simp
    · rfl
  · rfl
@[simp] theorem calAbandonAll_memc (s : State) : (s.calAbandonAll ).memc = s.memc := by
  unfold calAbandonAll; split
  · split
    · simp
    · rfl
  · rfl
@[simp] theorem calAbandonAll_zon (s : State) : (s.calAbandonAll ).zon = s.zon := by
  unfold calAbandonAll; split
  · split
    · simp
    · rfl
  · rfl
@[simp] theorem calAbandonAll_eve (s : State) : (s.calAbandonAll ).eve = s.eve := by
  unfold calAbandonAll; split
  · split
    · simp
    · rfl
  · rfl
@[simp] theorem calAbandonAll_vdc (s : State) : (s.calAbandonAll ).vdc = s.vdc := by
  unfold calAbandonAll; split
  · split
    · simp
    · rfl
  · rfl
@[simp] theorem calAbandonAll_cmp (s : State) : (s.calAbandonAll ).cmp = s.cmp := by
  unfold calAbandonAll; split
  · split
    · simp
    · rfl
  · rfl
@[simp] theorem calAbandonAll_sco (s : State) : (s.calAbandonAll ).sco = s.sco := by
  unfold calAbandonAll; split
  · split
    · simp
    · rfl
  · rfl
@[simp] theorem calAbandonAll_vdcIn (s : State) : (s.calAbandonAll ).vdcIn = s.vdcIn := by
  unfold calAbandonAll; split
  · split
    · simp
    · rfl
  · rfl
@[simp] theorem calAbandonAll_cmpIn (s : State) : (s.calAbandonAll ).cmpIn = s.cmpIn := by
  unfold calAbandonAll; split
  · split
    · simp
    · rfl
  · rfl
@[simp] theorem calAbandonAll_cmd (s : State) : (s.calAbandonAll ).cmd = s.cmd := by
  unfold calAbandonAll; split
  · split
    · simp
    · rfl
  · rfl
@[simp] theorem calAbandonAll_hodQueue (s : State) : (s.calAbandonAll ).hodQueue = s.hodQueue := by
  unfold calAbandonAll; split
  · split
    · simp
    · rfl
  · rfl
@[simp] theorem calAbandonAll_hodHeld (s : State) : (s.calAbandonAll ).hodHeld = s.hodHeld := by
  unfold calAbandonAll; split
  · split
    · simp
    · rfl
  · rfl
@[simp] theorem calAbandonAll_streams (s : State) : (s.calAbandonAll ).streams = s.streams := by
  unfold calAbandonAll; split
  · split
    · simp
    · rfl
  · rfl
@[simp] theorem calAbandonAll_hif (s : State) : (s.calAbandonAll ).hif = s.hif := by
  unfold calAbandonAll; split
  · split
    · simp
    · rfl
  · rfl
@[simp] theorem calAbandonAll_acq (s : State) : (s.calAbandonAll ).acq = s.acq := by
  unfold calAbandonAll; split
  · split
    · simp
    · rfl
  · rfl
@[simp] theorem calAbandonAll_ary (s : State) : (s.calAbandonAll ).ary = s.ary := by
  unfold calAbandonAll; split
  · split
    · simp
    · rfl
  · rfl
@[simp] theorem calAbandonAll_fresh (s : State) : (s.calAbandonAll ).fresh = s.fresh := by
  unfold calAbandonAll; split
  · split
    · simp
    · rfl
  · rfl
@[simp] theorem calAbandonAll_out (s : State) : (s.calAbandonAll ).out = s.out := by
  unfold calAbandonAll; split
  · split
    · simp
    · rfl
  · rfl
@[simp] theorem calAbandonAll_pending (s : State) : (s.calAbandonAll ).pending = s.pending := by
  unfold calAbandonAll; split
  · split
    · simp
    · rfl
  · rfl
@[simp] theorem calAbandonAll_rd (s : State)  (f : Field) : (s.calAbandonAll ).rd f = s.rd f := rd_of_regs (calAbandonAll_regs s ) f
@[simp] theorem calAbandonAll_on (s : State)  (f : Field) : (s.calAbandonAll ).on f = s.on f := on_of_regs (calAbandonAll_regs s ) f
@[simp] theorem calAbandonAll_bit (s : State)  (f : Field) (i : Nat) : (s.calAbandonAll ).bit f i = s.bit f i := bit_of_regs (calAbandonAll_regs s ) f i

@[simp] theorem acqTimeStep_regs (s : State) : (s.acqTimeStep ).regs = s.regs := rfl
@[simp] theorem acqTimeStep_shadow (s : State) : (s.acqTimeStep ).shadow = s.shadow := rfl
@[simp] theorem acqTimeStep_wbuf (s : State) : (s.acqTimeStep ).wbuf = s.wbuf := rfl
@[simp] theorem acqTimeStep_sram (s : State) : (s.acqTimeStep ).sram = s.sram := rfl
@[simp] theorem acqTimeStep_dram (s : State) : (s.acqTimeStep ).dram = s.dram := rfl
@[simp] theorem acqTimeStep_flash (s : State) : (s.acqTimeStep ).flash = s.flash := rfl
@[simp] theorem acqTimeStep_sys (s : State) : (s.acqTimeStep ).sys = s.sys := rfl
@[simp] theorem acqTimeStep_syn (s : State) : (s.acqTimeStep ).syn = s.syn := rfl
@[simp] theorem acqTimeStep_tbu (s : State) : (s.acqTimeStep ).tbu = s.tbu := rfl
@[simp] theorem acqTimeStep_tdc (s : State) : (s.acqTimeStep ).tdc = s.tdc := rfl
@[simp] theorem acqTimeStep_ports (s : State) : (s.acqTimeStep ).ports = s.ports := rfl
@[simp] theorem acqTimeStep_rmd (s : State) : (s.acqTimeStep ).rmd = s.rmd := rfl
@[simp] theorem acqTimeStep_rrx (s : State) : (s.acqTimeStep ).rrx = s.rrx := rfl
@[simp] theorem acqTimeStep_rsf (s : State) : (s.acqTimeStep ).rsf = s.rsf := rfl
@[simp] theorem acqTimeStep_memc (s : State) : (s.acqTimeStep ).memc = s.memc := rfl
@[simp] theorem acqTimeStep_zon (s : State) : (s.acqTimeStep ).zon = s.zon := rfl
@[simp] theorem acqTimeStep_eve (s : State) : (s.acqTimeStep ).eve = s.eve := rfl
@[simp] theorem acqTimeStep_vdc (s : State) : (s.acqTimeStep ).vdc = s.vdc := rfl
@[simp] theorem acqTimeStep_cmp (s : State) : (s.acqTimeStep ).cmp = s.cmp := rfl
@[simp] theorem acqTimeStep_sco (s : State) : (s.acqTimeStep ).sco = s.sco := rfl
@[simp] theorem acqTimeStep_vdcIn (s : State) : (s.acqTimeStep ).vdcIn = s.vdcIn := rfl
@[simp] theorem acqTimeStep_cmpIn (s : State) : (s.acqTimeStep ).cmpIn = s.cmpIn := rfl
@[simp] theorem acqTimeStep_cmd (s : State) : (s.acqTimeStep ).cmd = s.cmd := rfl
@[simp] theorem acqTimeStep_hodQueue (s : State) : (s.acqTimeStep ).hodQueue = s.hodQueue := rfl
@[simp] theorem acqTimeStep_hodHeld (s : State) : (s.acqTimeStep ).hodHeld = s.hodHeld := rfl
@[simp] theorem acqTimeStep_streams (s : State) : (s.acqTimeStep ).streams = s.streams := rfl
@[simp] theorem acqTimeStep_hif (s : State) : (s.acqTimeStep ).hif = s.hif := rfl
@[simp] theorem acqTimeStep_ary (s : State) : (s.acqTimeStep ).ary = s.ary := rfl
@[simp] theorem acqTimeStep_mgt (s : State) : (s.acqTimeStep ).mgt = s.mgt := rfl
@[simp] theorem acqTimeStep_fresh (s : State) : (s.acqTimeStep ).fresh = s.fresh := rfl
@[simp] theorem acqTimeStep_out (s : State) : (s.acqTimeStep ).out = s.out := rfl
@[simp] theorem acqTimeStep_pending (s : State) : (s.acqTimeStep ).pending = s.pending := rfl
@[simp] theorem acqTimeStep_rd (s : State)  (f : Field) : (s.acqTimeStep ).rd f = s.rd f := rd_of_regs (acqTimeStep_regs s ) f
@[simp] theorem acqTimeStep_on (s : State)  (f : Field) : (s.acqTimeStep ).on f = s.on f := on_of_regs (acqTimeStep_regs s ) f
@[simp] theorem acqTimeStep_bit (s : State)  (f : Field) (i : Nat) : (s.acqTimeStep ).bit f i = s.bit f i := bit_of_regs (acqTimeStep_regs s ) f i

/-- Time quality shows in TBU_STAT and its event only (R75). -/
theorem rd_evalTq (s : State) (h1 : g.key ≠ R.TBU_STAT_TQ.key) (h2 : g.key ≠ R.TBU_EVENT_TQ_CHANGE.key)
    (h3 : g.key ≠ 0x1a48000) : s.evalTq.rd g = s.rd g := by
  unfold evalTq
  dsimp only
  split
  · rfl
  · rw [rd_ev_ne _ _ (Ne.symm h2) h3, rd_wr_ne _ _ (Ne.symm h1)]

theorem on_evalTq (s : State) (h1 : g.key ≠ R.TBU_STAT_TQ.key) (h2 : g.key ≠ R.TBU_EVENT_TQ_CHANGE.key)
    (h3 : g.key ≠ 0x1a48000) : s.evalTq.on g = s.on g := by rw [on, rd_evalTq s h1 h2 h3, on]

theorem bit_evalTq (s : State) (i : Nat) (h1 : g.key ≠ R.TBU_STAT_TQ.key) (h2 : g.key ≠ R.TBU_EVENT_TQ_CHANGE.key)
    (h3 : g.key ≠ 0x1a48000) : s.evalTq.bit g i = s.bit g i := by rw [bit, rd_evalTq s h1 h2 h3, bit]

theorem on_log (s : State) (a b c d : Nat) (l : List Nat) (h : g.key ∉ logKeys) : (s.log a b c d l).on g = s.on g := by
  rw [on, rd_log s a b c d l h, on]

theorem bit_log (s : State) (a b c d i : Nat) (l : List Nat) (h : g.key ∉ logKeys) :
    (s.log a b c d l).bit g i = s.bit g i := by rw [bit, rd_log s a b c d l h, bit]

end Sys2Proof.Machine.State
end

