-- ==== Sys2Proof/Laws/Syn.lean ====
section
/-! SUPPORT. Laws of the clock synthesis: what the loss of one lock, and of PLL_S with those that hang on it, does
(R48 to R50). -/

-- One thread, so that the whole package compiles within a bounded number of threads.
set_option Elab.async false

namespace Sys2Proof.Machine.State
open Sys2Proof Arith

variable {g : Field}

theorem rd_lockCause (s : State) (p : Nat) (f : Field) : (s.lockCause p).rd f = s.rd f := by
  unfold lockCause
  repeat (first | rfl | split | simp)

theorem lockCause_syn (s : State) (p : Nat) : (s.lockCause p).syn = s.syn := by
  unfold lockCause
  repeat (first | rfl | split | simp)

/-- What a link word carries is kept with the ports. -/
theorem era_regs (s : State) (n : Fin 4) (f : LinkEra → LinkEra) : (s.era n f).regs = s.regs := by
  unfold era
  dsimp only
  split <;> simp

theorem era_syn (s : State) (n : Fin 4) (f : LinkEra → LinkEra) : (s.era n f).syn = s.syn := by
  unfold era
  dsimp only
  split <;> simp

/-- A loss of lock marks the link words (R131) and touches no register and no synthesiser. -/
theorem linkLock_regs (s : State) (b : Bool) : (s.linkLock b).regs = s.regs := by
  unfold linkLock
  dsimp only
  rw [foldl_keeps (fun x => x.regs) _ (fun s n => era_regs s n _)]
  split <;> rfl

theorem linkLock_syn (s : State) : (s.linkLock false).syn = s.syn := by
  unfold linkLock
  exact foldl_keeps (fun x => x.syn) _ (fun s n => era_syn s n _) _ _

/-- The words of the links, where PLL_S is the one that was locked. -/
theorem rd_lossLinks (s : State) (p : Nat) (f : Field) : (if p = 0 then s.linkLock false else s).rd f = s.rd f := by
  split
  · exact rd_of_regs (linkLock_regs _ _) f
  · rfl

theorem lossLinks_syn (s : State) (p : Nat) : (if p = 0 then s.linkLock false else s).syn = s.syn := by
  split
  · exact linkLock_syn s
  · rfl

/-- The loss of one lock writes LOCK and its event, and nothing else of the bank. -/
theorem rd_dropOne (s : State) (p : Nat) (again : Bool) (h1 : g.key ≠ R.SYN_STAT_LOCK.key)
    (h2 : g.key ≠ R.SYN_EVENT_LOCK_LOSS.key) (h3 : g.key ≠ 0x1a48000) : (s.dropOne p again).rd g = s.rd g := by
  unfold dropOne
  dsimp only
  split
  · rw [rd_lockCause, rd_ev_ne _ _ (Ne.symm h2) h3, rd_lossLinks, modSyn_rd, rd_putBit_ne _ _ _ (Ne.symm h1)]
  · rw [modSyn_rd, rd_putBit_ne _ _ _ (Ne.symm h1)]

theorem on_dropOne (s : State) (p : Nat) (again : Bool) (h1 : g.key ≠ R.SYN_STAT_LOCK.key)
    (h2 : g.key ≠ R.SYN_EVENT_LOCK_LOSS.key) (h3 : g.key ≠ 0x1a48000) : (s.dropOne p again).on g = s.on g := by
  rw [on, rd_dropOne s p again h1 h2 h3, on]

theorem bit_dropOne (s : State) (p i : Nat) (again : Bool) (h1 : g.key ≠ R.SYN_STAT_LOCK.key)
    (h2 : g.key ≠ R.SYN_EVENT_LOCK_LOSS.key) (h3 : g.key ≠ 0x1a48000) : (s.dropOne p again).bit g i = s.bit g i := by
  rw [bit, rd_dropOne s p again h1 h2 h3, bit]

/-- LOCK of the synthesiser is 0, and the others keep theirs. -/
theorem lock_dropOne (s : State) (p q : Nat) (again : Bool) (hq : q < 5) :
    (s.dropOne p again).bit R.SYN_STAT_LOCK q = (decide (p ≠ q) && s.bit R.SYN_STAT_LOCK q) := by
  have e : (s.dropOne p again).bit R.SYN_STAT_LOCK q = (s.putBit R.SYN_STAT_LOCK p false).bit R.SYN_STAT_LOCK q := by
    unfold dropOne
    dsimp only
    split
    · rw [bit, rd_lockCause, rd_ev_ne _ _ (by decide) (by decide), rd_lossLinks, modSyn_rd, bit]
    · rw [modSyn_bit]
  rw [e, bit_putBit _ _ _ _ hq]
  by_cases h : p = q <;> simp [h]

/-- Only a synthesiser that was locked loses its lock. -/
theorem loss_dropOne (s : State) (p q : Nat) (again : Bool) (hq : q < 5) :
    (s.dropOne p again).bit R.SYN_EVENT_LOCK_LOSS q
      = (s.bit R.SYN_EVENT_LOCK_LOSS q || (decide (p = q) && s.bit R.SYN_STAT_LOCK p)) := by
  unfold dropOne
  dsimp only
  split
  · rename_i h
    rw [bit, rd_lockCause, ← bit, bit_ev_same _ _ _ hq (by decide), bit, rd_lossLinks, ← bit, modSyn_bit,
      bit_putBit_ne _ _ _ _ (by decide), h]
    simp
  · rename_i h
    rw [modSyn_bit, bit_putBit_ne _ _ _ _ (by decide)]
    simp [h]

/-- A synthesiser that was locked and is enabled acquires again where that is asked for. -/
theorem acquiring_dropOne (s : State) (p : Nat) (again : Bool) :
    (s.dropOne p again).syn.acquiring
      = if again && s.bit R.SYN_CTRL_EN p && s.bit R.SYN_STAT_LOCK p then synMask s.syn.acquiring p true
        else s.syn.acquiring := by
  unfold dropOne
  dsimp only
  have e : (s.putBit R.SYN_STAT_LOCK p false).bit R.SYN_CTRL_EN p = s.bit R.SYN_CTRL_EN p :=
    bit_putBit_ne _ _ _ _ (by decide)
  split <;> simp [lockCause_syn, lossLinks_syn, e]

theorem jump_dropOne (s : State) (p : Nat) (again : Bool) : (s.dropOne p again).syn.jump = s.syn.jump := by
  unfold dropOne
  dsimp only
  split <;> simp [lockCause_syn, lossLinks_syn]

/-- What a loss of lock leaves alone of the bank. -/
theorem rd_dropLock (s : State) (p : Nat) (again : Bool) (h1 : g.key ≠ R.SYN_STAT_LOCK.key)
    (h2 : g.key ≠ R.SYN_EVENT_LOCK_LOSS.key) (h3 : g.key ≠ 0x1a48000) (h4 : g.key ≠ R.TBU_STAT_TQ.key)
    (h5 : g.key ≠ R.TBU_EVENT_TQ_CHANGE.key) : (s.dropLock p again).rd g = s.rd g := by
  unfold dropLock
  dsimp only
  split
  · rw [rd_evalTq _ h4 h5 h3, calAbandonAll_rd, rd_dropOne _ _ _ h1 h2 h3, rd_dropOne _ _ _ h1 h2 h3,
      rd_dropOne _ _ _ h1 h2 h3]
  · exact rd_dropOne _ _ _ h1 h2 h3

theorem on_dropLock (s : State) (p : Nat) (again : Bool) (h1 : g.key ≠ R.SYN_STAT_LOCK.key)
    (h2 : g.key ≠ R.SYN_EVENT_LOCK_LOSS.key) (h3 : g.key ≠ 0x1a48000) (h4 : g.key ≠ R.TBU_STAT_TQ.key)
    (h5 : g.key ≠ R.TBU_EVENT_TQ_CHANGE.key) : (s.dropLock p again).on g = s.on g := by
  rw [on, rd_dropLock s p again h1 h2 h3 h4 h5, on]

theorem bit_dropLock (s : State) (p i : Nat) (again : Bool) (h1 : g.key ≠ R.SYN_STAT_LOCK.key)
    (h2 : g.key ≠ R.SYN_EVENT_LOCK_LOSS.key) (h3 : g.key ≠ 0x1a48000) (h4 : g.key ≠ R.TBU_STAT_TQ.key)
    (h5 : g.key ≠ R.TBU_EVENT_TQ_CHANGE.key) : (s.dropLock p again).bit g i = s.bit g i := by
  rw [bit, rd_dropLock s p again h1 h2 h3 h4 h5, bit]

/-- With PLL_S the carrier synthesisers lose their lock (R49). -/
theorem lock_dropLock (s : State) (p q : Nat) (again : Bool) (hq : q < 5) :
    (s.dropLock p again).bit R.SYN_STAT_LOCK q
      = (decide (p ≠ q) && !(decide (p = 0) && decide (3 ≤ q)) && s.bit R.SYN_STAT_LOCK q) := by
  unfold dropLock
  dsimp only
  split
  · rename_i h
    subst h
    rw [bit_evalTq _ _ (by decide) (by decide) (by decide), calAbandonAll_bit, lock_dropOne _ _ _ _ hq,
      lock_dropOne _ _ _ _ hq, lock_dropOne _ _ _ _ hq]
    have hc : q = 0 ∨ q = 1 ∨ q = 2 ∨ q = 3 ∨ q = 4 := by omega
    rcases hc with rfl | rfl | rfl | rfl | rfl <;> simp
  · rename_i h
    rw [lock_dropOne _ _ _ _ hq]
    simp [h]

end Sys2Proof.Machine.State
end

