-- ==== Sys2Proof/Laws/Tdc.lean ====
section
/-! SUPPORT. Laws of the TDC units: what a result, and the end of every pending measurement, leaves alone (R77, R89 to
R92). -/

-- One thread, so that the whole package compiles within a bounded number of threads.
set_option Elab.async false

namespace Sys2Proof.Machine.State
open Sys2Proof Arith

@[simp] theorem showTdc_tbu (s : State) (u : Fin 8) : (s.showTdc u).tbu = s.tbu := by
  rw [showTdc, put_tbu, wr_tbu, wr_tbu, wr_tbu, wr_tbu, wr_tbu]

@[simp] theorem showTdc_tdc (s : State) (u : Fin 8) : (s.showTdc u).tdc = s.tdc := by
  rw [showTdc, put_tdc, wr_tdc, wr_tdc, wr_tdc, wr_tdc, wr_tdc]

/-- The registers of unit `u` that show the FIFO, whatever they show, leave the time base alone. -/
theorem latched_tbu (s : State) (u : Fin 8) (a b c d e : Nat) :
    (((((((s.wr (R.TDC_MEAN_VALUE u) a).wr (R.TDC_SDEV_SDEV u) b).wr (R.TDC_MIN_VALUE u) c).wr (R.TDC_MAX_VALUE u) d).wr
      (R.TDC_NFLAG_COUNT u) e).put (R.TDC_STATUS_STAT_READY u) true).ev R.TBU_EVENT_TDC_STAT u).tbu = s.tbu := by
  rw [ev_tbu, put_tbu, wr_tbu, wr_tbu, wr_tbu, wr_tbu, wr_tbu]

theorem latched_tdc (s : State) (u : Fin 8) (a b c d e : Nat) :
    (((((((s.wr (R.TDC_MEAN_VALUE u) a).wr (R.TDC_SDEV_SDEV u) b).wr (R.TDC_MIN_VALUE u) c).wr (R.TDC_MAX_VALUE u) d).wr
      (R.TDC_NFLAG_COUNT u) e).put (R.TDC_STATUS_STAT_READY u) true).ev R.TBU_EVENT_TDC_STAT u).tdc = s.tdc := by
  rw [ev_tdc, put_tdc, wr_tdc, wr_tdc, wr_tdc, wr_tdc, wr_tdc]

@[simp] theorem tdcLatch_tbu (s : State) (u : Fin 8) (l : List Int) (k : Nat) : (s.tdcLatch u l k).tbu = s.tbu := by
  by_cases h : s.on (R.TDC_STATUS_STAT_READY u) = true
  · rw [tdcLatch, if_pos h, put_tbu]
  · rw [tdcLatch, if_neg h]
    exact latched_tbu _ _ _ _ _ _ _

@[simp] theorem tdcLatch_tdc (s : State) (u : Fin 8) (l : List Int) (k : Nat) : (s.tdcLatch u l k).tdc = s.tdc := by
  by_cases h : s.on (R.TDC_STATUS_STAT_READY u) = true
  · rw [tdcLatch, if_pos h, put_tdc]
  · rw [tdcLatch, if_neg h]
    exact latched_tdc _ _ _ _ _ _ _

/-- A result leaves the time base alone. -/
@[simp] theorem tdcResult_tbu (s : State) (u : Fin 8) (v x fl r : Nat) (i : Option Int) :
    (s.tdcResult u v x fl r i).tbu = s.tbu := by
  unfold tdcResult
  extract_lets t full w2 e s1 s2 s3
  have h2 : s2.tbu = s.tbu := by
    have h1 : s1.tbu = s.tbu := by
      by_cases h : full = true
      · simp only [s1, if_pos h, count_tbu]
      · simp only [s1, if_neg h]
    simp only [s2, modTdc_tbu, h1]
  have h3 : s3.tbu = s2.tbu := by
    cases i with
    | none => rfl
    | some y =>
      simp only [s3]
      split
      · rfl
      · split
        · rw [modTdc_tbu, tdcLatch_tbu]
        · rw [modTdc_tbu]
  rw [showTdc_tbu, h3, h2]

@[simp] theorem tdcTimeBad_tbu (s : State) : s.tdcTimeBad.tbu = s.tbu := by
  unfold tdcTimeBad
  refine foldl_keeps (fun x => x.tbu) _ (fun s u => ?_) _ _
  dsimp only
  split
  · split
    · rw [tdcResult_tbu, modTdc_tbu]
      rfl
    · rfl
  · rfl

end Sys2Proof.Machine.State
end

