-- ==== Sys2Proof/Tests/Slice0.lean ====
section
/-! SUPPORT. The model's own tests: for each obligation with hypotheses a theorem that shows states and operands which
meet them, clause by clause; small tests of single commands; and an ill-formed command for each check of WellFormed. -/

namespace Sys2Proof.Tests
open Sys2Proof Sys2Proof.Machine State

set_option Elab.async false

theorem test_reset_canonical : State.reset.Canonical := by unfold State.Canonical; decide

/-! ### What the witnesses are made of -/

/-- RUN with every domain on. -/
def st0 : State := { State.reset with sys := { State.reset.sys with domains := 0x1FFFF, phase := .up, mode := 4 } }

/-- A packet of the SPI slave with tag 1. -/
def pk (l : List Nat) : Packet :=
  { req := .spi, op := 0, tag := 1, fence := false, notify := false, urgent := false, seq := 0, job := 0, words := l
    rcap := 0, result := 0, rsv := 0, bus := .timeout }

/-- An SPI packet is admitted when these hold of it. -/
theorem admitted_spi {s : State} {q : Packet} (h : q.req = .spi)
    (h' : s.reaches q.req = true ∧ q.words.length ≤ 1020 ∧ (∀ w ∈ q.words, w < 2 ^ 32) ∧ s.packetCheck q = none
      ∧ s.hif.spi.length < 8 ∧ (q.urgent = true ∨ (∀ e ∈ s.cmd.waiting, e.2.req ≠ q.req)
        ∧ (q.fence = true → s.settled q.req (s.cmd.arrivals + 1) = true))) : Admitted s q := by
  obtain ⟨h1, h2, h3, h4, h5, h6⟩ := h'
  exact ⟨h1, h2, h3, h4, fun m a u e => by simp [h] at e, fun _ => h5, h6⟩

theorem jobRuns_of {s : State} {h : Nat} (e : ((s.job? h).any fun j => State.live j && !j.notify) = true) :
    JobRuns s h := by
  simpa [JobRuns, Option.any_eq_true] using e

def zChirp : Chirp :=
  { stamp := 0
    begins := 0
    prof := 0
    len := 0 }
def zCodes : Codes :=
  { xi := 0
    xq := 0
    yi := 0
    yq := 0 }
def zEdge : Edge :=
  { rising := false
    frac := 0
    long := false }
def zCourse : Course :=
  { stamp := 0
    raw := 0
    slot := 0
    chirp := 0
    step := 0
    amp := 0
    width := 0
    route := 0
    len := 0
    watch := false
    dark := false
    fresh := false
    reseed := false
    slewing := false
    test := false
    tq := 0
    seq := none
    root := 0
    ne := 0
    faded := 0
    satn := 0
    clip := false
    sat := false
    number := 0
    gaps := 0 }
def zFetch : Fetch :=
  { course := zCourse
    raman := false
    bad := false
    stage := 0
    lost := false }
def zTrace : Trace :=
  { stamp := 0
    raw := 0
    tq := 0
    slewing := false
    watch := false
    route := 0
    len := 0
    bad := false
    room := false }
def zGap : Gap :=
  { first := 0
    last := 0
    lost := 0
    causes := 0
    next := 0
    no := 0 }
def zFrame : Frame :=
  { stamp := 0
    tq := 0
    slewing := false
    watch := false
    prof := 0
    port := 0
    kind := 0
    gen := 0
    frame := 0
    det := 0
    dropped := 0
    course := 0
    gaps := 0
    runs := []
    idx := 0
    zones := [] }
def zZEntry : ZEntry :=
  { e := 0
    en := false
    priv := false
    port := 0
    box := false
    pidx := 0
    routes := 0
    start := 0
    gauge := 0
    count := 0
    z0 := 0
    interval := 0
    scale := 0
    unit := 0
    base := 0
    filt := 0
    det := 0
    label := 0 }
def zRBuf : RBuf :=
  { sums := []
    n := 0
    first := 0
    last := 0
    tq := 0
    rejected := 0
    len := 0
    route := 0
    slewing := false
    watch := false
    uncal := false
    stale := false
    routeEnd := false
    suspended := false
    corr := []
    gamma := 0
    da := 0
    low := 0
    coil0 := none
    coil1 := none
    coilStale := false }
def zRsfResult : RsfResult :=
  { ch := 0
    code := 0
    burnout := false
    ov := false
    sat := false
    uncal := false
    value := 0
    stamp := 0 }
def zVItem : VItem :=
  { src := 0
    port := 0
    prof := 0
    kind := 0
    entry := 0
    stamp := 0
    frame := none
    words := [] }
def zCapUnit : CapUnit :=
  { stamp := 0
    bytes := []
    clip := false
    trunc := false }
def zSegment : Segment :=
  { trig := 0
    first := 0
    last := 0
    cond := 0
    input := 0
    array := false
    origin := 0
    pre := 0
    post := 0
    flags := 0
    units := []
    need := 0
    slot := 0
    segno := 0
    lost := 0
    ofs := 0
    data := []
    gaps := 0
    at_ := 0 }
def zTProf : TProf :=
  { port := 0
    words := []
    vals := [] }
def zTile : Tile :=
  { t := 0
    set := 0
    col := 0
    first := 0
    last := 0
    gen := 0
    point := 0
    w := 0
    rows := 0
    missed := 0
    close := 0
    tq := 0
    watch := false
    slewing := false
    settling := false
    gapfill := false
    flagged := false
    half := false
    major := false
    delta := false
    payload := [] }
def zTRow : TRow :=
  { stamp := 0
    vals := []
    key := []
    watch := false
    slewing := false
    tq := 0 }
def zRec : Rec :=
  { port := 0
    rtype := 0
    stamp := 0
    body := []
    lane := 0
    slot := 0 }
def zReply : Reply :=
  { op := 0
    tag := 0
    kind := 0
    status := 0
    detail := 0
    job := 0
    stamp := 0
    result := [] }
def zCompletion : Completion :=
  { reply := zReply
    rcap := 0
    addr := 0
    own := false }
def zChange : Change :=
  { job := 0
    target := 0
    time := false }
def zJob : Job :=
  { entry := 0
    typ := 0
    serial := 0
    op := 0
    state := .running
    status := 0
    detail := 0
    req := .spi
    notify := false
    words := []
    result := []
    made := 0
    began := 0
    ended := 0
    endNo := 0
    progress := 0
    arr := 0
    rcap := 0
    addr := 0 }
def zHodReq : HodReq :=
  { user := .mode
    hods := 0
    cls := 0
    tmo := 0
    job := 0 }
def zUpdate : Update :=
  { slot := 0
    size := 0
    staged := false
    cells := []
    job := 0 }
def zAryPkt : AryPkt :=
  { addr := 0
    head := 0
    no := 0
    seq := 0
    body := []
    crc := 0 }
def zStrm : Strm :=
  { dest := 0
    ethM := 0
    addr := 0
    udp := 0
    ipv6 := false
    queue := []
    waitq := []
    seq := 0
    written := 0
    closing := false
    coal := false
    lastMsg := none
    turn := 0
    part := 0 }
def zMember : Member :=
  { id := 0
    addr := 0
    missed := 0
    armAck := false }
def zEpisode : Episode :=
  { first := 0
    last := 0
    causes := 0
    count := 0 }
def zPoint : Point :=
  { entry := 0
    point := 0
    value := 0 }
def zXfer : Xfer :=
  { toRemote := false
    y := false
    loc := 0
    rem := 0
    len := 0 }
def zDOut : DOut :=
  { addr := 0
    len := 0
    tag := 0
    late := false }
def zCalJob : CalJob :=
  { job := 0
    mask := 0
    passed := 0
    quiet := 0
    other := 0
    power := 0
    tmo := 0
    held := false }
def zSensor : Sensor :=
  { id := 0
    value := 0
    flags := 0
    at_ := 0 }

def dsp (q o : Nat) : State :=
  (((st0.wr (R.VDC_GRP_STAT_STATE 0) gRunning).putBit (R.VDC_GRP_STAT_MASK 0) 0 true).sramPut (Dsp.pBase 0)
    (Arith.leBytes 8 (q * 2 ^ 61 + o * 2 ^ (if q = 1 then 57 else if q = 3 then 58 else 56)))).modCore 0 fun k => { k with halted := false }
def aryPk (typ addr : Nat) (body : List (BitVec 32)) : AryPkt :=
  { addr := addr, head := 0x10000, no := 0, seq := 0, body := body
    crc := BitVec.ofNat 32 (Arith.crc32 (Arith.bytesOfWords ([typ * 2 ^ 24 + 0x10000, 0, 0, 4 * body.length] ++ body.map BitVec.toNat))) }
def stMem : State :=
  { (((st0.wr (R.HIF_ETH_CFG_EN 0) 1).wr R.HIF_STAT_ETH0_UP 1).wr R.ARY_STAT_STATE 2) with cmd.jobs := [{ zJob with typ := 1 }] }
def stMas : State := { stMem.wr R.ARY_STAT_MASTER 1 with ary.roster := [zMember] }
def hit (off : Nat) : Hit := (regAt off).getD ⟨⟨"", 0, [], false, false, []⟩, 0, false⟩

/-! ### The hypotheses of each obligation can be met -/

theorem wit_SynthesiserStarts :
    (∃ (p : Fin 5) (s : State), s.domOn dTIME = true ∧ s.bit R.SYN_CTRL_EN p = false ∧ s.on
        (R.SYN_PLL_STAT_SEARCH_BUSY p) = false ∧ s.synMustWait p = false ∧ s.bandReady p = true)
    ∧ (∃ (p : Fin 5) (s : State), s.domOn dTIME = true ∧ s.bit R.SYN_CTRL_EN p = false ∧ s.on
        (R.SYN_PLL_STAT_SEARCH_BUSY p) = false ∧ s.synMustWait p = false ∧ s.bandReady p = false)
    ∧ (∃ (p : Fin 5) (s : State), s.domOn dTIME = true ∧ s.bit R.SYN_CTRL_EN p = false ∧ s.on
        (R.SYN_PLL_STAT_SEARCH_BUSY p) = false ∧ s.synMustWait p = true)
    ∧ (∃ (p : Fin 5) (s : State), s.domOn dTIME = true ∧ s.bit R.SYN_CTRL_EN p = false ∧ s.on
        (R.SYN_PLL_STAT_SEARCH_BUSY p) = false)
    ∧ (∃ (p : Fin 5) (s : State), s.on (R.SYN_PLL_STAT_SEARCH_BUSY p) = true ∧ s.bit R.SYN_CTRL_EN p = false ∧
        s.syn.firmware.testBit p = false ∧ s.searchEntry p ≠ 3)
    ∧ (∃ (p : Fin 5) (s : State), s.on (R.SYN_PLL_STAT_SEARCH_BUSY p) = true)
    ∧ (∃ (p : Fin 5) (s : State), s.syn.acquiring.testBit p = true ∧ (s.syn.firmware.testBit p && s.syn.fused.testBit
        p) = false)
    ∧ (∃ (p : Fin 5) (s : State), s.syn.acquiring.testBit p = true ∧ s.syn.firmware.testBit p = true ∧
        s.syn.fused.testBit p = true) := by
  refine ⟨⟨1, (((st0.wr (R.SYN_BAND_VALID 1 0) 1).putBit R.SYN_CTRL_EN 1 false).wr R.SYN_STAT_OCXO_RDY 1), ?_⟩,
          ⟨4, ((st0.wr (R.SYN_BAND_VALID 4 0) 0).putBit R.SYN_CTRL_EN 4 false), ?_⟩,
          ⟨0, (((st0.putBit R.SYN_CTRL_EN 0 false).wr R.SYN_CTRL_WAIT_RDY 1).wr R.SYN_STAT_OCXO_RDY 0), ?_⟩,
          ⟨0, ((st0.putBit R.SYN_CTRL_EN 0 false).wr (R.SYN_PLL_STAT_SEARCH_BUSY 0) 0), ?_⟩,
          ⟨0, ((st0.wr (R.SYN_PLL_STAT_SEARCH_BUSY 0) 1).putBit R.SYN_CTRL_EN 0 false), ?_⟩,
          ⟨0, (st0.wr (R.SYN_PLL_STAT_SEARCH_BUSY 0) 1), ?_⟩,
          ⟨0, (st0.modSyn fun y => { y with acquiring := 1 }), ?_⟩,
          ⟨0, (st0.modSyn fun y => { y with acquiring := 1, firmware := 1, fused := 1 }), ?_⟩⟩
  all_goals decide +kernel

theorem wit_SynthesiserControl :
    (∃ (p : Fin 5) (s : State), s.domOn dTIME = true ∧ s.bit R.SYN_CTRL_EN p = true)
    ∧ (∃ (p : Fin 5) (s : State), s.domOn dTIME = true ∧ s.bit R.SYN_CTRL_EN p = false)
    ∧ (∃ (m : BitVec 2) (s : State), s.domOn dTIME = true ∧ m ≠ 3 ∧ s.rd R.SYN_CTRL_EN % 8 = 0)
    ∧ (∃ (m : BitVec 2) (s : State), s.domOn dTIME = true ∧ (m = 3 ∨ m.toNat ≠ s.rd R.SYN_CTRL_REF_MODE ∧ s.rd
        R.SYN_CTRL_EN % 8 ≠ 0))
    ∧ (∃ (s : State), s.domOn dTIME = true ∧ s.anyPortShows = false)
    ∧ (∃ (s : State), s.domOn dTIME = true ∧ s.anyPortShows = true)
    ∧ (∃ (k : Fin 2) (s : State), Bank.wf s.regs = true ∧ s.domOn dTIME = true ∧ s.csyServes k = false ∧ s.csyCheck k =
        true)
    ∧ (∃ (k : Fin 2) (s : State), s.domOn dTIME = true ∧ s.csyServes k = false ∧ s.csyCheck k = false)
    ∧ (∃ (k : Fin 2) (s : State), s.domOn dTIME = true ∧ s.csyServes k = true)
    ∧ (∃ (k : Fin 2) (s : State), s.pstate (2 * k.val) = stIdle ∧ s.pstate (2 * k.val + 1) = stIdle ∧ s.bit
        R.SYN_CTRL_EN (3 + k.val) = true)
    ∧ (∃ (p : Fin 5) (e : Measured) (s : State), p ≠ 0 ∧ s.mayLock p e = true)
    ∧ (∃ (e : Measured) (s : State), s.mayLock 0 e = true ∧ s.syn.jump = none)
    ∧ (∃ (p : Fin 5) (e : Measured) (s : State), s.bit R.SYN_STAT_LOCK p = true ∧ 2 * s.rd (R.SYN_PLL_CFG_LOCK_WIN p) <
        e.natAbs)
    ∧ (∃ (s : State), s.domOn dTIME = true ∧ s.syn.refDown = false ∧ s.on R.SYN_CTRL_HOLD_EN = true)
    ∧ (∃ (s : State), s.domOn dTIME = true ∧ s.syn.refDown = false ∧ s.on R.SYN_CTRL_HOLD_EN = false)
    ∧ (∃ (j : Measured) (s : State), s.domOn dTIME = true ∧ s.syn.refDown = true ∧ (Arith.satSigned 32 (j +
        s.syn.held)).natAbs ≤ s.rd (R.SYN_PLL_CFG_LOCK_WIN 0))
    ∧ (∃ (s : State), s.on R.SYN_STAT_SLEWING = true)
    ∧ (∃ (p : Fin 5) (s : State), s.domOn dTIME = true ∧ s.syn.waiting = 2 ^ p.val ∧ s.bit R.SYN_CTRL_EN p = true ∧
        s.bandReady p = true)
    ∧ (∃ (s : State), s.domOn dTIME = true) := by
  refine ⟨⟨0, (st0.putBit R.SYN_CTRL_EN 0 true), ?_⟩,
          ⟨0, (st0.putBit R.SYN_CTRL_EN 0 false), ?_⟩,
          ⟨2, st0, ?_⟩,
          ⟨3, st0, ?_⟩,
          ⟨st0, ?_⟩,
          ⟨(st0.wr (R.PPE_STAT_STATE 0) stRun), ?_⟩,
          ⟨0, (st0.wr (R.SYN_CSY_SLOT_EN 0 0) 0), ?_⟩,
          ⟨0, ((st0.wr (R.SYN_CSY_SLOT_EN 0 0) 1).wr (R.SYN_CSY_SLOT_FTW 0 0) 0), ?_⟩,
          ⟨0, (st0.wr (R.PPE_STAT_STATE 0) stRun), ?_⟩,
          ⟨0, (st0.putBit R.SYN_CTRL_EN (3 + 0) true), ?_⟩,
          ⟨1, 0, ((st0.modSyn fun y => { y with acquiring := 2 }).putBit R.SYN_CTRL_EN 1 true), ?_⟩,
          ⟨0, ((st0.modSyn fun y => { y with acquiring := 1 }).putBit R.SYN_CTRL_EN 0 true), ?_⟩,
          ⟨0, 1000000, (st0.putBit R.SYN_STAT_LOCK 0 true), ?_⟩,
          ⟨(st0.wr (R.SYN_CTRL_HOLD_EN) 1), ?_⟩,
          ⟨(st0.wr (R.SYN_CTRL_HOLD_EN) 0), ?_⟩,
          ⟨0, (st0.modSyn fun y => { y with refDown := true }), ?_⟩,
          ⟨(st0.wr (R.SYN_STAT_SLEWING) 1), ?_⟩,
          ⟨0, (((st0.modSyn fun y => { y with waiting := 1 }).putBit R.SYN_CTRL_EN 0 true).wr (R.SYN_BAND_VALID 0 0)
             1), ?_⟩,
          ⟨st0, ?_⟩⟩
  all_goals decide +kernel

theorem wit_TimeBase :
    (∃ (s : State), s.domOn dTIME = true ∧ s.on R.TBU_STAT_ACT_ARMED = false ∧ s.tbu.tickDelta = none ∧
        s.stepRejected (actionDelta true (s.rd R.TBU_EPOCH_SET_VALUE) s.now) = false ∧ ¬(-(2 ^ 23 : Int) ≤ actionDelta
        true (s.rd R.TBU_EPOCH_SET_VALUE) s.now ∧ actionDelta true (s.rd R.TBU_EPOCH_SET_VALUE) s.now < 0))
    ∧ (∃ (s : State), s.domOn dTIME = true ∧ s.on R.TBU_STAT_ACT_ARMED = false)
    ∧ (∃ (s : State), s.domOn dTIME = true ∧ s.on R.TBU_STAT_ACT_ARMED = false ∧ s.tbu.tickDelta = none ∧
        s.stepRejected (actionDelta false (s.rd R.TBU_STEP_DELTA) s.now) = false ∧ -(2 ^ 23 : Int) ≤ actionDelta false
        (s.rd R.TBU_STEP_DELTA) s.now ∧ actionDelta false (s.rd R.TBU_STEP_DELTA) s.now < 0)
    ∧ (∃ (s : State), s.domOn dTIME = true ∧ s.on R.TBU_STAT_ACT_ARMED = false ∧ s.tbu.tickDelta = none ∧
        s.stepRejected (actionDelta false (s.rd R.TBU_STEP_DELTA) s.now) = true)
    ∧ (∃ (s : State), s.domOn dTIME = true ∧ s.on R.TBU_STAT_ACT_ARMED = true)
    ∧ (∃ (s : State), s.domOn dTIME = true)
    ∧ (∃ (x : Word) (s : State), s.domOn dTIME = true ∧ s.on R.SYN_STAT_SLEWING = false ∧ s.on R.SYN_STAT_HOLDOVER =
        false ∧ ((s.rdS R.SYN_SLEW_REM_REM + x.toInt).natAbs : Int) ≤ s.rd R.SYN_CTRL_SLEW_LIMIT * 3200000)
    ∧ (∃ (s : State), s.domOn dTIME = true ∧ s.on R.SYN_STAT_SLEWING = false ∧ s.on R.SYN_STAT_HOLDOVER = true)
    ∧ (∃ (s : State), s.domOn dTIME = true ∧ s.tbu.armed = none)
    ∧ (∃ (s : State), s.domOn dTIME = true)
    ∧ (∃ (s : State), s.on R.TBU_STAT_PPS_OK = true)
    ∧ (∃ (s : State), s.ppsOutDue = true)
    ∧ (∃ (s : State), s.ppsOutDue = false) := by
  refine ⟨⟨(st0.wr (R.TBU_STAT_ACT_ARMED) 0), ?_⟩,
          ⟨(st0.wr (R.TBU_STAT_ACT_ARMED) 0), ?_⟩,
          ⟨((st0.wr (R.TBU_STAT_ACT_ARMED) 0).wr R.TBU_STEP_DELTA (2 ^ 64 - 5)), ?_⟩,
          ⟨(((st0.wr (R.TBU_STAT_ACT_ARMED) 0).wr R.TBU_STEP_DELTA (2 ^ 63)).wr (R.PPE_STAT_STATE 0) stRun), ?_⟩,
          ⟨(st0.wr (R.TBU_STAT_ACT_ARMED) 1), ?_⟩,
          ⟨st0, ?_⟩,
          ⟨0, ((st0.wr (R.SYN_STAT_SLEWING) 0).wr (R.SYN_STAT_HOLDOVER) 0), ?_⟩,
          ⟨((st0.wr (R.SYN_STAT_SLEWING) 0).wr (R.SYN_STAT_HOLDOVER) 1), ?_⟩,
          ⟨st0, ?_⟩,
          ⟨st0, ?_⟩,
          ⟨(st0.wr (R.TBU_STAT_PPS_OK) 1), ?_⟩,
⟨(({ (((st0.wr R.TBU_CTRL_PPS_OUT_EN 1).wr R.TBU_PPS_OUT_ADV 0).wr R.TBU_CTRL_PPS_OUT_QUAL 0) with tbu.running := true, tbu.count := 0, tbu.ppsOut := none }
             : State)), ?_⟩,
          ⟨st0, ?_⟩⟩
  all_goals decide +kernel

theorem wit_TdcUnits :
    (∃ (u : Fin 8) (s : State), s.domOn dTIME = true ∧ s.on (R.TDC_CFG_EN u) = false ∧ s.rd (R.TDC_CFG_REF u) ≠ u.val
        ∧ s.rd (R.TDC_CFG_REF u) < 15)
    ∧ (∃ (u : Fin 8) (s : State), s.domOn dTIME = true ∧ s.on (R.TDC_CFG_EN u) = false ∧ (s.rd (R.TDC_CFG_REF u) =
        u.val ∨ s.rd (R.TDC_CFG_REF u) = 15 ∧ s.on (R.TDC_CFG_CLASS u) = true))
    ∧ (∃ (s : State), s.domOn dTIME = true)
    ∧ (∃ (u : Fin 8) (e : Edge) (s : State), s.tdc[u].run = true ∧ e.long = true ∧ s.tdc[u].last = none ∧ e.rising ≠
        s.tdc[u].falling ∧ s.tdc[u].sync = false ∧ s.tdc[u].ref = 15 ∧ s.tdc[u].fifo.length < 64)
    ∧ (∃ (u : Fin 8) (e : Edge) (l : Nat × Nat × Nat) (s : State), s.tdc[u].run = true ∧ e.long = true ∧ s.tdc[u].last
        = some l ∧ tdcSpan l (s.tick e.frac.toNat) < (s.tdc[u].holdoff : Int) * 256)
    ∧ (∃ (u : Fin 8) (b : Nat × Nat × Nat) (s : State), s.tdc[u].run = true ∧ s.tdc[u].sync = true ∧ s.tdc[u].start =
        some b ∧ s.tdc[u].fifo.length < 64)
    ∧ (∃ (u : Fin 8) (s : State), s.tdc[u].early.isSome = true)
    ∧ (∃ (u : Fin 8) (s : State), s.domOn dTIME = true ∧ s.tdc[u].run = true ∧ s.tdc[u].ref = 14 ∧ s.tdc[u].sync =
        false)
    ∧ (∃ (s : State), s.domOn dTIME = true)
    ∧ (∃ (s : State), s.domOn dTIME = true) := by
  refine ⟨⟨0, ((st0.wr (R.TDC_CFG_EN 0) 0).wr (R.TDC_CFG_REF 0) 1), ?_⟩,
          ⟨0, ((st0.wr (R.TDC_CFG_EN 0) 0).wr (R.TDC_CFG_REF 0) 0), ?_⟩,
          ⟨st0, ?_⟩,
          ⟨0, { zEdge with rising := true, long := true }, (st0.modTdc 0 fun y => { y with run := true, ref := 15 }),
             ?_⟩,
          ⟨0, { zEdge with long := true }, (0, 0, 0), (st0.modTdc 0 fun y =>
             { y with run := true, holdoff := 1, last := some (0, 0, 0) }), ?_⟩,
          ⟨0, (0, 0, 0), (st0.modTdc 0 fun y => { y with run := true, sync := true, start := some (0, 0, 0) }), ?_⟩,
          ⟨0, (st0.modTdc 0 fun y => { y with early := some (0, 0, 0) }), ?_⟩,
          ⟨0, (st0.modTdc 0 fun y => { y with run := true, ref := 14 }), ?_⟩,
          ⟨st0, ?_⟩,
          ⟨st0, ?_⟩⟩
  all_goals decide +kernel

theorem wit_LaunchSequence :
    (∃ (n : Fin 4) (s : State), s.fetching n = true ∧ s.ports[n].switch = none ∧ tooSoon (slotLast s.ports[n]
        (s.sSlot n s.ports[n].step)) (s.tbu.raw + 256) (s.rtt n (s.route n)) = true)
    ∧ (∃ (n : Fin 4) (s : State), s.pstate n = (if s.ports[n].watchPat then stWatch else stRun) ∧ s.ports[n].switch =
        none ∧ tooSoon (slotLast s.ports[n] (s.sSlot n s.ports[n].step)) (s.tbu.raw + 256) (s.rtt n (s.route n)) =
        false)
    ∧ (∃ (n : Fin 4) (f : Fetch) (r : List Fetch) (s : State), s.ports[n].fetched = f :: r ∧ f.stage = 0)
    ∧ (∃ (n : Fin 4) (f : Fetch) (r : List Fetch) (s : State), s.ports[n].fetched = f :: r ∧ f.stage = 1 ∧
        s.syn.chirp[n] = none)
    ∧ (∃ (n : Fin 4) (f : Fetch) (r : List Fetch) (s : State), s.ports[n].fetched = f :: r ∧ f.stage = 2)
    ∧ (∃ (n : Fin 4) (q : Chirp) (r : List Chirp) (s : State), s.ports[n].chirps = q :: r ∧ q.begins ≤ s.ddsNow + 1)
    ∧ (∃ (n : Fin 4) (x : Trace) (r : List Trace) (s : State), s.ports[n].ramans = x :: r)
    ∧ (∃ (n : Fin 4) (a : Nat) (s : State), s.ports[n].pulse = some a) := by
  refine ⟨⟨0, ((st0.wr (R.PPE_STAT_STATE 0) stRun).modPort 0 fun p =>
             { p with slotRaw := p.slotRaw.set 0 (some 1000) }), ?_⟩,
          ⟨0, (st0.wr (R.PPE_STAT_STATE 0) stRun), ?_⟩,
          ⟨0, zFetch, [], (st0.modPort 0 fun p => { p with fetched := [zFetch] }), ?_⟩,
          ⟨0, { zFetch with stage := 1 }, [], (st0.modPort 0 fun p =>
             { p with fetched := [{ zFetch with stage := 1 }] }), ?_⟩,
          ⟨0, { zFetch with stage := 2 }, [], (st0.modPort 0 fun p =>
             { p with fetched := [{ zFetch with stage := 2 }] }), ?_⟩,
          ⟨0, zChirp, [], (st0.modPort 0 fun p => { p with chirps := [zChirp] }), ?_⟩,
          ⟨0, zTrace, [], (st0.modPort 0 fun p => { p with ramans := [zTrace] }), ?_⟩,
          ⟨0, 0, (st0.modPort 0 fun p => { p with pulse := some 0 }), ?_⟩⟩
  all_goals decide +kernel

theorem wit_LaserDriver :
    (∃ (n : Fin 4) (s : State), s.pulsing n 1 = true ∧ s.on (R.LDR_CTRL_OPEN_EN n) = true ∧ s.on
        R.RMD_ILK_CTRL_INTERLOCK_ALL = false ∧ s.pstate n = stRun ∧ s.ports[n].stopping = false ∧ s.on
        (R.LDR_FAULT_GATE_OPEN n) = false)
    ∧ (∃ (n : Fin 4) (s : State), s.pulsing n 1 = true ∧ s.on (R.LDR_CTRL_OPEN_EN n) = false)
    ∧ (∃ (n : Fin 4) (s : State), s.pulsing n 20 = true ∧ 25 ≤ s.sWidth n (s.rd (R.PPE_STAT_STEP n)) ∧ s.on
        (R.LDR_CTRL_SHORT_EN n) = true ∧ s.on R.RMD_ILK_CTRL_INTERLOCK_ALL = false ∧ s.pstate n = stRun ∧
        s.ports[n].stopping = false ∧ s.on (R.LDR_FAULT_GATE_SHORT n) = false)
    ∧ (∃ (n : Fin 4) (s : State), s.pulsing n 20 = true ∧ 25 ≤ s.sWidth n (s.rd (R.PPE_STAT_STEP n)) ∧ s.on
        (R.LDR_CTRL_SHORT_EN n) = false)
    ∧ (∃ (s : State), s.domOn dCORE = true)
    ∧ (∃ (n : Fin 4) (s : State), s.ports[n].biasWait ≠ 0 ∧ (s.pstate n = stIdle ∨ s.pstate n = stHalted))
    ∧ (∃ (n : Fin 4) (v : Nat) (s : State), s.ports[n].biasTo = some v)
    ∧ (∃ (n : Fin 4) (x : DWord) (xs : List Codes) (c : Course) (s : State), s.on (R.LDR_NE_CFG_EN n) = true ∧ s.rd
        (R.LDR_NE_CFG_NE_START n) ≤ s.rd (R.LDR_NE_CFG_NE_END n) ∧ (s.ports[n].near.find? fun d => d.stamp == x.toNat)
        = some c ∧ s.rd (R.LDR_NE_THRESH_POWER n) ≤ s.nePower n c xs (s.rd (R.LDR_NE_CFG_NE_START n)) (s.rd
        (R.LDR_NE_CFG_NE_END n)))
    ∧ (∃ (n : Fin 4) (x : DWord) (xs : List Codes) (c : Course) (s : State), s.on (R.LDR_NE_CFG_EN n) = true ∧ s.rd
        (R.LDR_NE_CFG_NE_START n) ≤ s.rd (R.LDR_NE_CFG_NE_END n) ∧ (s.ports[n].near.find? fun d => d.stamp == x.toNat)
        = some c ∧ s.nePower n c xs (s.rd (R.LDR_NE_CFG_NE_START n)) (s.rd (R.LDR_NE_CFG_NE_END n)) < s.rd
        (R.LDR_NE_THRESH_POWER n))
    ∧ (∃ (n : Fin 4) (s : State), s.pstate n = stDraining ∧ s.ports[n].fetched = [])
    ∧ (∃ (n : Fin 4) (s : State), s.sys.mode = 3 ∧ s.pstate n = stRun ∧ s.watchQuiet n = true ∧ s.ports[n].switch ≠
        some true)
    ∧ (∃ (n : Fin 4) (s : State), s.bit R.EVE_WAKE_REQ n = true ∧ s.pstate n = stWatch ∧ s.ports[n].switch ≠ some false) := by
  refine ⟨⟨0, (((((st0.wr (R.LDR_CTRL_OPEN_EN 0) 1).wr (R.RMD_ILK_CTRL_INTERLOCK_ALL) 0).wr (R.PPE_STAT_STATE 0)
             stRun).wr (R.LDR_FAULT_GATE_OPEN 0) 0).modPort 0 fun p => { p with pulse := some 1 }), ?_⟩,
          ⟨0, ((st0.wr (R.LDR_CTRL_OPEN_EN 0) 0).modPort 0 fun p => { p with pulse := some 1 }), ?_⟩,
          ⟨0, ((((((st0.wr (R.LDR_CTRL_SHORT_EN 0) 1).wr (R.RMD_ILK_CTRL_INTERLOCK_ALL) 0).wr (R.PPE_STAT_STATE 0)
             stRun).wr (R.LDR_FAULT_GATE_SHORT 0) 0).modPort 0 fun p => { p with pulse := some 20 }).wr
             (R.PPE_STEP_WIDTH 0 0) 25), ?_⟩,
          ⟨0, (((st0.wr (R.LDR_CTRL_SHORT_EN 0) 0).modPort 0 fun p => { p with pulse := some 20 }).wr
             (R.PPE_STEP_WIDTH 0 0) 25), ?_⟩,
          ⟨st0, ?_⟩,
          ⟨0, (st0.modPort 0 fun p => { p with biasWait := 1 }), ?_⟩,
          ⟨0, 5, (st0.modPort 0 fun p => { p with biasTo := some 5 }), ?_⟩,
          ⟨0, 0, [], zCourse, ((st0.wr (R.LDR_NE_CFG_EN 0) 1).modPort 0 fun p => { p with near := [zCourse] }), ?_⟩,
          ⟨0, 0, [], zCourse, (((st0.wr (R.LDR_NE_CFG_EN 0) 1).modPort 0 fun p => { p with near := [zCourse] }).wr
             (R.LDR_NE_THRESH_POWER 0) 1), ?_⟩,
          ⟨0, (st0.wr (R.PPE_STAT_STATE 0) stDraining), ?_⟩,
          ⟨0, { (st0.wr (R.PPE_STAT_STATE 0) stRun) with sys.mode := 3 }, ?_⟩,
          ⟨0, ((st0.putBit R.EVE_WAKE_REQ 0 true).wr (R.PPE_STAT_STATE 0) stWatch), ?_⟩⟩
  all_goals decide +kernel

theorem wit_RouteScan :
    (∃ (s : State), s.on R.RMD_SCAN_CTRL_EN = true ∧ s.rmd.scanning = false)
    ∧ (∃ (s : State), s.on R.RMD_SCAN_CTRL_EN = true ∧ s.rmd.scanning = true ∧ s.rmd.row < 7 ∧ s.rmd.removed.testBit
        (s.rmd.row + 1) = false ∧ s.rmd.shortRows = 0 ∧ s.rmd.shortCols = 0)
    ∧ (∃ (e : Fin 64) (mA : Byte) (s : State), s.drivenNow e = true ∧ 4000 ≤ s.drivePhase e ∧ s.rmd.sampled.testBit e =
        false ∧ s.shorted e = false ∧ s.rd R.RMD_DIAG_OPEN_TH ≤ mA.toNat)
    ∧ (∃ (e : Fin 64) (mA : Byte) (s : State), s.drivenNow e = true ∧ 4000 ≤ s.drivePhase e ∧ s.rmd.sampled.testBit e =
        false ∧ s.shorted e = false ∧ mA.toNat < s.rd R.RMD_DIAG_OPEN_TH)
    ∧ (∃ (mA : Byte) (s : State), s.rmd.scanning = true ∧ s.rmd.removed.testBit s.rmd.row = false ∧ s.rd
        R.RMD_DIAG_ILIM < mA.toNat)
    ∧ (∃ (s : State), s.rmd.scanning = true ∧ s.rmd.driven = 0)
    ∧ (∃ (s : State), s.rmd.scanning = true ∧ s.rmd.row = 7 ∧ s.rmd.driven = 0 ∧ s.rmd.removed = 0 ∧ s.rmd.clearing =
        false ∧ (∀ n : Fin 4, s.ports[n].routeStage ≠ 6 ∧ s.ports[n].routeStage ≠ 10 ∧ s.ports[n].startStage ≠ 7))
    ∧ (∃ (s : State), s.domOn dCORE = true ∧ s.on R.RMD_SCAN_CTRL_EN = false)
    ∧ (∃ (s : State), s.domOn dCORE = true ∧ s.on R.RMD_SCAN_CTRL_EN = true ∧ s.rmd.clearAsked = false ∧ s.rmd.clearing
        = false ∧ (∀ n : Fin 4, s.pstate n ≠ stStarting))
    ∧ (∃ (s : State), s.domOn dCORE = true) := by
  refine ⟨⟨(st0.wr (R.RMD_SCAN_CTRL_EN) 1), ?_⟩,
          ⟨((st0.wr (R.RMD_SCAN_CTRL_EN) 1).modRmd fun r => { r with scanning := true }), ?_⟩,
          ⟨0, 0, (((st0.modRmd fun r => { r with scanning := true, driven := 1 }).wr (R.RMD_ELEM_ON_TIME 0) 16).wr
             R.RMD_DIAG_OPEN_TH 0), ?_⟩,
          ⟨0, 0, (((st0.modRmd fun r => { r with scanning := true, driven := 1 }).wr (R.RMD_ELEM_ON_TIME 0) 16).wr
             R.RMD_DIAG_OPEN_TH 1), ?_⟩,
          ⟨255, (st0.modRmd fun r => { r with scanning := true }), ?_⟩,
          ⟨(st0.modRmd fun r => { r with scanning := true }), ?_⟩,
          ⟨(st0.modRmd fun r => { r with scanning := true, row := 7 }), ?_⟩,
          ⟨(st0.wr (R.RMD_SCAN_CTRL_EN) 0), ?_⟩,
          ⟨(st0.wr (R.RMD_SCAN_CTRL_EN) 1), ?_⟩,
          ⟨st0, ?_⟩⟩
  all_goals decide +kernel

theorem wit_RouteChangesAndInterlock :
    (∃ (n : Fin 4) (i : Fin 16) (s : State), s.domOn (dPORT n) = true ∧ s.routeRefusal n i = OK ∧ s.pstate n = stIdle)
    ∧ (∃ (n : Fin 4) (i : Fin 16) (s : State), s.domOn (dPORT n) = true ∧ s.routeRefusal n i = OK ∧ s.pstate n ≠ stIdle)
    ∧ (∃ (n : Fin 4) (i : Fin 16) (s : State), s.domOn (dPORT n) = true ∧ s.routeRefusal n i ≠ OK)
    ∧ (∃ (n : Fin 4) (s : State), s.ports[n].routeStage = 1 ∧ s.ports[n].fetched = [])
    ∧ (∃ (n : Fin 4) (s : State), s.pstate n ≠ stStarting ∧ s.ports[n].routeStage = 3)
    ∧ (∃ (n : Fin 4) (s : State), s.pstate n = stStarting ∧ s.ports[n].startStage = 3)
    ∧ (∃ (s : State), s.domOn dCORE = true ∧ s.sys.phase = .up ∧ s.rd R.RMD_ILK_STAT_LOOP = 0 ∧ s.on
        R.RMD_ILK_CTRL_SW_STOP = false)
    ∧ (∃ (s : State), s.domOn dCORE = true ∧ s.rd R.RMD_ILK_STAT_LOOP ≠ 2)
    ∧ (∃ (s : State), s.domOn dCORE = true ∧ s.rd R.RMD_ILK_STAT_LOOP = 2)
    ∧ (∃ (s : State), s.rd R.RMD_ILK_STAT_LOOP = 1)
    ∧ (∃ (s : State), s.domOn dCORE = true ∧ s.rd R.RMD_ILK_STAT_LOOP ≠ 2)
    ∧ (∃ (s : State), s.domOn dCORE = true ∧ s.sys.phase = .up ∧ s.rd R.RMD_ILK_STAT_LOOP = 0 ∧ s.on
        R.RMD_ILK_STAT_ILK_IN = false)
    ∧ (∃ (s : State), s.domOn dCORE = true ∧ s.on R.RMD_SCAN_CTRL_EN = false ∧ s.rmd.clearWait = []) := by
  refine ⟨⟨0, 0, ((st0.wr (R.PPE_STAT_STATE 0) stIdle).wr (R.ROUTE_VALID 0 0) 1), ?_⟩,
          ⟨0, 0, ((st0.wr (R.ROUTE_VALID 0 0) 1).wr (R.PPE_STAT_STATE 0) stRun), ?_⟩,
          ⟨0, 0, st0, ?_⟩,
          ⟨0, (st0.modPort 0 fun p => { p with routeStage := 1 }), ?_⟩,
          ⟨0, (st0.modPort 0 fun p => { p with routeStage := 3 }), ?_⟩,
          ⟨0, ((st0.wr (R.PPE_STAT_STATE 0) stStarting).modPort 0 fun p => { p with startStage := 3 }), ?_⟩,
          ⟨((st0.wr R.RMD_ILK_STAT_LOOP (0)).wr (R.RMD_ILK_CTRL_SW_STOP) 0), ?_⟩,
          ⟨st0, ?_⟩,
          ⟨(st0.wr R.RMD_ILK_STAT_LOOP (2)), ?_⟩,
          ⟨(st0.wr R.RMD_ILK_STAT_LOOP (1)), ?_⟩,
          ⟨st0, ?_⟩,
          ⟨((st0.wr R.RMD_ILK_STAT_LOOP (0)).wr (R.RMD_ILK_STAT_ILK_IN) 0), ?_⟩,
          ⟨(st0.wr (R.RMD_SCAN_CTRL_EN) 0), ?_⟩⟩
  all_goals decide +kernel

theorem wit_DigitiserLanes :
    (∃ (n : Fin 4) (code : BitVec 12) (s : State), s.portOn n = true ∧ (code.toInt = -2048 ∨ code.toInt = 2047))
    ∧ (∃ (n : Fin 4) (code : BitVec 12) (s : State), s.portOn n = true ∧ -2048 < code.toInt ∧ code.toInt < 2047)
    ∧ (∃ (n : Fin 4) (k : Fin 4) (s : State), s.portOn n = true ∧ (s.eraNow n).hovl.testBit k = false)
    ∧ (∃ (n : Fin 4) (s : State), s.pstate n = stWatch ∧ s.runOver n = true)
    ∧ (∃ (n : Fin 4) (s : State), s.portOn n = true)
    ∧ (∃ (n : Fin 4) (xs : List Codes) (l : List (Nat × Int)) (s : State), s.portOn n = true ∧ s.laneSpread n xs (2 ^
        (s.rd R.CDG_CTRL_QUIET_WIN + 6)) = l ∧ (∀ e ∈ l, e.1 ≤ s.rd R.CDG_CTRL_QUIET_TH) ∧ s.ports[n].pulse = none ∧
        s.launchOver n = true)
    ∧ (∃ (n : Fin 4) (s : State), s.mgt.calRun = some n.val ∧ s.mgt.calIn = false ∧ s.portOn n = true ∧ s.cdgStepFits n
        = true)
    ∧ (∃ (n : Fin 4) (xs : List Codes) (s : State), s.mgt.calRun = some n.val ∧ s.mgt.calIn = true ∧ (∃ r ∈
        s.laneSpread n xs 256, s.rd R.CDG_CTRL_QUIET_TH < r.1))
    ∧ (∃ (n : Fin 4) (s : State), s.mgt.calRun = some n.val ∧ s.mgt.calIn = true ∧ s.mgt.calStep < 15)
    ∧ (∃ (n : Fin 4) (s : State), s.mgt.calRun = some n.val ∧ s.mgt.calIn = true ∧ s.mgt.calStep = 15)
    ∧ (∃ (n : Fin 4) (kind : Fin 3) (s : State), s.mgt.calRun = some n.val ∧ s.mgt.calIn = true ∧ kind ≠ 0)
    ∧ (∃ (n : Fin 4) (k : Fin 4) (s : State), s.rd (R.CDG_LANE_CFG_TEST n k) = 5) := by
  refine ⟨⟨0, 0x7FF, st0, ?_⟩,
          ⟨0, 0, st0, ?_⟩,
          ⟨0, 0, st0, ?_⟩,
          ⟨0, (st0.wr (R.PPE_STAT_STATE 0) stWatch), ?_⟩,
          ⟨0, st0, ?_⟩,
          ⟨0, [], [(0, 0), (0, 0), (0, 0), (0, 0)], st0, ?_⟩,
          ⟨0, ((({ st0 with mgt.calRun := some 0, mgt.calIn := false, mgt.calStep := 0 } : State)).putBit
             R.SYN_STAT_LOCK 0 true), ?_⟩,
          ⟨0, (List.replicate 8 zCodes ++ [{ zCodes with xi := 16 }]),
             (((({ st0 with mgt.calRun := some 0, mgt.calIn := true, mgt.calStep := 0, tbu.raw := 100000 } :
             State)).wr R.CDG_CTRL_QUIET_TH 0).modPort 0 fun p =>
             { p with eras := [{ eraOff with on := true, full := some 0 }] }), ?_⟩,
          ⟨0, (({ st0 with mgt.calRun := some 0, mgt.calIn := true, mgt.calStep := 14 } : State)), ?_⟩,
          ⟨0, (({ st0 with mgt.calRun := some 0, mgt.calIn := true, mgt.calStep := 15 } : State)), ?_⟩,
          ⟨0, 1, (({ st0 with mgt.calRun := some 0, mgt.calIn := true, mgt.calStep := 0 } : State)), ?_⟩,
          ⟨0, 0, (st0.wr (R.CDG_LANE_CFG_TEST 0 0) (5)), ?_⟩⟩
  all_goals decide +kernel

theorem wit_CoursePipeline :
    (∃ (n : Fin 4) (c : Course) (s : State), s.nextVisit n = some c ∧ recCount c ≤ 149796)
    ∧ (∃ (n : Fin 4) (c : Course) (r : List Course) (q : Nat) (s : State), s.ports[n].courses = c :: r ∧ c.seq = some q
        ∧ s.ports[n].episode = none)
    ∧ (∃ (n : Fin 4) (c : Course) (r : List Course) (q : Nat) (e : Episode) (s : State), s.ports[n].courses = c :: r ∧
        c.seq = some q ∧ s.ports[n].episode = some e ∧ e.last < c.stamp)
    ∧ (∃ (n : Fin 4) (m : Nat) (s : State), s.pstate n = stRun ∧ s.ports[n].causes = m ∧ m ≠ 0 ∧ s.ports[n].checkFail =
        [])
    ∧ (∃ (n : Fin 4) (c : Course) (r : List CplItem) (s : State), s.ports[n].outq = .course c :: r)
    ∧ (∃ (n : Fin 4) (s : State), s.pstate n = stRun) := by
  refine ⟨⟨0, zCourse, (st0.modPort 0 fun p => { p with courses := [zCourse] }), ?_⟩,
          ⟨0, { zCourse with seq := some 0 }, [], 0, (st0.modPort 0 fun p =>
             { p with courses := [{ zCourse with seq := some 0 }] }), ?_⟩,
          ⟨0, { zCourse with seq := some 0, stamp := 1 }, [], 0, zEpisode, (st0.modPort 0 fun p =>
             { p with courses := [{ zCourse with seq := some 0, stamp := 1 }], episode := some zEpisode }), ?_⟩,
          ⟨0, 1, ((st0.wr (R.PPE_STAT_STATE 0) stRun).modPort 0 fun p => { p with causes := 1 }), ?_⟩,
          ⟨0, zCourse, [], (st0.modPort 0 fun p => { p with outq := [.course zCourse] }), ?_⟩,
          ⟨0, (st0.wr (R.PPE_STAT_STATE 0) stRun), ?_⟩⟩
  all_goals decide +kernel

theorem wit_ZoneTable :
    (∃ (s : State), s.domOn dCORE = true)
    ∧ (∃ (n : Fin 4) (v : Nat) (s : State), s.zon.busy = 3 ∧ s.zon.ng = some (n.val, v) ∧ (∀ z ∈ zenabled s.zon.active
        ++ zenabled s.zonShadow, z.port = n.val → zbad2 v z = false))
    ∧ (∃ (n : Fin 4) (v : Nat) (s : State), s.zon.busy = 3 ∧ s.zon.ng = some (n.val, v) ∧ (∃ z ∈ zenabled s.zon.active
        ++ zenabled s.zonShadow, z.port = n.val ∧ zbad2 v z = true))
    ∧ (∃ (s : State), s.domOn dCORE = true)
    ∧ (∃ (s : State), s.zon.busy = 1 ∧ (s.setBusy 0).zcheck (zenabled s.zonShadow) = none)
    ∧ (∃ (c : CheckFail) (s : State), s.zon.busy = 1 ∧ (s.setBusy 0).zcheck (zenabled s.zonShadow) = some c)
    ∧ (∃ (s : State), s.domOn dCORE = true)
    ∧ (∃ (s : State), s.zon.busy = 2 ∧ Bank.wf s.zon.active = true)
    ∧ (∃ (n : Fin 4) (c : Course) (gen : Nat) (ng : Nat) (z : List ZEntry) (vals : List Nat) (r : List LinkItem) (s :
        State), s.ports[n].link = .course c gen ng z vals :: r) := by
  refine ⟨⟨st0, ?_⟩,
          ⟨0, 0, (({ st0 with zon.busy := 3, zon.ng := some (0, 0) } : State)), ?_⟩,
          ⟨0, 16777215,
             (({ (((((st0.wr (R.ZON_ENTRY_EN 0) 1).wr (R.ZON_ENTRY_START 0) (2 ^ 32 - 1)).wr (R.ZON_ENTRY_SCALE 0) (2 ^ 32 - 1)).wr (R.ZON_ENTRY_COUNT 0) 262143).wr (R.ZON_ENTRY_INTERVAL 0) 10000) with zon.busy := 3, zon.ng := some (0, 16777215) }
             : State)), ?_⟩,
          ⟨st0, ?_⟩,
          ⟨(({ st0 with zon.busy := 1 } : State)), ?_⟩,
          ⟨(1, 0, E_ZONE_ENTRY), (({ (st0.wr (R.ZON_ENTRY_EN 0) 1) with zon.busy := 1 } : State)), ?_⟩,
          ⟨st0, ?_⟩,
          ⟨(({ st0 with zon.busy := 2 } : State)), ?_⟩,
          ⟨0, zCourse, 0, 0, [], [], [], (st0.modPort 0 fun p => { p with link := [.course zCourse 0 0 [] []] }), ?_⟩⟩
  all_goals decide +kernel

theorem wit_FilterEventsAndAlarms :
    (∃ (n : Fin 4) (c : Course) (gen : Nat) (z : List ZEntry) (pts : List Point) (r : List PointItem) (s : State),
        s.ports[n].points = .course c gen z pts :: r)
    ∧ (∃ (n : Fin 4) (g : Gap) (r : List PointItem) (s : State), s.ports[n].points = .gap g :: r ∧ s.rd
        (R.FDC_CTRL_GAP_FILL n) < g.lost)
    ∧ (∃ (n : Fin 4) (g : Gap) (r : List PointItem) (s : State), s.ports[n].points = .gap g :: r ∧ g.lost ≤ s.rd
        (R.FDC_CTRL_GAP_FILL n) ∧ s.pstate n = stRun ∧ s.on (R.FDC_STAT_BYPASS n) = false)
    ∧ (∃ (s : State), s.domOn dCORE = true)
    ∧ (∃ (n : Fin 4) (f : Frame) (r : List FqItem) (s : State), s.ports[n].fdc.queue =
        { frame := some f, gap := none, wait := 1 } :: r ∧ (s.ports[n].fdc.inDram = false ∨ s.on R.MEM_DRAM_CFG_ECC_EN
        = true))
    ∧ (∃ (n : Fin 4) (bad : Bool) (f : Frame) (r : List FqItem) (s : State), s.ports[n].fdc.queue =
        { frame := some f, gap := none, wait := 1 } :: r ∧ (bad = false ∨ s.ports[n].fdc.inDram = true ∧ s.on
        R.MEM_DRAM_CFG_ECC_EN = false))
    ∧ (∃ (i : Byte) (s : State), s.domOn dCORE = true ∧ s.on (R.EVE_TSET_EN i.toNat) = true)
    ∧ (∃ (i : Byte) (s : State), s.domOn dCORE = true ∧ s.on (R.EVE_TSET_EN i.toNat) = false)
    ∧ (∃ (s : State), s.domOn dCORE = true)
    ∧ (∃ (z : ZEntry) (d : DResult) (s : State), s.tset (R.EVE_TSET_EN z.pidx) ≠ 0 ∧ s.tset (R.EVE_TSET_MIN_PTS z.pidx)
        = 1 ∧ s.tset (R.EVE_TSET_QTY z.pidx) = 0 ∧ z.pidx < 256 ∧ d.fl = 0) := by
  refine ⟨⟨0, zCourse, 0, [], [], [], (st0.modPort 0 fun p => { p with points := [.course zCourse 0 [] []] }), ?_⟩,
          ⟨0, { zGap with lost := 65536 }, [], (st0.modPort 0 fun p =>
             { p with points := [.gap { zGap with lost := 65536 }] }), ?_⟩,
          ⟨0, zGap, [], (((st0.wr (R.PPE_STAT_STATE 0) stRun).wr (R.FDC_STAT_BYPASS 0) 0).modPort 0 fun p =>
             { p with points := [.gap zGap] }), ?_⟩,
          ⟨st0, ?_⟩,
          ⟨0, zFrame, [], (st0.modPort 0 fun p =>
             { p with fdc := { p.fdc with queue := [{ frame := some zFrame, gap := none, wait := 1 }] } }), ?_⟩,
          ⟨0, false, zFrame, [], (st0.modPort 0 fun p =>
             { p with fdc := { p.fdc with queue := [{ frame := some zFrame, gap := none, wait := 1 }] } }), ?_⟩,
          ⟨0, (st0.wr (R.EVE_TSET_EN 0) 1), ?_⟩,
          ⟨0, (st0.wr (R.EVE_TSET_EN 0) 0), ?_⟩,
          ⟨st0, ?_⟩,
          ⟨zZEntry, ⟨0, 0, 0, 0, 0, 0, false⟩,
             (({ st0 with eve.active := [((R.EVE_TSET_MIN_PTS 0).key, 1), ((R.EVE_TSET_QTY 0).key, 0), ((R.EVE_TSET_EN 0).key, 1)] }
             : State)), ?_⟩⟩
  all_goals decide +kernel

theorem wit_RamanReceiver :
    (∃ (n : Fin 4) (x : Trace) (r : List Trace) (s : State), s.rrx[n].waiting = x :: r ∧ s.rrx[n].state = rjRunning ∧
        s.rrx[n].suspending = false)
    ∧ (∃ (n : Fin 4) (x : Trace) (r : List Trace) (s : State), s.rrx[n].waiting = x :: r ∧ s.rrx[n].state ≠ rjRunning)
    ∧ (∃ (n : Fin 4) (xs : List RCode) (l : List RSum) (k0 : Nat) (k1 : Nat) (x : Trace) (b : RBuf) (s : State),
        s.rrx[n].hand = some x ∧ s.rrxNative n x.len xs = (l, k0, k1) ∧ s.rrx[n].open_ = some b ∧ x.bad = false ∧
        x.room = true ∧ s.memc.outage = false ∧ b.n + 1 < s.rrx[n].depth ∧ s.rrx[n].suspending = false ∧
        s.rrx[n].leaving = false)
    ∧ (∃ (n : Fin 4) (x : Trace) (b : RBuf) (s : State), s.rrx[n].hand = some x ∧ s.rrx[n].open_ = some b ∧ x.bad =
        false ∧ x.room = true ∧ s.memc.outage = false ∧ s.rrx[n].depth ≤ b.n + 1 ∧ s.rrx[n].suspending = false)
    ∧ (∃ (n : Fin 4) (x : Trace) (b : RBuf) (s : State), s.rrx[n].hand = some x ∧ s.rrx[n].open_ = some b ∧ x.bad =
        true ∧ s.rrx[n].suspending = false ∧ s.rrx[n].leaving = false)
    ∧ (∃ (n : Fin 4) (b : RBuf) (r : List RBuf) (s : State), s.rrx[n].closed = b :: r ∧ s.rrx[n].cont = true)
    ∧ (∃ (n : Fin 4) (b : RBuf) (r : List RBuf) (s : State), s.rrx[n].closed = b :: r ∧ s.rrx[n].cont = false)
    ∧ (∃ (n : Fin 4) (s : State), s.mgt.calRun = some (4 + n.val) ∧ s.mgt.calIn = false ∧ s.portOn n = true ∧
        s.ramanFits n = true)
    ∧ (∃ (n : Fin 4) (s : State), s.mgt.calRun = some (4 + n.val) ∧ s.mgt.calIn = true ∧ s.mgt.calStep < 3)
    ∧ (∃ (n : Fin 4) (s : State), s.mgt.calRun = some (4 + n.val) ∧ s.mgt.calIn = true ∧ s.mgt.calStep = 3 ∧
        s.rrx[n].open_ = none ∧ s.portOn n = true)
    ∧ (∃ (n : Fin 4) (kind : Fin 3) (s : State), s.mgt.calRun = some (4 + n.val) ∧ s.mgt.calIn = true ∧ kind ≠ 0) := by
  refine ⟨⟨0, zTrace, [], (st0.modRrx 0 fun x => { x with waiting := [zTrace], state := rjRunning }), ?_⟩,
          ⟨0, zTrace, [], (st0.modRrx 0 fun x => { x with waiting := [zTrace] }), ?_⟩,
          ⟨0, [], [], 0, 0, { zTrace with room := true }, zRBuf, (st0.modRrx 0 fun x =>
             { x with hand := some { zTrace with room := true }, open_ := some zRBuf, depth := 2 }), ?_⟩,
          ⟨0, { zTrace with room := true }, zRBuf, (st0.modRrx 0 fun x =>
             { x with hand := some { zTrace with room := true }, open_ := some zRBuf, depth := 1 }), ?_⟩,
          ⟨0, { zTrace with bad := true }, zRBuf, (st0.modRrx 0 fun x =>
             { x with hand := some { zTrace with bad := true }, open_ := some zRBuf }), ?_⟩,
          ⟨0, zRBuf, [], (st0.modRrx 0 fun x => { x with closed := [zRBuf], cont := true }), ?_⟩,
          ⟨0, zRBuf, [], (st0.modRrx 0 fun x => { x with closed := [zRBuf] }), ?_⟩,
          ⟨0, ((({ st0 with mgt.calRun := some 4, mgt.calIn := false, mgt.calStep := 0 } : State)).putBit
             R.SYN_STAT_LOCK 0 true), ?_⟩,
          ⟨0, (({ st0 with mgt.calRun := some 4, mgt.calIn := true, mgt.calStep := 2 } : State)), ?_⟩,
          ⟨0, (({ st0 with mgt.calRun := some 4, mgt.calIn := true, mgt.calStep := 3 } : State)), ?_⟩,
          ⟨0, 1, (({ st0 with mgt.calRun := some 4, mgt.calIn := true, mgt.calStep := 0 } : State)), ?_⟩⟩
  all_goals decide +kernel

theorem wit_ReferenceSensors :
    (∃ (s : State), s.domOn dCORE = true ∧ s.on R.RSF_CTRL_EN = false ∧ s.on R.RSF_STAT_RUNNING = false ∧ rsfCheck
        s.rsfShadow = none)
    ∧ (∃ (c : Nat) (s : State), s.domOn dCORE = true ∧ s.on R.RSF_CTRL_EN = false ∧ s.on R.RSF_STAT_RUNNING = false ∧
        rsfCheck s.rsfShadow = some c)
    ∧ (∃ (s : State), s.domOn dCORE = true ∧ s.on R.RSF_CTRL_EN = false ∧ s.on R.RSF_STAT_RUNNING = true)
    ∧ (∃ (s : State), s.domOn dCORE = true ∧ s.on R.RSF_STAT_RUNNING = true ∧ s.rsf.phase = 0 ∧ s.rsf.post = [])
    ∧ (∃ (s : State), s.domOn dCORE = true ∧ s.on R.RSF_STAT_RUNNING = true ∧ (s.rsf.phase ≠ 0 ∨ s.rsf.post ≠ []))
    ∧ (∃ (s : State), s.on R.RSF_STAT_RUNNING = true ∧ s.rsf.stopping = false ∧ s.rsf.inSeq = false ∧ s.rsf.phase = 0 ∧
        s.rsf.dirty = false)
    ∧ (∃ (c : Nat) (s : State), s.on R.RSF_STAT_RUNNING = true ∧ s.rsf.stopping = false ∧ s.rsf.inSeq = true ∧
        s.rsf.phase = 0 ∧ (s.rsfList.find? fun c => decide (s.rsf.next ≤ c)) = some c)
    ∧ (∃ (s : State), s.rsf.phase = 1)
    ∧ (∃ (code : Int) (rail : Bool) (refLow : Bool) (compliance : Bool) (v : Nat × Bool) (s : State), s.rsf.phase = 2 ∧
        rsfValue (rsfCh s.rsf.active (s.rd R.RSF_STAT_CUR)) (Arith.satSigned 24 code) = some v ∧ rsfBurnout (rsfCh
        s.rsf.active (s.rd R.RSF_STAT_CUR)) rail refLow compliance = false)
    ∧ (∃ (rail : Bool) (refLow : Bool) (compliance : Bool) (c : Fin 16) (s : State), s.rsf.phase = 2 ∧ s.rd
        R.RSF_STAT_CUR = c.val ∧ rsfBurnout (rsfCh s.rsf.active c) rail refLow compliance = true)
    ∧ (∃ (x : RsfResult) (s : State), s.rsf.post = [x] ∧ s.rsf.stopping = true ∧ s.rsf.phase = 0)
    ∧ (∃ (x : RsfResult) (r : List RsfResult) (s : State), s.rsf.post = x :: r ∧ (s.rsf.stopping = false ∨ s.rsf.phase
        ≠ 0 ∨ r ≠ []))
    ∧ (∃ (s : State), s.domOn dCORE = true)
    ∧ (∃ (s : State), s.rsf.phase = 3 ∧ s.rsf.stopping = false)
    ∧ (∃ (s : State), s.domOn dCORE = true)
    ∧ (∃ (s : State), s.domOn dCORE = true) := by
  refine ⟨⟨((((((st0.wr (R.RSF_CTRL_EN) 0).wr (R.RSF_STAT_RUNNING) 0).wr (R.RSF_CH_CFG0_EN 0) 1).wr
             (R.RSF_CH_CFG0_AINP 0) 1).wr (R.RSF_CH_CFG0_AINN 0) 2).wr (R.RSF_CH_CFG0_REF 0) 0), ?_⟩,
          ⟨0, ((st0.wr (R.RSF_CTRL_EN) 0).wr (R.RSF_STAT_RUNNING) 0), ?_⟩,
          ⟨((st0.wr (R.RSF_CTRL_EN) 0).wr (R.RSF_STAT_RUNNING) 1), ?_⟩,
          ⟨(st0.wr (R.RSF_STAT_RUNNING) 1), ?_⟩,
          ⟨((st0.wr (R.RSF_STAT_RUNNING) 1).modRsf fun x => { x with phase := 1 }), ?_⟩,
          ⟨(st0.wr (R.RSF_STAT_RUNNING) 1), ?_⟩,
          ⟨0, ((st0.wr (R.RSF_STAT_RUNNING) 1).modRsf fun x =>
             { x with inSeq := true, active := [((R.RSF_CH_CFG0_EN 0).key, 1)] }), ?_⟩,
          ⟨(st0.modRsf fun x => { x with phase := 1 }), ?_⟩,
          ⟨0, false, false, false, (0, false), (st0.modRsf fun x => { x with phase := 2 }), ?_⟩,
          ⟨true, true, true, 0, ((st0.wr R.RSF_STAT_CUR (0)).modRsf fun x => { x with phase := 2 }), ?_⟩,
          ⟨zRsfResult, (st0.modRsf fun x => { x with post := [zRsfResult], stopping := true }), ?_⟩,
          ⟨zRsfResult, [], (st0.modRsf fun x => { x with post := [zRsfResult] }), ?_⟩,
          ⟨(st0.modRsf fun x => { x with phase := 3 }), ?_⟩,
          ⟨(st0.modRsf fun x => { x with phase := 3 }), ?_⟩,
          ⟨st0, ?_⟩,
          ⟨st0, ?_⟩⟩
  all_goals decide +kernel

theorem wit_DspGroupsAndFaults :
    (∃ (g : Fin 8) (s : State), s.gstate g = gWaking)
    ∧ (∃ (g : Fin 8) (p : Packet) (s : State), s.gstate g = gLoading ∧ s.vdc.groups[g].load = some p)
    ∧ (∃ (g : Fin 8) (s : State), s.gstate g = gSuspending)
    ∧ (∃ (v : VItem) (r : List VItem) (s : State), s.vdcIn = v :: r ∧ (∀ i : Fin 64, s.on (R.VDC_BIND_EN i) = false))
    ∧ (∃ (v : VItem) (r : List VItem) (i : Fin 64) (pay : List Nat) (point : Nat) (s : State), s.vdcIn = v :: r ∧
        s.bindPayload i v = some (pay, point) ∧ (∀ j : Fin 64, j ≠ i → s.on (R.VDC_BIND_EN j) = false) ∧ s.gruns
        (groupOf (s.bindCore i)) = true ∧ s.bit (R.VDC_GRP_STAT_MASK (groupOf (s.bindCore i))) ((s.bindCore i).val %
        8) = true ∧ (s.vdc.cores[s.bindCore i]).halted = false ∧ s.rd (R.VDC_BIND_SIZE i) - 32 - s.ringUsed
        (s.bindCore i) (Fin.ofNat 4 (s.rd (R.VDC_BIND_CHAN i))) < (itemBytes v i (s.vdc.missed[i]) point pay).length)
    ∧ (∃ (v : VItem) (i : Fin 64) (pay : List Nat) (point : Nat) (s : State),
        let c := s.bindCore i
        let ch : Fin 4 := Fin.ofNat 4 (s.rd (R.VDC_BIND_CHAN i))
        let size := s.rd (R.VDC_BIND_SIZE i)
        let bytes := itemBytes v i (s.vdc.missed[i]) point pay
        s.vdcIn = [v] ∧ s.bindPayload i v = some (pay, point) ∧ (∀ j : Fin 64, j ≠ i → s.on (R.VDC_BIND_EN j) = false)
          ∧ s.gstate (groupOf c) = gRunning ∧ s.bit (R.VDC_GRP_STAT_MASK (groupOf c)) (c.val % 8) = true ∧
          (s.vdc.cores[c]).halted = false ∧ bytes.length ≤ size - 32 - s.ringUsed c ch)
    ∧ (∃ (c : Fin 64) (s : State), s.coreIssues c = true ∧ Dsp.legal (s.coreWord c) = false)
    ∧ (∃ (c : Fin 64) (s : State), CoreIssues s c 0 2 ∧ 8 ≤ (s.vdc.cores[c]).calls.length)
    ∧ (∃ (c : Fin 64) (s : State), CoreIssues s c 0 3 ∧ (s.vdc.cores[c]).calls = [])
    ∧ (∃ (c : Fin 64) (s : State), CoreIssues s c 0 4 ∧ 4 ≤ (s.vdc.cores[c]).loops.length ∧ Dsp.sreg s.vdc.cores[c]
        (Dsp.ctrlS (s.coreWord c)) ≠ 0#32)
    ∧ (∃ (c : Fin 64) (s : State), CoreIssues s c 6 3 ∧ (s.vdc.cores[c]).xfer = none ∧ xferRange (32 *
        (s.vdc.cores[c]).xrem.toNat) (s.vdc.cores[c]).xlen.toNat = false)
    ∧ (∃ (code : Nat), code < 16) := by
  refine ⟨⟨0, (st0.wr (R.VDC_GRP_STAT_STATE 0) gWaking), ?_⟩,
          ⟨0, (pk []), ((st0.wr (R.VDC_GRP_STAT_STATE 0) gLoading).modGroup 0 fun x =>
             { x with load := some (pk []) }), ?_⟩,
          ⟨0, (st0.wr (R.VDC_GRP_STAT_STATE 0) gSuspending), ?_⟩,
          ⟨zVItem, [], { st0 with vdcIn := [zVItem] }, ?_⟩,
          ⟨zVItem, [], 0, [], 0, (((({ st0 with vdcIn := [zVItem] }.wr (R.VDC_BIND_EN 0) 1).wr (R.VDC_GRP_STAT_STATE
             0) gRunning).putBit (R.VDC_GRP_STAT_MASK 0) 0 true).modCore 0 fun k => { k with halted := false }), ?_⟩,
          ⟨zVItem, 0, [], 0, ((((({ st0 with vdcIn := [zVItem] }.wr (R.VDC_BIND_EN 0) 1).wr (R.VDC_BIND_SIZE 0)
             1024).wr (R.VDC_GRP_STAT_STATE 0) gRunning).putBit (R.VDC_GRP_STAT_MASK 0) 0 true).modCore 0 fun k =>
             { k with halted := false }), ?_⟩,
          ⟨0, (dsp 7 0), ?_⟩,
          ⟨0, ((dsp 0 2).modCore 0 fun k => { k with calls := [0, 0, 0, 0, 0, 0, 0, 0] }), ?_, ?_⟩,
          ⟨0, (dsp 0 3), ?_, ?_⟩,
          ⟨0, ((dsp 0 4).modCore 0 fun k => { k with loops := List.replicate 4 ⟨0, 0, 0⟩, s := k.s.set 0 1 }), ?_, ?_,
             ?_⟩,
          ⟨0, (dsp 6 3), ?_, ?_, ?_⟩,
          ⟨0, ?_⟩⟩
  all_goals first | decide +kernel | (unfold CoreIssues; decide +kernel)

theorem wit_AcquisitionChannels :
    (∃ (k : Fin 4) (s : State), s.domOn dCORE = true ∧ s.armCheck k = (OK, 0))
    ∧ (∃ (k : Fin 4) (st : Nat) (c : Nat) (s : State), s.domOn dCORE = true ∧ s.armCheck k = (st, c) ∧ c ≠ 0)
    ∧ (∃ (k : Fin 4) (s : State), s.domOn dCORE = true ∧ s.chLive k = true)
    ∧ (∃ (k : Fin 4) (s : State), s.cstate k = cFilling ∧ s.chPre k ≤ (if s.rd (R.ACQ_CH_CFG0_SRC k) = 0 then s.tbu.raw
        - s.acq.ch[k].fillRaw else s.acq.ch[k].filled))
    ∧ (∃ (k : Fin 4) (u : CapUnit) (r : List CapUnit) (s : State), s.acq.ch[k].inq = u :: r ∧ s.cstate k = cReady ∧
        s.on (R.ACQ_CH_CFG0_MEM k) = false ∧ s.acq.ch[k].seg = none)
    ∧ (∃ (k : Fin 4) (level : BitVec 17) (u : CapUnit) (r : List CapUnit) (s : State), s.acq.ch[k].inq = u :: r ∧
        s.cstate k = cReady ∧ s.on (R.ACQ_CH_CFG0_MEM k) = true ∧ 65536 < level.toNat + s.acq.ch[k].usize)
    ∧ (∃ (k : Fin 4) (s : State), s.acq.ch[k].inq = [] ∧ s.rd (R.ACQ_CH_CFG0_SRC k) = 0 ∧ s.chWrites k = true ∧ s.on
        (R.ACQ_CH_CFG0_MEM k) = true ∧ s.acq.ch[k].fillRaw + s.chLatency k + 32 ≤ s.tbu.raw + 1)
    ∧ (∃ (k : Fin 4) (g : Segment) (s : State), s.acq.ch[k].seg = some g ∧ s.rd (R.ACQ_CH_CFG0_SRC k) = 0 ∧ s.cstate k
        = cPost ∧ s.rawEnd k g ≤ s.tbu.raw ∧ s.acq.ch[k].suspending = false)
    ∧ (∃ (k : Fin 4) (s : State), s.cstate k = cRearm ∧ s.counted k = false ∧ s.acq.ch[k].draining = false)
    ∧ (∃ (k : Fin 4) (s : State), s.cstate k = cRearm ∧ (s.counted k = true ∨ s.acq.ch[k].draining = true))
    ∧ (∃ (k : Fin 4) (g : Segment) (r : List Segment) (s : State), s.acq.ch[k].done = g :: r ∧ overlaps
        ((s.ports[s.chPort k].courses).map fun c => (c.stamp, Arith.stampAdd c.stamp (10 * c.len - 1))) g.first g.last
        = 0)
    ∧ (∃ (k : Fin 4) (g : Segment) (r : List Segment) (s : State), s.acq.ch[k].done = g :: r ∧ (∃ c ∈ s.ports[s.chPort
        k].courses, Arith.stampLt g.last c.stamp = false ∧ Arith.stampLt (Arith.stampAdd c.stamp (10 * c.len - 1))
        g.first = false))
    ∧ (∃ (k : Fin 4) (slot : BitVec 9) (s : State), s.domOn dCORE = true ∧ slot.toNat < 256 ∧ s.rd (R.ACQ_CH_DIR_WORD k
        slot.toNat 15) / 2 ^ 31 = 1) := by
  refine ⟨⟨0, (((((st0.wr (R.ACQ_CH_SEG_UNITS 0) 64).wr (R.ACQ_CH_POST_UNITS 0) 32).wr (R.ACQ_CH_COUNT_NSEG 0) 1).wr
             (R.ACQ_CH_CFG0_SRC 0) 0).wr (R.ACQ_CH_SIZE_VALUE 0) 1), ?_⟩,
          ⟨0, E_ACQ_SIZE, 4, st0, ?_⟩,
          ⟨0, (st0.wr (R.ACQ_CH_STAT_JOB 0) 1), ?_⟩,
          ⟨0, (st0.wr (R.ACQ_CH_STAT_STATE 0) cFilling), ?_⟩,
          ⟨0, zCapUnit, [], (((st0.wr (R.ACQ_CH_STAT_STATE 0) cReady).wr (R.ACQ_CH_CFG0_MEM 0) 0).modCh 0 fun x =>
             { x with inq := [zCapUnit] }), ?_⟩,
          ⟨0, 65537, zCapUnit, [], (((st0.wr (R.ACQ_CH_STAT_STATE 0) cReady).wr (R.ACQ_CH_CFG0_MEM 0) 1).modCh 0 fun x
             => { x with inq := [zCapUnit] }), ?_⟩,
          ⟨0,
             (({ ((((st0.wr (R.ACQ_CH_CFG0_SRC 0) (0)).wr (R.ACQ_CH_CFG0_MEM 0) 1).wr (R.ACQ_CH_STAT_STATE 0) cReady).wr (R.ACQ_CH_CFG0_MEM 0) 1) with tbu.raw := 100000 }
             : State)), ?_⟩,
          ⟨0, zSegment,
             (({ ((((st0.wr (R.ACQ_CH_CFG0_SRC 0) (0)).wr (R.ACQ_CH_STAT_STATE 0) cPost).wr (R.ACQ_CH_CFG0_SRC 0) 0).modCh 0 fun x => { x with seg := some zSegment }) with tbu.raw := 1000 }
             : State)), ?_⟩,
          ⟨0, (st0.wr (R.ACQ_CH_STAT_STATE 0) cRearm), ?_⟩,
          ⟨0, ((st0.wr (R.ACQ_CH_STAT_STATE 0) cRearm).modCh 0 fun x => { x with draining := true }), ?_⟩,
          ⟨0, zSegment, [], (st0.modCh 0 fun x => { x with done := [zSegment] }), ?_⟩,
          ⟨0, zSegment, [], ((st0.modCh 0 fun x => { x with done := [zSegment] }).modPort 0 fun p =>
             { p with courses := [{ zCourse with len := 1 }] }), ?_⟩,
          ⟨0, 0, (st0.wr (R.ACQ_CH_DIR_WORD 0 0 15) (2 ^ 31)), ?_⟩⟩
  all_goals decide +kernel

theorem wit_TriggerPlacesSegment :
    (∃ (k : Fin 4) (s : State), s.acq.ch[k].draining = false ∧ s.acq.ch[k].suspending = false) := by
  refine ⟨0, st0, ?_⟩
  all_goals decide +kernel

theorem wit_TriggerSequencer :
    (∃ (mask : BitVec 16) (i : Fin 16) (s : State), s.domOn dCORE = true ∧ s.acq.inbox = [] ∧ (s.acq.tinAt ≠
        s.sys.uptime ∨ s.acq.tinMask.testBit i = false) ∧ s.on R.ACQ_SEQ_CTRL_EN = true ∧ s.on (R.ACQ_TIN_EN i) = true
        ∧ s.rd (R.ACQ_TIN_SRC i) = 6 ∧ mask.toNat.testBit i = true ∧ s.rd (R.ACQ_SEQ_STATE_COND_A (s.rd
        R.ACQ_SEQ_STAT_STATE)) = i.val ∧ (s.rd (R.ACQ_SEQ_STATE_ACT_A (s.rd R.ACQ_SEQ_STAT_STATE))).testBit 4 = false)
    ∧ (∃ (s : State), s.domOn dCORE = true ∧ s.acq.inbox = [] ∧ s.on R.ACQ_SEQ_CTRL_EN = false ∧ s.acq.tinAt ≠
        s.sys.uptime)
    ∧ (∃ (mask : BitVec 16) (s : State), s.domOn dCORE = true ∧ s.acq.inbox = [] ∧ s.acq.tinAt = s.sys.uptime ∧ (∀ j ∈
        s.inputsOf 6 none mask.toNat.testBit, s.acq.tinMask.testBit j = true))
    ∧ (∃ (x : Nat) (s : State), s.acq.tmr0 = some x)
    ∧ (∃ (x : Nat) (s : State), s.acq.tmr1 = some x)
    ∧ (∃ (s : State), s.domOn dCORE = true ∧ s.on R.ACQ_SEQ_CTRL_EN = false)
    ∧ (∃ (s : State), s.domOn dCORE = true ∧ s.on R.ACQ_SEQ_CTRL_EN = true)
    ∧ (∃ (s : State), s.domOn dCORE = true ∧ s.on R.ACQ_SEQ_CTRL_EN = true) := by
  refine ⟨⟨1, 0, ((((st0.wr R.ACQ_SEQ_CTRL_EN 1).wr (R.ACQ_TIN_EN 0) 1).wr (R.ACQ_TIN_SRC 0) 6).wr
             (R.ACQ_SEQ_STATE_COND_A 0) 0), ?_⟩,
          ⟨(({ (st0.wr (R.ACQ_SEQ_CTRL_EN) 0) with sys.uptime := 1, acq.tinAt := 0 } : State)), ?_⟩,
          ⟨0, st0, ?_⟩,
          ⟨0, (({ st0 with acq.tmr0 := some 0 } : State)), ?_⟩,
          ⟨0, (({ st0 with acq.tmr1 := some 0 } : State)), ?_⟩,
          ⟨(st0.wr (R.ACQ_SEQ_CTRL_EN) 0), ?_⟩,
          ⟨(st0.wr (R.ACQ_SEQ_CTRL_EN) 1), ?_⟩,
          ⟨(st0.wr (R.ACQ_SEQ_CTRL_EN) 1), ?_⟩⟩
  all_goals decide +kernel

theorem wit_CompressionEngine :
    (∃ (f : Frame) (r : List CmpItem) (s : State), s.cmpIn = .frame f :: r)
    ∧ (∃ (x : TProf) (r : List CmpItem) (s : State), s.cmpIn = .profile x :: r)
    ∧ (∃ (n : Nat) (g : Gap) (r : List CmpItem) (s : State), s.cmpIn = .gap n g :: r)
    ∧ (∃ (s : State), s.domOn dCORE = true)
    ∧ (∃ (n : Fin 4) (ecc : Ecc) (x : Tile) (r : List EngItem) (s : State), s.cmp.engs[n].queue = .tile x :: r ∧ x.t <
        32 ∧ (∀ g q, r ≠ .gap g :: q) ∧ Deflate.inflate (s.engBody n x) = some x.payload ∧ (s.eccOf (if s.on
        (R.CMP_DEF_MEM x.t) then 4 else 2) ecc).ue = [] ∧ s.ringFits n (s.engBody n x).length = true)
    ∧ (∃ (n : Fin 4) (fault : Fin 3) (x : Tile) (r : List EngItem) (s : State), s.cmp.engs[n].queue = .tile x :: r ∧
        x.t < 32 ∧ (∀ g q, r ≠ .gap g :: q) ∧ fault ≠ 0 ∧ s.cmp.engs[n].again = false ∧ s.ringFits n (Deflate.stored
        x.payload.length x.payload).length = true)
    ∧ (∃ (n : Fin 4) (ecc : Ecc) (x : Tile) (r : List EngItem) (s : State), s.cmp.engs[n].queue = .tile x :: r ∧
        Deflate.inflate (s.engBody n x) = some x.payload ∧ (s.eccOf (if s.on (R.CMP_DEF_MEM x.t) then 4 else 2)
        ecc).ue = [] ∧ s.ringFits n (s.engBody n x).length = false)
    ∧ (∃ (n : Fin 4) (x : Tile) (r : List EngItem) (k : Nat) (s : State), s.cmp.engs[n].queue = .tile x :: r ∧ x.t < 32
        ∧ s.bit R.CMP_STAT_STALL n = true ∧ s.ringRoom n = some k ∧ 96 ≤ k) := by
  refine ⟨⟨zFrame, [], { st0 with cmpIn := [.frame zFrame] }, ?_⟩,
          ⟨zTProf, [], { st0 with cmpIn := [.profile zTProf] }, ?_⟩,
          ⟨0, zGap, [], { st0 with cmpIn := [.gap 0 zGap] }, ?_⟩,
          ⟨st0, ?_⟩,
          ⟨0, ⟨0, []⟩, { zTile with payload := [7] }, [], (st0.modEng 0 fun x =>
             { x with queue := [.tile { zTile with payload := [7] }], again := true }), ?_, ?_,
             (by intro g q h; cases h), ?_⟩,
          ⟨0, 1, zTile, [], (st0.modEng 0 fun x => { x with queue := [.tile zTile] }), ?_, ?_,
             (by intro g q h; cases h), ?_⟩,
          ⟨0, ⟨0, []⟩, { zTile with payload := [7] }, [], ((st0.modEng 0 fun x =>
             { x with queue := [.tile { zTile with payload := [7] }], again := true }).modStrm 1 fun x =>
             { x with dest := 1, queue := List.replicate 512 { zRec with body := List.replicate 480 0 } }), ?_⟩,
          ⟨0, zTile, [], 262144, (((st0.putBit R.CMP_STAT_STALL 0 true).modEng 0 fun x =>
             { x with queue := [.tile zTile] }).modStrm 1 fun x => { x with dest := 1 }), ?_⟩⟩
  all_goals decide +kernel

theorem wit_TilesAndStoredBlocks :
    (∃ (d : Fin 32) (r : TRow) (s : State), (∀ x l, s.cmp.defs[d].rows = x :: l → rowCloses s.cmp.defs[d] r = none) ∧
        (s.cmp.defs[d].rows = [] → s.setsBusy d < 2))
    ∧ (∃ (l : List Nat), l ≠ [] ∧ (∀ b ∈ l, b < 256)) := by
  refine ⟨⟨0, zTRow, st0, (by intro x l h; cases h), ?_⟩,
          ⟨[255], ?_⟩⟩
  all_goals decide +kernel

theorem wit_ScanOut :
    (∃ (x : Tile) (r : List EngItem) (s : State), s.sco.queue = .tile x :: r ∧ s.memc.outage = false)
    ∧ (∃ (i : EngItem) (r : List EngItem) (s : State), s.sco.queue = i :: r ∧ s.memc.outage = true)
    ∧ (∃ (g : Gap) (r : List EngItem) (s : State), s.sco.queue = .gap g :: r ∧ s.memc.outage = false ∧ s.rd
        R.SCO_PIX_FORMAT ≤ 2)
    ∧ (∃ (s : State), s.domOn dCORE = true)
    ∧ (∃ (s : State), s.domOn dCORE = true)
    ∧ (∃ (b : Nat) (top : Nat) (s : State), s.frameOn = true ∧ s.sco.pend = some (b, top))
    ∧ (∃ (s : State), s.frameOn = true ∧ s.sco.pend = none)
    ∧ (∃ (s : State), s.frameOn = true ∧ s.scoState = scoRun)
    ∧ (∃ (s : State), s.frameOn = true ∧ s.scoState = scoStopping)
    ∧ (∃ (line : BitVec 13) (x : BitVec 13) (s : State), s.frameOn = true ∧ line.toNat < s.vact ∧ x.toNat < s.hact ∧ (∀
        u ∈ s.sco.under, u.1 ≠ line.toNat))
    ∧ (∃ (rising : Bool) (s : State), s.scoState ≠ scoOff ∧ s.scoCmd = true ∧ rising = (tget s.sco.timing
        R.SCO_TCFG_TEPOL == 0))
    ∧ (∃ (s : State), s.sco.delaying = true ∧ s.scoState ≠ scoOff)
    ∧ (∃ (s : State), s.scoState ≠ scoOff ∧ s.scoCmd = true ∧ s.sco.sending = false ∧ s.sco.delaying = false) := by
  refine ⟨⟨zTile, [], (st0.modSco fun x => { x with queue := [.tile zTile] }), ?_⟩,
          ⟨(.gap zGap), [], (({ (st0.modSco fun x => { x with queue := [.gap zGap] }) with memc.outage := true } :
             State)), ?_⟩,
          ⟨zGap, [], (st0.modSco fun x => { x with queue := [.gap zGap] }), ?_⟩,
          ⟨st0, ?_⟩,
          ⟨st0, ?_⟩,
          ⟨0, 0, ((st0.wr R.SCO_STAT_STATE 1).modSco fun x => { x with pend := some (0, 0) }), ?_⟩,
          ⟨(st0.wr R.SCO_STAT_STATE 1), ?_⟩,
          ⟨(st0.wr R.SCO_STAT_STATE scoRun), ?_⟩,
          ⟨((st0.wr R.SCO_STAT_STATE scoStopping).wr R.SCO_STAT_STATE scoStopping), ?_⟩,
          ⟨0, 0, ((st0.wr R.SCO_STAT_STATE 1).modSco fun x =>
             { x with timing := [(R.SCO_VTIM0_VACT.key, 1), (R.SCO_HTIM0_HACT.key, 1)] }), ?_⟩,
          ⟨true, ((st0.wr R.SCO_STAT_STATE 1).modSco fun x => { x with timing := [(R.SCO_TCFG_CMD.key, 1)] }), ?_⟩,
          ⟨((st0.wr R.SCO_STAT_STATE 1).modSco fun x => { x with delaying := true }), ?_⟩,
          ⟨((st0.wr R.SCO_STAT_STATE 1).modSco fun x => { x with timing := [(R.SCO_TCFG_CMD.key, 1)] }), ?_⟩⟩
  all_goals decide +kernel

theorem wit_Streams :
    (∃ (st : Fin 7) (r : Rec) (l : List Rec) (s : State),
        let q := turnTo st s.streams[st]
        let bytes := recordBytes st (q.seq + 1) r
        let size := 2 ^ s.rd (R.HIF_STR_CFG_SIZE st)
        q.queue = r :: l ∧ q.dest = 1 ∧ s.pcieUp = true ∧ q.part = 0 ∧ q.closing = false ∧ q.waitq = [] ∧ bytes.length
          ≤ size - (q.written + 2 ^ 64 - s.rd (R.HIF_STR_RD_VALUE st)) % 2 ^ 64 ∧ bytes.length ≤ 65536 ∧ q.written %
          size + bytes.length ≤ size)
    ∧ (∃ (st : Fin 7) (r : Rec) (l : List Rec) (s : State),
        let q := turnTo st s.streams[st]
        let room := 2 ^ s.rd (R.HIF_STR_CFG_SIZE st) - (q.written + 2 ^ 64 - s.rd (R.HIF_STR_RD_VALUE st)) % 2 ^ 64
        q.queue = r :: l ∧ q.dest = 1 ∧ s.pcieUp = true ∧ q.part = 0 ∧ room < (recordBytes st (q.seq + 1) r).length)
    ∧ (∃ (st : Fin 7) (r : Rec) (l : List Rec) (m : Fin 2) (s : State),
        let q := turnTo st s.streams[st]
        q.queue = r :: l ∧ q.dest = 2 ∧ q.ethM = m.val ∧ q.closing = false ∧ q.waitq = [] ∧ s.ethUp m = true ∧
          s.ethNext m = some st ∧ s.hif.pause[m] ≤ s.sys.uptime ∧ s.hif.paced[m] ≤ s.sys.uptime)
    ∧ (∃ (st : Fin 7) (s : State), s.domOn dCORE = true ∧ st ≠ 0) := by
  refine ⟨⟨0, zRec, [], (((st0.modStrm 0 fun x => { x with queue := [zRec], dest := 1 }).wr R.HIF_STAT_LINK_UP 1).wr
             (R.HIF_STR_CFG_SIZE 0) 16), ?_⟩,
          ⟨0, zRec, [], (((st0.modStrm 0 fun x => { x with queue := [zRec], dest := 1 }).wr R.HIF_STAT_LINK_UP 1).wr
             (R.HIF_STR_CFG_SIZE 0) 0), ?_⟩,
          ⟨1, zRec, [], 0, ((st0.modStrm 1 fun x => { x with queue := [zRec], dest := 2 }).wr R.HIF_STAT_ETH0_UP 1),
             ?_⟩,
          ⟨1, st0, ?_⟩⟩
  all_goals decide +kernel

theorem wit_HostRings :
    (∃ (s : State), s.domOn dCORE = true)
    ∧ (∃ (d : Vector Word 8) (l : List Byte) (b : BusEnd) (s : State),
        let p := packetOf .pcie (l.map BitVec.toNat) d[3].toNat (d[4].toNat + d[5].toNat * 2 ^ 32) b
        s.sqFetches = true ∧ descBad d = false ∧ (s.on R.HIF_SQ_CFG_CRC_EN = false ∨ packetCrc (l.map BitVec.toNat) =
          true) ∧ packetLength (l.map BitVec.toNat) = false ∧ (∀ st, s.packetCheck p ≠ some (9, st)))
    ∧ (∃ (d : Vector Word 8) (l : List Byte) (s : State), s.sqFetches = true ∧ (descBad d = true ∨ s.on
        R.HIF_SQ_CFG_CRC_EN = true ∧ packetCrc (l.map BitVec.toNat) = false ∨ packetLength (l.map BitVec.toNat) =
        true))
    ∧ (∃ (s : State), s.sqFetches = true)
    ∧ (∃ (d : Vector Word 8) (l : List Byte) (b : BusEnd) (st : Nat) (s : State), descBad d = false ∧ (s.on
        R.HIF_SQ_CFG_CRC_EN = false ∨ packetCrc (l.map BitVec.toNat) = true) ∧ packetLength (l.map BitVec.toNat) =
        false ∧ s.packetCheck (packetOf .pcie (l.map BitVec.toNat) d[3].toNat (d[4].toNat + d[5].toNat * 2 ^ 32) b) =
        some (9, st))
    ∧ (∃ (s : State), (s.on R.HIF_SQ_CFG_EN = false ∨ s.rd R.HIF_SQ_HEAD_INDEX = s.rd R.HIF_SQ_TAIL_INDEX ∨ s.pcieUp =
        false ∨ 64 ≤ s.hif.held.length))
    ∧ (∃ (s : State), s.on R.HIF_CQ_CFG_EN = true ∧ s.hif.held = [] ∧ s.cqFull = false ∧ s.pcieUp = true)
    ∧ (∃ (c : Completion) (s : State), s.on R.HIF_CQ_CFG_EN = true ∧ s.cqFull = true ∧ (s.hif.held.length < 64 ∨ c.own
        = true))
    ∧ (∃ (c : Completion) (s : State), 64 ≤ s.hif.held.length ∧ c.own = false)
    ∧ (∃ (s : State), s.on R.HIF_CQ_CFG_EN = false)
    ∧ (∃ (s : State), s.domOn dCORE = true)
    ∧ (∃ (s : State), s.hif.cqNew ≠ 0 ∧ s.on (R.HIF_MSIX_MASK 0) = false ∧ s.on R.HIF_STAT_D3HOT = false ∧ s.on
        R.HIF_STAT_LINK_UP = true)
    ∧ (∃ (s : State), s.hif.cqNew = 0) := by
  refine ⟨⟨st0, ?_⟩,
          ⟨(#v[0, 0, 16, 0, 0, 0, 0, 0]), (List.replicate 16 0#8), .timeout, (((st0.wr R.HIF_STAT_LINK_UP 1).wr
             R.HIF_SQ_CFG_EN 1).wr R.HIF_SQ_TAIL_INDEX 1), ?_, ?_, ?_, ?_,
             (by intro st h; exact absurd ((congrArg (Option.map Prod.fst) h).trans rfl : _ = some 9) (by decide))⟩,
          ⟨(Vector.replicate 8 0), [], (((st0.wr R.HIF_STAT_LINK_UP 1).wr R.HIF_SQ_CFG_EN 1).wr R.HIF_SQ_TAIL_INDEX
             1), ?_⟩,
          ⟨(((st0.wr R.HIF_STAT_LINK_UP 1).wr R.HIF_SQ_CFG_EN 1).wr R.HIF_SQ_TAIL_INDEX 1), ?_⟩,
          ⟨(#v[0, 0, 16, 0, 0, 0, 0, 0]), [0, 1] ++ List.replicate 14 0, .timeout, E_BUSY,
             (({ (((st0.wr R.HIF_STAT_LINK_UP 1).wr R.HIF_SQ_CFG_EN 1).wr R.HIF_SQ_TAIL_INDEX 1) with cmd.open_ := List.replicate 120 (0, pk []) }
             : State)), ?_⟩,
          ⟨(st0.wr R.HIF_STAT_LINK_UP 1), ?_⟩,
          ⟨((st0.wr (R.HIF_CQ_CFG_EN) 1).wr R.HIF_STAT_LINK_UP 1), ?_⟩,
          ⟨zCompletion, ((st0.wr (R.HIF_CQ_CFG_EN) 1).wr R.HIF_CQ_TAIL_INDEX 15), ?_⟩,
          ⟨zCompletion, (st0.modHif fun x => { x with held := List.replicate 64 zCompletion }), ?_⟩,
          ⟨((st0.wr (R.HIF_CQ_CFG_EN) 0).wr R.HIF_CQ_CFG_EN 0), ?_⟩,
          ⟨st0, ?_⟩,
          ⟨(((((st0.wr (R.HIF_MSIX_MASK 0) 0).wr (R.HIF_STAT_D3HOT) 0).wr (R.HIF_STAT_LINK_UP) 1).wr
             R.HIF_STAT_LINK_UP 1).modHif fun x => { x with cqNew := 1 }), ?_⟩,
          ⟨st0, ?_⟩⟩
  all_goals decide +kernel

theorem wit_PcieLinkAndPower :
    (∃ (s : State), s.sys.phase ≠ .held ∧ s.sys.phase ≠ .tripped ∧ s.sys.phase ≠ .standby ∧ s.on R.HIF_STAT_LINK_UP =
        false)
    ∧ (∃ (s : State), s.domOn dCORE = true ∧ s.on R.HIF_STAT_LINK_UP = true ∧ (∀ st : Fin 7, (s.streams[st]).queue = []
        ∧ (s.streams[st]).waitq = []))
    ∧ (∃ (s : State), s.domOn dCORE = true ∧ s.on R.HIF_STAT_LINK_UP = true ∧ (∀ st : Fin 7, (s.streams[st]).queue = []
        ∧ (s.streams[st]).waitq = []))
    ∧ (∃ (s : State), s.on R.HIF_STAT_LINK_UP = true)
    ∧ (∃ (v : Nat) (s : State), s.on R.HIF_STAT_D3HOT = true ∧ v < 64)
    ∧ (∃ (s : State), s.on R.HIF_STAT_D3HOT = true ∧ s.on R.HIF_STAT_LINK_UP = true) := by
  refine ⟨⟨(st0.wr (R.HIF_STAT_LINK_UP) 0), ?_⟩,
          ⟨(st0.wr (R.HIF_STAT_LINK_UP) 1), ?_⟩,
          ⟨(st0.wr (R.HIF_STAT_LINK_UP) 1), ?_⟩,
          ⟨(st0.wr (R.HIF_STAT_LINK_UP) 1), ?_⟩,
          ⟨0, ((st0.wr (R.HIF_STAT_D3HOT) 1).wr R.HIF_STAT_D3HOT 1), ?_⟩,
          ⟨((st0.wr (R.HIF_STAT_D3HOT) 1).wr (R.HIF_STAT_LINK_UP) 1), ?_⟩⟩
  all_goals decide +kernel

theorem wit_EthernetAndPtp :
    (∃ (m : Fin 2) (s : State), s.on (R.HIF_ETH_CFG_EN m) = true ∧ s.ethUp m = true)
    ∧ (∃ (m : Fin 2) (s : State), s.on (R.HIF_ETH_CFG_EN m) = true ∧ s.ethUp m = true)
    ∧ (∃ (x : Int) (s : State), s.on R.TBU_STAT_ACT_ARMED = true ∧ (s.rd R.TBU_STAT_EPOCH_SRC ≠ 2 ∨ s.rd
        R.SYN_CTRL_SLEW_LIMIT * 3200000 < x.natAbs))
    ∧ (∃ (up : Bool) (s : State), s.domOn dCORE = true ∧ s.ethUp 0 = !up ∧ (up = true → s.on (R.HIF_ETH_CFG_EN 0) =
        true))
    ∧ (∃ (up : Bool) (s : State), s.domOn dCORE = true ∧ s.ethUp 1 = !up ∧ (up = true → s.on (R.HIF_ETH_CFG_EN 1) =
        true))
    ∧ (∃ (m : Fin 2) (s : State), s.ethUp m = false)
    ∧ (∃ (m : Fin 2) (s : State), s.on (R.HIF_ETH_CFG_EN m) = true ∧ s.ethUp m = true ∧ s.ptpOn m = true) := by
  refine ⟨⟨0, ((st0.wr (R.HIF_ETH_CFG_EN 0) 1).wr R.HIF_STAT_ETH0_UP 1), ?_⟩,
          ⟨0, ((st0.wr (R.HIF_ETH_CFG_EN 0) 1).wr R.HIF_STAT_ETH0_UP 1), ?_⟩,
          ⟨0, (st0.wr R.TBU_STAT_ACT_ARMED 1), ?_⟩,
          ⟨true, (st0.wr (R.HIF_ETH_CFG_EN 0) 1), ?_⟩,
          ⟨true, (st0.wr (R.HIF_ETH_CFG_EN 1) 1), ?_⟩,
          ⟨0, st0, ?_⟩,
          ⟨0, (((st0.wr (R.HIF_ETH_CFG_EN 0) 1).wr R.HIF_STAT_ETH0_UP 1).modHif fun x => { x with ptp := [1] }), ?_⟩⟩
  all_goals decide +kernel

theorem wit_SerialAndTestPorts :
    (∃ (s : State), s.reaches .spi = true)
    ∧ (∃ (s : State), s.reaches .spi = true)
    ∧ (∃ (l : List Byte) (s : State), s.reaches .spi = true ∧ packetCrc (l.map BitVec.toNat) = true ∧ packetLength
        (l.map BitVec.toNat) = false ∧ s.hif.spi.length < 8)
    ∧ (∃ (l : List Byte) (s : State), s.reaches .spi = true ∧ packetCrc (l.map BitVec.toNat) = false)
    ∧ (∃ (s : State), s.reaches .spi = true ∧ s.domOn dCORE = true ∧ 8 ≤ s.hif.spi.length)
    ∧ (∃ (r : Reply) (l : List Reply) (s : State), s.reaches .spi = true ∧ s.hif.spi = r :: l)
    ∧ (∃ (s : State), s.reaches .spi = true)
    ∧ (∃ (s : State), s.reaches .spi = true)
    ∧ (∃ (s : State), s.reaches .console = true) := by
  refine ⟨⟨st0, ?_⟩,
          ⟨st0, ?_⟩,
          ⟨(List.replicate 12 0#8 ++ [111#8, 198#8, 213#8, 123#8]), st0, ?_⟩,
          ⟨[], st0, ?_⟩,
          ⟨(st0.modHif fun x => { x with spi := List.replicate 8 zReply }), ?_⟩,
          ⟨zReply, [], (st0.modHif fun x => { x with spi := [zReply] }), ?_⟩,
          ⟨st0, ?_⟩,
          ⟨st0, ?_⟩,
          ⟨st0, ?_⟩⟩
  all_goals decide +kernel

theorem wit_DeviceResets :
    (∃ (v : Word) (s : State), s.domOn dMGT = true ∧ v.toNat / 65536 = 0xA55A ∧ v.toNat.testBit 0 = true)
    ∧ (∃ (v : Word), (v.toNat / 65536 ≠ 0xA55A ∨ v.toNat.testBit 0 = false))
    ∧ (∃ (s : State), s.sys.phase ≠ .held ∧ s.sys.phase ≠ .tripped)
    ∧ (∃ (s : State), s.mgt.change = none ∧ (s.sys.phase = .lock ∨ s.sys.phase = .dram))
    ∧ (∃ (s : State), (s.sys.phase = .up ∨ s.sys.phase = .footFw))
    ∧ (∃ (s : State), s.sys.phase = .up ∧ s.sys.settled = false)
    ∧ (∃ (s : State), s.sys.phase = .standby ∧ s.sys.wakeAfter ≠ 0)
    ∧ (∃ (s : State), s.sys.phase = .standby) := by
  refine ⟨⟨0xA55A0001, st0, ?_⟩,
          ⟨0xA55A0000, ?_⟩,
          ⟨st0, ?_⟩,
          ⟨(({ st0 with sys.phase := .lock } : State)), ?_⟩,
          ⟨(({ st0 with sys.phase := .footFw } : State)), ?_⟩,
          ⟨st0, ?_⟩,
          ⟨(({ (({ st0 with sys.phase := .standby } : State)) with sys.wakeAfter := 1 } : State)), ?_⟩,
          ⟨(({ st0 with sys.phase := .standby } : State)), ?_⟩⟩
  all_goals decide +kernel

theorem wit_BootSteps :
    (∃ (tj : Word) (s : State), s.sys.phase = .held ∧ tj.toInt < 25600)
    ∧ (∃ (tj : Word) (s : State), s.sys.phase = .held ∧ 25600 ≤ tj.toInt)
    ∧ (∃ (s : State), s.sys.phase = .hot)
    ∧ (∃ (s : State), s.sys.phase = .lock ∧ s.mgt.change = none ∧ s.bit R.SYN_STAT_LOCK 1 = false)
    ∧ (∃ (s : State), s.bit R.SYN_STAT_LOCK 1 = true)
    ∧ (∃ (s : State), s.sys.phase = .dram ∧ s.mgt.change = none ∧ s.memState ≠ memTraining) := by
  refine ⟨⟨25599, State.reset, ?_⟩,
          ⟨25600, State.reset, ?_⟩,
          ⟨(({ st0 with sys.phase := .hot } : State)), ?_⟩,
          ⟨(({ (st0.putBit R.SYN_STAT_LOCK 1 false) with sys.phase := .lock } : State)), ?_⟩,
          ⟨(st0.putBit R.SYN_STAT_LOCK 1 true), ?_⟩,
          ⟨(({ st0 with sys.phase := .dram } : State)), ?_⟩⟩
  all_goals decide +kernel

theorem wit_ModeChanges :
    (∃ (c : Change) (j : Job) (s : State), s.mgt.change = some c ∧ s.job? c.job = some j ∧ live j = true ∧ j.notify =
        false) := by
  refine ⟨{ zChange with job := 268435456 }, { zJob with typ := 1 },
             (({ (({ st0 with cmd.jobs := [{ zJob with typ := 1 }] } : State)) with mgt.change := some { zChange with job := 268435456 } }
             : State)), ?_⟩
  all_goals decide +kernel

theorem wit_Dram :
    (∃ (r : Fin 3) (s : State),
        let trains (s : State) : Prop := s.memState = memTraining ∨ s.memState = memRetraining
        trains s ∧ s.memc.step = 1 ∧ (r ≠ 2 ∨ s.memc.job = 0 ∨ s.memState = memRetraining))
    ∧ (∃ (s : State),
        let trains (s : State) : Prop := s.memState = memTraining ∨ s.memState = memRetraining
        trains s ∧ s.memc.step = 2)
    ∧ (∃ (s : State),
        let trains (s : State) : Prop := s.memState = memTraining ∨ s.memState = memRetraining
        trains s ∧ s.memc.step = 2)
    ∧ (∃ (s : State),
        let trains (s : State) : Prop := s.memState = memTraining ∨ s.memState = memRetraining
        trains s ∧ s.memc.step = 3 ∧ s.bit R.SYN_STAT_LOCK 2 = true)
    ∧ (∃ (s : State),
        let trains (s : State) : Prop := s.memState = memTraining ∨ s.memState = memRetraining
        trains s ∧ s.memc.step = 3)
    ∧ (∃ (s : State),
        let trains (s : State) : Prop := s.memState = memTraining ∨ s.memState = memRetraining
        trains s ∧ s.memc.step = 4 ∧ s.rd R.MEM_DRAM_CFG_DENSITY ≠ 3)
    ∧ (∃ (s : State),
        let trains (s : State) : Prop := s.memState = memTraining ∨ s.memState = memRetraining
        trains s ∧ s.memc.step = 4)
    ∧ (∃ (j : Job) (s : State), s.memState = memTraining ∧ s.job? s.memc.job = some j ∧ live j = true ∧ j.notify =
        false)
    ∧ (∃ (s : State), s.domOn dMEM = true ∧ s.memUp = true ∧ s.memWaits = false)
    ∧ (∃ (s : State), s.domOn dMEM = true ∧ (s.memState = memOff ∨ s.memState = memDegraded) ∧ s.memWaits = false ∧
        s.rd R.MEM_DRAM_CFG_DENSITY ≠ 3 ∧ s.holdsHods .dram = false ∧ s.hodQueue = [] ∧ s.hodFits
        { user := .dram, hods := 6, cls := 0, tmo := 0, job := 0 } = true)
    ∧ (∃ (s : State), s.memUp = true)
    ∧ (∃ (s : State), s.memDefers = true ∧ s.sys.uptime < s.memc.deferAt + 1250000000 * s.rd R.MEM_TRAIN_DEFER_MAX)
    ∧ (∃ (s : State), s.memc.deferred = true ∧ s.memUp = true ∧ s.memc.outage = false ∧ (s.memDefers = false ∨
        s.memc.deferAt + 1250000000 * s.rd R.MEM_TRAIN_DEFER_MAX ≤ s.sys.uptime))
    ∧ (∃ (s : State), s.memState = memReady ∧ s.on R.MEM_CTRL_SR_EN = true ∧ s.memc.outage = false ∧ (∀ k : Fin 4, s.on
        (R.ACQ_CH_CFG0_MEM k) = false ∨ s.rd (R.ACQ_CH_STAT_JOB k) ≠ 1))
    ∧ (∃ (k : Fin 4) (s : State), s.on (R.ACQ_CH_CFG0_MEM k) = true ∧ s.rd (R.ACQ_CH_STAT_JOB k) = 1)
    ∧ (∃ (s : State), s.memState = memSr)
    ∧ (∃ (s : State), s.memState = memReady ∧ s.memc.outage = false ∧ s.rd R.MEM_STAT_PANIC ≠ 0)
    ∧ (∃ (s : State), s.rd R.MEM_STAT_PANIC = 0)
    ∧ (∃ (s : State), s.memUp = true)
    ∧ (∃ (s : State), s.memUp = true)
    ∧ (∃ (s : State), s.on R.MEM_CTRL_SCRUB_EN = true)
    ∧ (∃ (n : Nat) (s : State), s.on R.MEM_CTRL_SCRUB_EN = true ∧ 0 < n)
    ∧ (∃ (s : State), s.on R.MEM_CTRL_SCRUB_EN = true ∧ s.on R.MEM_EVENT_UE = false ∧ s.memc.line < 524288) := by
  refine ⟨⟨0, ((st0.wr R.MEM_STAT_STATE memTraining).modMem fun x => { x with step := 1 }), ?_⟩,
          ⟨((st0.wr R.MEM_STAT_STATE memTraining).modMem fun x => { x with step := 2 }), ?_⟩,
          ⟨((st0.wr R.MEM_STAT_STATE memTraining).modMem fun x => { x with step := 2 }), ?_⟩,
          ⟨(((st0.putBit R.SYN_STAT_LOCK 2 true).wr R.MEM_STAT_STATE memTraining).modMem fun x =>
             { x with step := 3 }), ?_⟩,
          ⟨((st0.wr R.MEM_STAT_STATE memTraining).modMem fun x => { x with step := 3 }), ?_⟩,
          ⟨(((st0.wr R.MEM_STAT_STATE memTraining).modMem fun x => { x with step := 4 }).wr R.MEM_DRAM_CFG_DENSITY 0),
             ?_⟩,
          ⟨((st0.wr R.MEM_STAT_STATE memTraining).modMem fun x => { x with step := 4 }), ?_⟩,
          ⟨{ zJob with typ := 1 },
             ((({ ((st0.wr R.MEM_STAT_STATE memTraining).wr R.MEM_STAT_STATE memTraining) with cmd.jobs := [{ zJob with typ := 1 }] }
             : State)).modMem fun x => { x with job := 268435456 }), ?_⟩,
          ⟨(st0.wr R.MEM_STAT_STATE memReady), ?_⟩,
          ⟨(st0.wr R.MEM_DRAM_CFG_DENSITY 2), ?_⟩,
          ⟨((st0.wr R.MEM_STAT_STATE memReady).modMem fun x => { x with deferred := true }), ?_⟩,
          ⟨((st0.wr R.MEM_TRAIN_DEFER_MAX 1).wr R.MEM_STAT_PANIC 1), ?_⟩,
          ⟨((st0.wr R.MEM_STAT_STATE memReady).modMem fun x => { x with deferred := true }), ?_⟩,
          ⟨((st0.wr R.MEM_STAT_STATE memReady).wr (R.MEM_CTRL_SR_EN) 1), ?_⟩,
          ⟨0, ((st0.wr (R.ACQ_CH_CFG0_MEM 0) 1).wr (R.ACQ_CH_STAT_JOB 0) (1)), ?_⟩,
          ⟨((st0.wr R.MEM_STAT_STATE memSr).wr R.MEM_STAT_STATE memSr), ?_⟩,
          ⟨(((st0.wr R.MEM_STAT_STATE memReady).wr R.MEM_STAT_STATE memReady).wr R.MEM_STAT_PANIC 1), ?_⟩,
          ⟨(st0.wr R.MEM_STAT_PANIC (0)), ?_⟩,
          ⟨(st0.wr R.MEM_STAT_STATE memReady), ?_⟩,
          ⟨(st0.wr R.MEM_STAT_STATE memReady), ?_⟩,
          ⟨(st0.wr (R.MEM_CTRL_SCRUB_EN) 1), ?_⟩,
          ⟨1, (st0.wr (R.MEM_CTRL_SCRUB_EN) 1), ?_⟩,
          ⟨((st0.wr (R.MEM_CTRL_SCRUB_EN) 1).wr (R.MEM_EVENT_UE) 0), ?_⟩⟩
  all_goals decide +kernel

theorem wit_GovernorAndCalibration :
    (∃ (r : HodReq) (q : List HodReq) (s : State), s.hodQueue = r :: q ∧ s.hodFits r = true)
    ∧ (∃ (r : HodReq) (q : List HodReq) (s : State), s.hodQueue = r :: q ∧ s.hodFits r = false)
    ∧ (∃ (u : HodUser) (r : HodReq) (s : State), (s.hodQueue.find? fun x => x.user == u) = some r)
    ∧ (∃ (r : HodReq) (j : Job) (s : State), (r.user = .sco ∨ ∃ g, r.user = .group g) ∧ s.job? r.job = some j ∧ live j
        = true ∧ j.notify = false)
    ∧ (∃ (n : Fin 4) (s : State), s.pstate n = stIdle ∧ s.portOn n = true ∧ s.mgt.calRun ≠ some n.val ∧ s.mgt.calRun ≠
        some (4 + n.val))
    ∧ (∃ (t : Fin 9) (s : State), s.on R.MGT_CAL_CFG_AUTO = true ∧ (s.mgt.calTj[t]).isSome = true)
    ∧ (∃ (t : Fin 9) (s : State), s.mgt.calRetry.testBit t = true)
    ∧ (∃ (t : Nat) (s : State), s.mgt.calRun = none ∧ s.mgt.calWait = none ∧ 3 ≤ s.sys.mode ∧ s.calPick = some t ∧
        s.calJobOf t = none ∧ s.hodQueue = [] ∧ s.holdsHods (.cal t) = false ∧ s.hodFits
        { user := .cal t, hods := 2, cls := 1, tmo := 0, job := 0 } = true)
    ∧ (∃ (t : Nat) (s : State), t < 9 ∧ s.mgt.calRun = some t ∧ s.mgt.calIn = false)
    ∧ (∃ (t : Fin 9) (s : State), s.bit R.MGT_CAL_PEND_BLOCKED t = true) := by
  refine ⟨⟨zHodReq, [], { st0 with hodQueue := [zHodReq] }, ?_⟩,
          ⟨{ zHodReq with hods := 257 }, [], { st0 with hodQueue := [{ zHodReq with hods := 257 }] }, ?_⟩,
          ⟨.mode, zHodReq, { st0 with hodQueue := [zHodReq] }, ?_⟩,
          ⟨{ zHodReq with user := .sco, job := 268435456 }, { zJob with typ := 1 },
             (({ st0 with cmd.jobs := [{ zJob with typ := 1 }] } : State)), (Or.inl rfl), ?_⟩,
          ⟨0, (st0.wr (R.PPE_STAT_STATE 0) stIdle), ?_⟩,
          ⟨0,
             (({ ((st0.wr (R.MGT_CAL_CFG_AUTO) 1).wr R.MGT_CAL_CFG_AUTO 1) with mgt.calTj := Vector.replicate 9 (some 0) }
             : State)), ?_⟩,
          ⟨0, (({ st0 with mgt.calRetry := 1 } : State)), ?_⟩,
          ⟨0, ((st0.putBit R.MGT_CAL_PEND_PENDING 0 true).wr (R.PPE_STAT_STATE 0) 0), ?_⟩,
          ⟨0, (({ st0 with mgt.calRun := some 0 } : State)), ?_⟩,
          ⟨0, (st0.putBit R.MGT_CAL_PEND_BLOCKED 0 true), ?_⟩⟩
  all_goals decide +kernel

theorem wit_SensorsUpdateSnapshot :
    (∃ (s : State), s.domOn dMGT = true ∧ s.chadihus = true)
    ∧ (∃ (s : State), s.chadihus = true)
    ∧ (∃ (s : State), s.domOn dMGT = true)
    ∧ (∃ (u : Update) (j : Job) (s : State), s.mgt.update = some u ∧ s.job? u.job = some j ∧ live j = true ∧ j.notify =
        false)
    ∧ (∃ (h : Nat) (n : Nat) (j : Job) (s : State), s.Canonical ∧ s.mgt.snap = some (h, n) ∧ s.job? h = some j ∧ live j
        = true ∧ j.notify = false) := by
  refine ⟨⟨st0, ?_⟩,
          ⟨st0, ?_⟩,
          ⟨st0, ?_⟩,
          ⟨{ zUpdate with job := 268435456 }, { zJob with typ := 1 },
             (({ (({ st0 with cmd.jobs := [{ zJob with typ := 1 }] } : State)) with mgt.update := some { zUpdate with job := 268435456 } }
             : State)), ?_⟩,
          ⟨268435456, 0, { zJob with typ := 1 },
             (({ (({ st0 with cmd.jobs := [{ zJob with typ := 1 }] } : State)) with mgt.snap := some (268435456, 0) }
             : State)), ?_, ?_, ?_, ?_, ?_⟩⟩
  all_goals first | decide +kernel | (unfold State.Canonical; decide +kernel)

theorem wit_ArrayMaster :
    (∃ (p : AryPkt) (s : State),
        let from_ (s : State) (p : AryPkt) : Prop := ∃ m ∈ s.ary.roster, m.id = srcId p ∧ m.addr = p.addr
        AryHears s tJOIN p ∧ s.aryMaster = true ∧ from_ s p)
    ∧ (∃ (p : AryPkt) (s : State), AryHears s tJOIN p ∧ s.aryMaster = true ∧ (∀ m ∈ s.ary.roster, m.id ≠ srcId p) ∧
        (bodyWord p 0).testBit 0 = s.on R.ARY_STAT_TIME ∧ (bodyWord p 0).testBit 1 = true)
    ∧ (∃ (p : AryPkt) (c : Nat) (s : State),
        let from_ (s : State) (p : AryPkt) : Prop := ∃ m ∈ s.ary.roster, m.id = srcId p ∧ m.addr = p.addr
        AryHears s tJOIN p ∧ s.aryMaster = true ∧ ¬ from_ s p ∧ (c = 1 ∧ (∃ m ∈ s.ary.roster, m.id = srcId p) ∨ (∀ m ∈
          s.ary.roster, m.id ≠ srcId p) ∧ (c = 3 ∧ (bodyWord p 0).testBit 0 ≠ s.on R.ARY_STAT_TIME ∨ c = 4 ∧ (bodyWord
          p 0).testBit 0 = s.on R.ARY_STAT_TIME ∧ (bodyWord p 0).testBit 1 = false)))
    ∧ (∃ (p : AryPkt) (s : State),
        let from_ (s : State) (p : AryPkt) : Prop := ∃ m ∈ s.ary.roster, m.id = srcId p ∧ m.addr = p.addr
        let member (s : State) (p : AryPkt) : Prop := from_ s p ∧ srcId p ≠ s.ary.id
        AryHears s tBEAT_ACK p ∧ s.aryMaster = true ∧ member s p)
    ∧ (∃ (p : AryPkt) (s : State),
        let from_ (s : State) (p : AryPkt) : Prop := ∃ m ∈ s.ary.roster, m.id = srcId p ∧ m.addr = p.addr
        let member (s : State) (p : AryPkt) : Prop := from_ s p ∧ srcId p ≠ s.ary.id
        AryHears s tARM_ACK p ∧ s.aryMaster = true ∧ s.on R.ARY_STAT_ARMED = true ∧ member s p ∧ s.ary.disarming =
          false)
    ∧ (∃ (p : AryPkt) (s : State),
        let from_ (s : State) (p : AryPkt) : Prop := ∃ m ∈ s.ary.roster, m.id = srcId p ∧ m.addr = p.addr
        let member (s : State) (p : AryPkt) : Prop := from_ s p ∧ srcId p ≠ s.ary.id
        AryHears s tARM_ACK p ∧ s.aryMaster = true ∧ s.on R.ARY_STAT_ARMED = true ∧ member s p ∧ s.ary.disarming =
          true ∧ JobRuns s s.ary.armJob ∧ (∀ m ∈ s.ary.roster, m.id = srcId p ∨ m.armAck = true ∨ s.rd
          (R.ARY_MEM_STATE m.id) = 4))
    ∧ (∃ (p : AryPkt) (s : State),
        let from_ (s : State) (p : AryPkt) : Prop := ∃ m ∈ s.ary.roster, m.id = srcId p ∧ m.addr = p.addr
        let member (s : State) (p : AryPkt) : Prop := from_ s p ∧ srcId p ≠ s.ary.id
        AryHears s tLEAVE p ∧ s.aryMaster = true ∧ member s p ∧ s.ary.disarming = false)
    ∧ (∃ (p : AryPkt) (s : State),
        let from_ (s : State) (p : AryPkt) : Prop := ∃ m ∈ s.ary.roster, m.id = srcId p ∧ m.addr = p.addr
        let member (s : State) (p : AryPkt) : Prop := from_ s p ∧ srcId p ≠ s.ary.id
        s.aryMaster = true ∧ ¬ member s p)
    ∧ (∃ (p : AryPkt) (s : State), AryHears s tFIRE p ∧ s.aryMaster = true ∧ 2 ≤ s.aryState) := by
  refine ⟨⟨(aryPk tJOIN 0 []), (stMas.wr R.ARY_STAT_MASTER 1), ?_, ?_, ?_⟩,
          ⟨(aryPk tJOIN 0 [2]), ((stMem.wr R.ARY_STAT_MASTER 1).wr R.ARY_STAT_MASTER 1), ?_, ?_, ?_, ?_, ?_⟩,
          ⟨(aryPk tJOIN 0 []), 4, ((stMem.wr R.ARY_STAT_MASTER 1).wr R.ARY_STAT_MASTER 1), ?_, ?_, ?_, ?_⟩,
          ⟨(aryPk tBEAT_ACK 0 []), (({ (stMas.wr R.ARY_STAT_MASTER 1) with ary.id := 1 } : State)), ?_, ?_, ?_⟩,
          ⟨(aryPk tARM_ACK 0 []), (({ ((stMas.wr R.ARY_STAT_MASTER 1).wr (R.ARY_STAT_ARMED) 1) with ary.id := 1 } :
             State)), ?_, ?_, ?_, ?_, ?_⟩,
          ⟨(aryPk tARM_ACK 0 []),
             (({ (({ ((stMas.wr R.ARY_STAT_MASTER 1).wr (R.ARY_STAT_ARMED) 1) with ary.id := 1 } : State)) with ary.armJob := 268435456, ary.disarming := true }
             : State)), ?_, ?_, ?_, ?_, ?_, jobRuns_of ?_, ?_⟩,
          ⟨(aryPk tLEAVE 0 []), (({ (stMas.wr R.ARY_STAT_MASTER 1) with ary.id := 1 } : State)), ?_, ?_, ?_, ?_⟩,
          ⟨(aryPk tBEAT_ACK 0 []), (stMas.wr R.ARY_STAT_MASTER 1), ?_⟩,
          ⟨(aryPk tFIRE 0 []), (stMas.wr R.ARY_STAT_MASTER 1), ?_, ?_, ?_⟩⟩
  all_goals first | decide +kernel | (unfold AryHears; decide +kernel)

theorem wit_ArrayMember :
    (∃ (p : AryPkt) (s : State), AryHears s tACCEPT p ∧ s.aryState = aryJoining ∧ JobRuns s s.ary.joinJob)
    ∧ (∃ (p : AryPkt) (s : State), AryHears s tREFUSE p ∧ s.aryState = aryJoining ∧ JobRuns s s.ary.joinJob)
    ∧ (∃ (p : AryPkt) (s : State), AryHears s tBEAT p ∧ s.aryMaster = false ∧ 2 ≤ s.aryState)
    ∧ (∃ (p : AryPkt) (s : State), AryHears s tARM p ∧ s.aryMaster = false ∧ 2 ≤ s.aryState ∧ s.aryArmable (bodyWord p
        0) = [])
    ∧ (∃ (p : AryPkt) (k : Fin 4) (s : State), AryHears s tARM p ∧ s.aryMaster = false ∧ 2 ≤ s.aryState ∧ s.domOn dCORE
        = true ∧ s.aryArmable (bodyWord p 0) = [k] ∧ s.chLive k = false ∧ s.armCheck k = (OK, 0))
    ∧ (∃ (p : AryPkt) (k : Fin 4) (st : Nat) (c : Nat) (s : State), AryHears s tARM p ∧ s.aryMaster = false ∧ 2 ≤
        s.aryState ∧ s.domOn dCORE = true ∧ s.aryArmable (bodyWord p 0) = [k] ∧ s.chLive k = false ∧ s.armCheck k =
        (st, c) ∧ st ≠ OK)
    ∧ (∃ (p : AryPkt) (s : State), AryHears s tDISARM p ∧ s.aryMaster = false ∧ 2 ≤ s.aryState)
    ∧ (∃ (p : AryPkt) (s : State), AryHears s tCANCEL p ∧ s.aryMaster = false ∧ 2 ≤ s.aryState)
    ∧ (∃ (k : Fin 4) (s : State), s.aryChans = [k])
    ∧ (∃ (p : AryPkt) (s : State), AryHears s tFIRE p ∧ s.aryMaster = false ∧ 2 ≤ s.aryState)
    ∧ (∃ (p : AryPkt) (s : State), AryHears s tDISSOLVE p ∧ s.aryMaster = false ∧ 2 ≤ s.aryState ∧ s.ary.armJob = 0 ∧
        s.aryChans = [] ∧ JobRuns s s.ary.joinJob)
    ∧ (∃ (p : AryPkt) (s : State), s.on (R.HIF_ETH_CFG_EN s.aryEth) = true ∧ s.ethUp s.aryEth = true ∧ (s.aryState =
        aryOff ∨ aryCrcOk p tFIRE = false ∨ p.no.toNat ≠ s.rd R.ARY_ARRAY_NO_VALUE ∨ s.aryKnows p.addr = false)) := by
  refine ⟨⟨(aryPk tACCEPT 0 []), (({ (stMem.wr R.ARY_STAT_STATE aryJoining) with ary.joinJob := 268435456 } : State)),
             ?_, ?_, jobRuns_of ?_⟩,
          ⟨(aryPk tREFUSE 0 []), (({ (stMem.wr R.ARY_STAT_STATE aryJoining) with ary.joinJob := 268435456 } : State)),
             ?_, ?_, jobRuns_of ?_⟩,
          ⟨(aryPk tBEAT 0 []), (stMem.wr R.ARY_STAT_MASTER 0), ?_, ?_, ?_⟩,
          ⟨(aryPk tARM 0 []), (stMem.wr R.ARY_STAT_MASTER 0), ?_, ?_, ?_, ?_⟩,
          ⟨(aryPk tARM 0 [1]), 0, (((((((stMem.wr R.ARY_STAT_MASTER 0).wr (R.ACQ_CH_CFG0_ARRAY 0) 1).wr
             (R.ACQ_CH_SEG_UNITS 0) 64).wr (R.ACQ_CH_POST_UNITS 0) 32).wr (R.ACQ_CH_COUNT_NSEG 0) 1).wr
             (R.ACQ_CH_CFG0_SRC 0) 0).wr (R.ACQ_CH_SIZE_VALUE 0) 1), ?_, ?_, ?_, ?_, ?_, ?_, ?_⟩,
          ⟨(aryPk tARM 0 [1]), 0, E_ACQ_SIZE, 4, ((stMem.wr R.ARY_STAT_MASTER 0).wr (R.ACQ_CH_CFG0_ARRAY 0) 1), ?_,
             ?_, ?_, ?_, ?_, ?_, ?_, ?_⟩,
          ⟨(aryPk tDISARM 0 []), (stMem.wr R.ARY_STAT_MASTER 0), ?_, ?_, ?_⟩,
          ⟨(aryPk tCANCEL 0 []), (stMem.wr R.ARY_STAT_MASTER 0), ?_, ?_, ?_⟩,
          ⟨0, (({ (st0.wr (R.ACQ_CH_STAT_JOB 0) 1) with ary.chans := 1 } : State)), ?_⟩,
          ⟨(aryPk tFIRE 0 []), (stMem.wr R.ARY_STAT_MASTER 0), ?_, ?_, ?_⟩,
          ⟨(aryPk tDISSOLVE 0 []), (({ (stMem.wr R.ARY_STAT_MASTER 0) with ary.joinJob := 268435456 } : State)), ?_,
             ?_, ?_, ?_, ?_, jobRuns_of ?_⟩,
          ⟨(aryPk tFIRE 5 []), stMem, ?_⟩⟩
  all_goals first | decide +kernel | (unfold AryHears; decide +kernel)

theorem wit_ArrayTimers :
    (∃ (s : State), s.ethUp s.aryEth = true)
    ∧ (∃ (s : State), s.aryMaster = true ∧ s.aryState = ARY_JOINED ∧ (s.ary.roster.map Member.id).Nodup)
    ∧ (∃ (i : BitVec 12) (s : State), s.aryMaster = true ∧ i.toNat ≠ s.ary.id ∧ s.rd (R.ARY_MEM_STATE i.toNat) = 4 ∧
        s.ary.disarming = false)
    ∧ (∃ (s : State), s.on R.ARY_STAT_ARMED = true ∧ s.ary.disarming = false)
    ∧ (∃ (s : State), s.ary.disarming = true ∧ JobRuns s s.ary.armJob)
    ∧ (∃ (s : State), s.domOn dCORE = true ∧ s.aryMaster = false)
    ∧ (∃ (s : State), s.aryMaster = false ∧ s.aryState = ARY_JOINED)
    ∧ (∃ (s : State), s.aryState = ARY_ORPHAN ∧ s.aryChans = [] ∧ JobRuns s s.ary.joinJob)
    ∧ (∃ (s : State), s.aryState = aryJoining)
    ∧ (∃ (s : State), s.aryState = aryJoining ∧ JobRuns s s.ary.joinJob) := by
  refine ⟨⟨stMem, ?_⟩,
          ⟨((stMas.wr R.ARY_STAT_MASTER 1).wr R.ARY_STAT_STATE ARY_JOINED), ?_⟩,
          ⟨0, ((({ ((stMas.wr R.ARY_STAT_MASTER 1).wr (R.ARY_MEM_STATE 0) (4)) with ary.id := 1 } : State)).wr
             (R.ARY_MEM_STATE 0) 4), ?_⟩,
          ⟨(st0.wr (R.ARY_STAT_ARMED) 1), ?_⟩,
          ⟨(({ stMas with ary.armJob := 268435456, ary.disarming := true } : State)), ?_, jobRuns_of ?_⟩,
          ⟨(st0.wr R.ARY_STAT_MASTER 0), ?_⟩,
          ⟨((st0.wr R.ARY_STAT_MASTER 0).wr R.ARY_STAT_STATE ARY_JOINED), ?_⟩,
          ⟨(({ (stMem.wr R.ARY_STAT_STATE ARY_ORPHAN) with ary.joinJob := 268435456 } : State)), ?_, ?_, jobRuns_of
             ?_⟩,
          ⟨(st0.wr R.ARY_STAT_STATE aryJoining), ?_⟩,
          ⟨(({ (stMem.wr R.ARY_STAT_STATE aryJoining) with ary.joinJob := 268435456 } : State)), ?_, jobRuns_of ?_⟩⟩
  all_goals decide +kernel

theorem wit_RegisterWrites :
    (∃ (s : State), s.pcieDecode ≠ .serve)
    ∧ (∃ (off : BitVec 24) (z : Bool) (s : State), s.pcieDecode = .serve ∧ (z = false ∨ off.toNat % 4 ≠ 0))
    ∧ (∃ (off : BitVec 24) (d : Nat) (s : State), s.pcieDecode = .serve ∧ off.toNat % 4 = 0 ∧ domainOf off.toNat = some
        d ∧ s.domOn d = false ∧ retainedAt off.toNat = false)
    ∧ (∃ (off : BitVec 24) (s : State), s.pcieDecode = .serve ∧ off.toNat % 4 = 0 ∧ (domainOf off.toNat = none ∨ (∃ d,
        domainOf off.toNat = some d ∧ s.domOn d = true) ∧ regAt off.toNat = none))
    ∧ (∃ (off : BitVec 24) (h : Hit) (s : State), s.pcieDecode = .serve ∧ s.domOn dMGT = true ∧ 0x20000 ≤ off.toNat ∧
        off.toNat < 0x40000 ∧ off.toNat % 4 = 0 ∧ regAt off.toNat = some h)
    ∧ (∃ (s : State), s.pcieDecode = .serve ∧ s.domOn dMGT = true)
    ∧ (∃ (s : State), s.pcieDecode = .serve ∧ s.domOn dCORE = true)
    ∧ (∃ (s : State), s.pcieDecode = .serve ∧ s.domOn dCORE = true ∧ s.on R.HIF_SQ_CFG_EN = false)
    ∧ (∃ (v : Word) (s : State), s.pcieDecode = .serve ∧ s.domOn dCORE = true ∧ s.on R.HIF_SQ_CFG_EN = true ∧
        v.toNat.testBit 31 = true)
    ∧ (∃ (off : BitVec 24) (h : Hit) (s : State), s.pcieDecode = .serve ∧ off.toNat % 4 = 0 ∧ regAt off.toNat = some h
        ∧ h.reg.wide = true ∧ h.hi = false ∧ (∃ d, domainOf off.toNat = some d ∧ s.domOn d = true))
    ∧ (∃ (n : Fin 4) (s : State), s.pcieDecode = .serve ∧ s.domOn dCORE = true ∧ s.domOn (dPORT n) = true ∧ s.busyPort
        n = true)
    ∧ (∃ (off : BitVec 24) (h : Hit) (s : State), s.pcieDecode = .serve ∧ off.toNat % 4 = 0 ∧ regAt off.toNat = some h
        ∧ h.reg.wide = true ∧ h.hi = true ∧ (∃ d, domainOf off.toNat = some d ∧ s.domOn d = true))
    ∧ (∃ (s : State), s.pcieDecode = .serve ∧ s.domOn dCORE = true ∧ s.on R.HIF_SQ_CFG_EN = false ∧ Bank.get s.wbuf
        0x340010 0 < 2 ^ 32) := by
  refine ⟨⟨State.reset, ?_⟩,
          ⟨0, false, st0, ?_⟩,
          ⟨0x2C0000, dMEM, (({ st0 with sys.domains := 2 } : State)), ?_⟩,
          ⟨0x3C0000, st0, ?_, ?_, (Or.inl (by decide))⟩,
          ⟨0x20000, (hit 0x20000), st0, ?_⟩,
          ⟨st0, ?_⟩,
          ⟨st0, ?_⟩,
          ⟨(st0.wr (R.HIF_SQ_CFG_EN) 0), ?_⟩,
          ⟨0x80000000, (st0.wr (R.HIF_SQ_CFG_EN) 1), ?_⟩,
          ⟨0x340010, (hit 0x340010), st0, ?_, ?_, ?_, ?_, ?_, (⟨7, by decide⟩)⟩,
          ⟨0, (st0.wr (R.PPE_STAT_STATE 0) stRun), ?_⟩,
          ⟨0x340014, (hit 0x340014), st0, ?_, ?_, ?_, ?_, ?_, (⟨7, by decide⟩)⟩,
          ⟨(st0.wr (R.HIF_SQ_CFG_EN) 0), ?_⟩⟩
  all_goals decide +kernel

theorem wit_RegisterReads :
    (∃ (s : State), s.pcieDecode = .zero)
    ∧ (∃ (off : BitVec 24) (z : Bool) (s : State), s.pcieDecode = .serve ∧ (z = false ∨ off.toNat % 4 ≠ 0))
    ∧ (∃ (off : BitVec 24) (d : Nat) (s : State), s.pcieDecode = .serve ∧ off.toNat % 4 = 0 ∧ domainOf off.toNat = some
        d ∧ s.domOn d = false ∧ retainedAt off.toNat = false)
    ∧ (∃ (off : BitVec 24) (s : State), s.pcieDecode = .serve ∧ off.toNat % 4 = 0 ∧ (domainOf off.toNat = none ∨ (∃ d,
        domainOf off.toNat = some d ∧ s.domOn d = true) ∧ regAt off.toNat = none))
    ∧ (∃ (off : BitVec 24) (h : Hit) (s : State), s.pcieDecode = .serve ∧ s.domOn dMGT = true ∧ 0x20000 ≤ off.toNat ∧
        off.toNat < 0x40000 ∧ off.toNat % 4 = 0 ∧ regAt off.toNat = some h)
    ∧ (∃ (s : State), s.pcieDecode = .serve ∧ s.domOn dTIME = true ∧ s.now < 2 ^ 64)
    ∧ (∃ (s : State), s.pcieDecode = .serve ∧ s.domOn dTIME = true) := by
  refine ⟨⟨State.reset, ?_⟩,
          ⟨0, false, st0, ?_⟩,
          ⟨0x2C0000, dMEM, (({ st0 with sys.domains := 2 } : State)), ?_⟩,
          ⟨0x3C0000, st0, ?_, ?_, (Or.inl (by decide))⟩,
          ⟨0x20000, (hit 0x20000), st0, ?_⟩,
          ⟨st0, ?_⟩,
          ⟨st0, ?_⟩⟩
  all_goals decide +kernel

theorem wit_Bar2Access :
    (∃ (s : State), s.pcieDecode = .zero)
    ∧ (∃ (off : BitVec 30) (n : BitVec 7) (s : State), s.pcieDecode = .serve ∧ bar2Shape off.toNat n.toNat = true)
    ∧ (∃ (off : BitVec 30) (l : List Byte) (s : State), s.pcieDecode = .serve ∧ bar2Shape off.toNat l.length = true) := by
  refine ⟨⟨State.reset, ?_⟩,
          ⟨0, 1, st0, ?_⟩,
          ⟨0, [0], st0, ?_⟩⟩
  all_goals decide +kernel

theorem wit_CommandChecks :
    (∃ (i : Instr) (op : Nat) (p : Packet), packetRow i = some (op, p))
    ∧ (∃ (n : Nat) (q : Packet) (s : State), s.cmd.waiting = [(n, q)] ∧ s.ready (n, q) = true)
    ∧ (∃ (s : State), (∀ e ∈ s.cmd.waiting, s.ready e = false)) := by
  refine ⟨⟨(.nop (pk [])), 0x100, (pk []), rfl⟩,
          ⟨0, (pk []), (({ st0 with cmd.waiting := [(0, pk [])] } : State)), ?_⟩,
          ⟨st0, ?_⟩⟩
  all_goals decide +kernel

theorem wit_RepliesAndJobs :
    (∃ (w0 : Nat) (w1 : Nat) (w2 : Nat) (w3 : Nat) (l : List Nat), w0 < 2 ^ 32 ∧ w1 < 2 ^ 32 ∧ w2 < 2 ^ 32 ∧ w3 < 2 ^
        32 ∧ (∀ w ∈ l, w < 2 ^ 32))
    ∧ (∃ (r : Reply), r.op < 2 ^ 16 ∧ r.tag < 2 ^ 8 ∧ r.kind < 2 ^ 8 ∧ r.status < 2 ^ 16 ∧ r.detail < 2 ^ 16)
    ∧ (∃ (m : Fin 2) (a : Nat) (u : Nat) (p : Packet), p.req = .eth m a u)
    ∧ (∃ (s : State), (∃ e, e < 32 ∧ ∀ k ∈ s.cmd.jobs, k.entry ≠ e))
    ∧ (∃ (h : Nat) (j : Job) (st : JobState) (s : State), s.job? h = some j ∧ live j = true ∧ (st = .done ∨ st =
        .cancelled ∨ st = .failed)) := by
  refine ⟨⟨0, 0, 0, 0, [], ?_⟩,
          ⟨zReply, ?_⟩,
          ⟨0, 0, 0, { pk [] with req := .eth 0 0 0 }, ?_⟩,
          ⟨st0, ?_⟩,
          ⟨268435456, { zJob with typ := 1 }, .done, (({ st0 with cmd.jobs := [{ zJob with typ := 1 }] } : State)),
             ?_⟩⟩
  all_goals decide +kernel

theorem wit_SystemOpcodes :
    (∃ (p : Packet) (s : State), p.words = [] ∧ Admitted s { p with op := 0x100 })
    ∧ (∃ (p : Packet) (s : State), Admitted s { p with op := 0x900 })
    ∧ (∃ (p : Packet) (s : State), p.words = [] ∧ s.sys.phase ≠ .footRom ∧ s.domOn dMGT = true ∧ Admitted s
        { p with op := 0x101 })
    ∧ (∃ (p : Packet) (s : State), p.words = [] ∧ s.sys.phase ≠ .footRom ∧ Admitted s { p with op := 0x102 })
    ∧ (∃ (p : Packet) (off : Nat) (n : Nat) (s : State), p.words = [off, n] ∧ off % 4 = 0 ∧ 1 ≤ n ∧ n ≤ 256 ∧ off + 4 *
        n ≤ 0x1000000 ∧ Admitted s { p with op := 0x103 })
    ∧ (∃ (p : Packet) (off : Nat) (l : List Nat) (s : State), p.words = off :: l.length :: l ∧ off % 4 = 0 ∧ l ≠ [] ∧
        l.length ≤ 1018 ∧ off + 4 * l.length ≤ 0x1000000 ∧ Admitted s { p with op := 0x104 })
    ∧ (∃ (p : Packet) (a : Nat) (n : Nat) (s : State), a < 2 ^ 63 ∧ a % 4 = 0 ∧ n % 4 = 0 ∧ 4 ≤ n ∧ n ≤ 65536 ∧ p.words
        = [a % 2 ^ 32, a / 2 ^ 32, n] ∧ s.footing = false ∧ a + n ≤ 0x04000000 ∧ s.domOn dMEM = true ∧ Admitted s
        { p with op := 0x105 })
    ∧ (∃ (p : Packet) (a : Nat) (l : List Nat) (s : State), a < 2 ^ 63 ∧ a % 4 = 0 ∧ l ≠ [] ∧ l.length ≤ 1017 ∧ p.words
        = [a % 2 ^ 32, a / 2 ^ 32 + 2 ^ 31] ++ l ∧ s.degraded = false ∧ a + 4 * l.length ≤ s.capacity ∧ Admitted s
        { p with op := 0x106 })
    ∧ (∃ (p : Packet) (a : Nat) (w : Nat) (s : State), a % 4 = 0 ∧ a < 0x04000000 ∧ p.words = [a, 0, w] ∧ s.domOn dMEM
        = true ∧ Admitted s { p with op := 0x106 })
    ∧ (∃ (p : Packet) (f : Bool) (s : State), p.words = [if f then 1 else 0, 0xA55A] ∧ Admitted s
        { p with op := 0x107 })
    ∧ (∃ (p : Packet) (w : Nat) (k : Nat) (s : State), p.words = [w, k] ∧ w < 2 ∧ k ≠ 0xA55A ∧ Admitted s
        { p with op := 0x107 }) := by
  refine ⟨⟨(pk ([])), st0, ?_, admitted_spi rfl ?_⟩,
          ⟨(pk ([])), st0, admitted_spi rfl ?_⟩,
          ⟨(pk ([])), st0, ?_, ?_, ?_, admitted_spi rfl ?_⟩,
          ⟨(pk ([])), st0, ?_, ?_, admitted_spi rfl ?_⟩,
          ⟨(pk ([0, 256])), 0, 256, st0, ?_, ?_, ?_, ?_, ?_, admitted_spi rfl ?_⟩,
          ⟨(pk [0, 1, 0]), 0, [0], st0, ?_, ?_, ?_, ?_, ?_, admitted_spi rfl ?_⟩,
          ⟨(pk [0, 0, 4]), 0, 4, st0, ?_, ?_, ?_, ?_, ?_, ?_, ?_, ?_, ?_, admitted_spi rfl ?_⟩,
          ⟨(pk ([0 % 2 ^ 32, 0 / 2 ^ 32 + 2 ^ 31] ++ [0])), 0, [0], (st0.wr R.MEM_DRAM_STAT_CAP_MB 1), ?_, ?_, ?_, ?_,
             ?_, ?_, ?_, admitted_spi rfl ?_⟩,
          ⟨(pk ([0, 0, 0])), 0, 0, st0, ?_, ?_, ?_, ?_, admitted_spi rfl ?_⟩,
          ⟨(pk ([if true then 1 else 0, 0xA55A])), true, st0, ?_, admitted_spi rfl ?_⟩,
          ⟨(pk ([0, 0])), 0, 0, st0, ?_, ?_, ?_, admitted_spi rfl ?_⟩⟩
  all_goals decide +kernel

theorem wit_ConfigurationOpcodes :
    (∃ (p : Packet) (w : Nat) (s : State), p.words = [w] ∧ w ||| 0xF13 = 0xF13 ∧ s.portOn (parPort p 0) = true ∧
        Admitted s { p with op := 0x200 })
    ∧ (∃ (p : Packet) (w : Nat) (s : State), p.words = [w] ∧ w ||| 0xF03 = 0xF03 ∧ Admitted s { p with op := 0x201 })
    ∧ (∃ (p : Packet) (k : Nat) (s : State), p.words = [k] ∧ k < 2 ∧ Admitted s { p with op := 0x202 })
    ∧ (∃ (p : Packet) (s : State), p.words = [] ∧ Admitted s { p with op := 0x203 })
    ∧ (∃ (p : Packet) (n : Fin 4) (v : Nat) (s : State), p.words = [n.val, v] ∧ v < 2 ^ 24 ∧ Admitted s
        { p with op := 0x205 })
    ∧ (∃ (p : Packet) (n : Fin 4) (k : Nat) (c0 : Nat) (c1 : Nat) (o : Nat) (l : List Nat) (s : State), k < 16 ∧
        l.length = 288 ∧ s.domOn dCORE = true ∧ p.words = [n.val + 256 * k, c0, c1, o] ++ l ∧ c0 ||| rwMask (offOf
        (R.FDC_PROF_CFG0_EN n k)) = rwMask (offOf (R.FDC_PROF_CFG0_EN n k)) ∧ c1 ||| rwMask (offOf (R.FDC_PROF_CFG1_G1
        n k)) = rwMask (offOf (R.FDC_PROF_CFG1_G1 n k)) ∧ Admitted s { p with op := 0x206 })
    ∧ (∃ (p : Packet) (k : Nat) (w : Nat) (s : State), k < 16 ∧ w < 512 ∧ p.words = [k, w + 2 ^ 16] ∧ s.domOn dCORE =
        true ∧ Admitted s { p with op := 0x207 })
    ∧ (∃ (p : Packet) (i : Nat) (h : Nat) (l : Nat) (wh : Nat) (wl : Nat) (on : Nat) (off : Nat) (e : Bool) (s :
        State), i < 256 ∧ s.domOn dCORE = true ∧ h < 2 ^ 24 ∧ l < 2 ^ 24 ∧ wh < 2 ^ 24 ∧ wl < 2 ^ 24 ∧ 1 ≤ on ∧ on < 2
        ^ 16 ∧ 1 ≤ off ∧ off < 2 ^ 16 ∧ p.words = [i, 1 + (if e then 2 ^ 31 else 0), h, l, wh, wl, on + off * 2 ^ 16,
        0] ∧ Admitted s { p with op := 0x208 })
    ∧ (∃ (p : Packet) (n : Fin 4) (c : Nat) (w : Nat) (s : State), c < 2 ^ 16 ∧ w < 2 ^ 15 ∧ p.words = [n.val, c + w *
        2 ^ 16] ∧ Admitted s { p with op := 0x209 })
    ∧ (∃ (p : Packet) (x : Nat) (a : Nat) (b : Nat) (s : State), p.words = [x, a, b] ∧ x ||| 0x113 = 0x113 ∧ Admitted s
        { p with op := 0x20A })
    ∧ (∃ (p : Packet) (w : Nat) (r : List Nat) (s : State), w ||| 0xFFFFF7 = 0xFFFFF7 ∧ p.words = w :: r ∧ (w.testBit 1
        = true → r.length = 9 ∧ w / 2 ^ 16 ≤ 128) ∧ (w.testBit 1 = false → w / 2 ^ 16 ≤ 32 ∧ ∃ u a g, r = [u, a, 0, 0,
        0, g, 0, 0, 0]) ∧ (∀ x ∈ r, x < 2 ^ 32) ∧ Admitted s { p with op := 0x20B })
    ∧ (∃ (p : Packet) (w : Nat) (a : Nat) (b : Nat) (c : Nat) (e : Nat) (s : State), w ||| 0x7F0F = 0x7F0F ∧ p.words =
        [w, a, b, c, e] ∧ Admitted s { p with op := 0x20C })
    ∧ (∃ (p : Packet) (s : State), p.words = [] ∧ Admitted s { p with op := 0x20D })
    ∧ (∃ (p : Packet) (g : Fin 8) (m : Nat) (a : Nat) (b : Nat) (dr : Bool) (s : State), m < 256 ∧ a < 2 ^ 32 ∧ p.words
        = [g.val + 256 * m, if dr then 1 else 0, a, b] ∧ a % 32 = 0 ∧ Admitted s { p with op := 0x210 }) := by
  refine ⟨⟨(pk ([0])), 0, st0, ?_, ?_, ?_, admitted_spi rfl ?_⟩,
          ⟨(pk ([0])), 0, st0, ?_, ?_, admitted_spi rfl ?_⟩,
          ⟨(pk ([0])), 0, st0, ?_, ?_, admitted_spi rfl ?_⟩,
          ⟨(pk ([])), st0, ?_, admitted_spi rfl ?_⟩,
          ⟨(pk ([0, 0])), 0, 0, st0, ?_, ?_, admitted_spi rfl ?_⟩,
          ⟨(pk ([0 + 256 * 0, 0, 0, 0] ++ (List.replicate 288 0))), 0, 0, 0, 0, 0, (List.replicate 288 0), st0, ?_,
             ?_, ?_, ?_, ?_, ?_, admitted_spi rfl ?_⟩,
          ⟨(pk ([0, 0 + 2 ^ 16])), 0, 0, st0, ?_, ?_, ?_, ?_, admitted_spi rfl ?_⟩,
          ⟨(pk ([0, 1 + (if true then 2 ^ 31 else 0), 0, 0, 0, 0, 1 + 1 * 2 ^ 16, 0])), 0, 0, 0, 0, 0, 1, 1, true,
             st0, ?_, ?_, ?_, ?_, ?_, ?_, ?_, ?_, ?_, ?_, ?_, admitted_spi rfl ?_⟩,
          ⟨(pk ([0, 0 + 0 * 2 ^ 16])), 0, 0, 0, st0, ?_, ?_, ?_, admitted_spi rfl ?_⟩,
          ⟨(pk ([0, 0, 0])), 0, 0, 0, st0, ?_, ?_, admitted_spi rfl ?_⟩,
          ⟨(pk (0 :: ([0, 0, 0, 0, 0, 0, 0, 0, 0]))), 0, [0, 0, 0, 0, 0, 0, 0, 0, 0], st0, ?_, ?_, ?_, (fun _ => ⟨by
             decide, 0, 0, 0, rfl⟩), ?_, admitted_spi rfl ?_⟩,
          ⟨(pk ([0, 0, 0, 0, 0])), 0, 0, 0, 0, 0, st0, ?_, ?_, admitted_spi rfl ?_⟩,
          ⟨(pk ([])), st0, ?_, admitted_spi rfl ?_⟩,
          ⟨(pk ([0 + 256 * 0, if true then 1 else 0, 0, 0])), 0, 0, 0, 0, true, st0, ?_, ?_, ?_, ?_, admitted_spi rfl
             ?_⟩⟩
  all_goals decide +kernel

theorem wit_PortAndCaptureOpcodes :
    (∃ (p : Packet) (w : Nat) (tmo : Nat) (s : State),
        let n := parPort p 0
        p.words = [w, tmo] ∧ w ||| 0x103 = 0x103 ∧ tmo < 2 ^ 16 ∧ s.portOn n = true ∧ s.bit R.SYN_CTRL_EN (3 + csyOf
          n) = true ∧ Admitted s { p with op := 0x300 })
    ∧ (∃ (p : Packet) (w : Nat) (s : State), p.words = [w] ∧ w < 4 ∧ Admitted s { p with op := 0x301 })
    ∧ (∃ (p : Packet) (w : Nat) (depth : Nat) (tmo : Nat) (s : State), p.words = [w, depth, tmo] ∧ w ||| 0x33 = 0x33 ∧
        depth < 2 ^ 32 ∧ tmo < 2 ^ 16 ∧ Admitted s { p with op := 0x302 })
    ∧ (∃ (p : Packet) (w : Nat) (s : State), p.words = [w] ∧ w < 4 ∧ Admitted s { p with op := 0x303 })
    ∧ (∃ (p : Packet) (w : Nat) (s : State), p.words = [w] ∧ w < 4 ∧ Admitted s { p with op := 0x304 })
    ∧ (∃ (p : Packet) (m : Nat) (s : State), p.words = [m] ∧ m < 2 ^ 16 ∧ Admitted s { p with op := 0x305 }) := by
  refine ⟨⟨(pk ([0, 0])), 0, 0, (st0.putBit R.SYN_CTRL_EN 3 true), ?_, ?_, ?_, ?_, ?_, admitted_spi rfl ?_⟩,
          ⟨(pk ([0])), 0, st0, ?_, ?_, admitted_spi rfl ?_⟩,
          ⟨(pk ([0, 0, 0])), 0, 0, 0, st0, ?_, ?_, ?_, ?_, admitted_spi rfl ?_⟩,
          ⟨(pk ([0])), 0, st0, ?_, ?_, admitted_spi rfl ?_⟩,
          ⟨(pk ([0])), 0, st0, ?_, ?_, admitted_spi rfl ?_⟩,
          ⟨(pk ([0])), 0, st0, ?_, ?_, admitted_spi rfl ?_⟩⟩
  all_goals decide +kernel

theorem wit_InterlockGroupAndCalibrationOpcodes :
    (∃ (p : Packet) (b : Bool) (s : State), p.words = [if b then 1 else 0] ∧ Admitted s { p with op := 0x306 })
    ∧ (∃ (p : Packet) (s : State), p.words = [] ∧ Admitted s { p with op := 0x307 })
    ∧ (∃ (p : Packet) (g : Fin 8) (tmo : Nat) (s : State), p.words = [g.val, tmo] ∧ tmo < 2 ^ 16 ∧ Admitted s
        { p with op := 0x310 })
    ∧ (∃ (p : Packet) (g : Fin 8) (s : State), p.words = [g.val] ∧ Admitted s { p with op := 0x311 })
    ∧ (∃ (p : Packet) (g : Fin 8) (m : Nat) (s : State), p.words = [g.val + 256 * m] ∧ m < 256 ∧ Admitted s
        { p with op := 0x312 })
    ∧ (∃ (p : Packet) (m : Nat) (tmo : Nat) (s : State), p.words = [m, tmo] ∧ m < 512 ∧ tmo < 2 ^ 16 ∧ Admitted s
        { p with op := 0x400 })
    ∧ (∃ (p : Packet) (s : State), p.words = [] ∧ Admitted s { p with op := 0x401 })
    ∧ (∃ (p : Packet) (a : Bool) (k : Nat) (s : State), p.words = [(if a then 1 else 0) + 256 * k] ∧ k < 256 ∧ Admitted
        s { p with op := 0x402 }) := by
  refine ⟨⟨(pk ([if true then 1 else 0])), true, st0, ?_, admitted_spi rfl ?_⟩,
          ⟨(pk ([])), st0, ?_, admitted_spi rfl ?_⟩,
          ⟨(pk ([0, 0])), 0, 0, st0, ?_, ?_, admitted_spi rfl ?_⟩,
          ⟨(pk ([0])), 0, st0, ?_, admitted_spi rfl ?_⟩,
          ⟨(pk ([0 + 256 * 0])), 0, 0, st0, ?_, ?_, admitted_spi rfl ?_⟩,
          ⟨(pk ([0, 0])), 0, 0, st0, ?_, ?_, ?_, admitted_spi rfl ?_⟩,
          ⟨(pk ([])), st0, ?_, admitted_spi rfl ?_⟩,
          ⟨(pk ([(if true then 1 else 0) + 256 * 0])), true, 0, st0, ?_, ?_, admitted_spi rfl ?_⟩⟩
  all_goals decide +kernel

theorem wit_JobControlOpcodes :
    (∃ (i : Packet → Instr) (op : Nat) (p : Packet), (i = .suspend ∧ op = 0x500 ∨ i = .resume ∧ op = 0x501 ∨ i =
        .cancel ∧ op = 0x502) ∧ p.words = [])
    ∧ (∃ (p : Packet) (j : Job) (s : State), p.words = [] ∧ s.job? p.job = some j ∧ live j = true ∧ Admitted s
        { p with op := 0x500 })
    ∧ (∃ (p : Packet) (j : Job) (s : State), p.words = [] ∧ s.job? p.job = some j ∧ live j = true ∧ Admitted s
        { p with op := 0x501 })
    ∧ (∃ (p : Packet) (j : Job) (s : State), p.words = [] ∧ s.job? p.job = some j ∧ live j = true ∧ Admitted s
        { p with op := 0x502 })
    ∧ (∃ (p : Packet) (s : State), p.words = [] ∧ Admitted s { p with op := 0x503 })
    ∧ (∃ (p : Packet) (s : State), p.words = [] ∧ Admitted s { p with op := 0x504 }) := by
  refine ⟨⟨.suspend, 0x500, (pk []), (Or.inl ⟨rfl, rfl⟩), ?_⟩,
          ⟨{ pk [] with job := 268435456 }, { zJob with typ := 1 },
             (({ st0 with cmd.jobs := [{ zJob with typ := 1 }] } : State)), ?_, ?_, ?_, admitted_spi rfl ?_⟩,
          ⟨{ pk [] with job := 268435456 }, { zJob with typ := 1 },
             (({ st0 with cmd.jobs := [{ zJob with typ := 1 }] } : State)), ?_, ?_, ?_, admitted_spi rfl ?_⟩,
          ⟨{ pk [] with job := 268435456 }, { zJob with typ := 1 },
             (({ st0 with cmd.jobs := [{ zJob with typ := 1 }] } : State)), ?_, ?_, ?_, admitted_spi rfl ?_⟩,
          ⟨{ pk [] with job := 268435456 }, st0, ?_, admitted_spi rfl ?_⟩,
          ⟨(pk ([])), st0, ?_, admitted_spi rfl ?_⟩⟩
  all_goals decide +kernel

theorem wit_StreamOpcodes :
    (∃ (p : Packet) (k : Fin 7) (s : State), p.words = [k.val, 0, 0, 0, 0, 0] ∧ k ≠ 0 ∧ Admitted s
        { p with op := 0x600 })
    ∧ (∃ (p : Packet) (k : Fin 7) (m : Fin 2) (udp : Nat) (a : Nat) (s : State), p.words = [k.val + 16 * (m.val + 1),
        udp, a, 0, 0, 0] ∧ k ≠ 0 ∧ udp < 2 ^ 16 ∧ a < 2 ^ 32 ∧ Admitted s { p with op := 0x600 })
    ∧ (∃ (k : Nat), k < 16 ∧ (k = 0 ∨ 7 ≤ k))
    ∧ (∃ (p : Packet) (k : Fin 7) (s : State), p.words = [k.val] ∧ k ≠ 0 ∧ Admitted s { p with op := 0x601 })
    ∧ (∃ (p : Packet) (m : Nat) (tmo : Nat) (s : State), p.words = [m, tmo] ∧ m < 2 ^ 32 ∧ tmo < 2 ^ 16 ∧ Admitted s
        { p with op := 0x602 })
    ∧ (∃ (p : Packet) (m : Nat) (s : State), p.words = [m] ∧ m < 2 ^ 32 ∧ Admitted s { p with op := 0x603 })
    ∧ (∃ (p : Packet) (tmo : Nat) (s : State), p.words = [tmo] ∧ tmo < 2 ^ 16 ∧ Admitted s { p with op := 0x605 })
    ∧ (∃ (p : Packet) (s : State), p.words = [] ∧ Admitted s { p with op := 0x606 }) := by
  refine ⟨⟨(pk ([1, 0, 0, 0, 0, 0])), 1, st0, ?_, ?_, admitted_spi rfl ?_⟩,
          ⟨(pk ([6 + 16 * (0 + 1), 0, 0, 0, 0, 0])), 6, 0, 0, 0, st0, ?_, ?_, ?_, ?_, admitted_spi rfl ?_⟩,
          ⟨7, ?_⟩,
          ⟨(pk ([1])), 1, st0, ?_, ?_, admitted_spi rfl ?_⟩,
          ⟨(pk ([0, 0])), 0, 0, st0, ?_, ?_, ?_, admitted_spi rfl ?_⟩,
          ⟨(pk ([0])), 0, st0, ?_, ?_, admitted_spi rfl ?_⟩,
          ⟨(pk ([0])), 0, st0, ?_, ?_, admitted_spi rfl ?_⟩,
          ⟨(pk ([])), st0, ?_, admitted_spi rfl ?_⟩⟩
  all_goals decide +kernel

theorem wit_ManagementOpcodes :
    (∃ (p : Packet) (m : Nat) (tmo : Nat) (wk : Nat) (b : Bool) (s : State), m < 8 ∧ tmo < 2 ^ 16 ∧ wk < 2 ^ 32 ∧
        p.words = [m + if b then 16 else 0, tmo, wk] ∧ Admitted s { p with op := 0x700 })
    ∧ (∃ (p : Packet) (s : State), p.words = [] ∧ Admitted s { p with op := 0x701 })
    ∧ (∃ (p : Packet) (n : Nat) (lim : Nat) (s : State), p.words = [n, lim] ∧ n < 2 ^ 32 ∧ lim < 2 ^ 32 ∧ Admitted s
        { p with op := 0x702 })
    ∧ (∃ (p : Packet) (s : State), p.words = [] ∧ Admitted s { p with op := 0x703 })
    ∧ (∃ (p : Packet) (n : Nat) (k : Nat) (s : State), p.words = [n, k] ∧ n < 2 ^ 32 ∧ k < 2 ∧ Admitted s
        { p with op := 0x704 })
    ∧ (∃ (p : Packet) (o : Nat) (l : List Nat) (s : State), p.words = o :: l ∧ l ≠ [] ∧ l.length ≤ 1018 ∧ Admitted s
        { p with op := 0x705 })
    ∧ (∃ (p : Packet) (s : State), p.words = [] ∧ Admitted s { p with op := 0x706 })
    ∧ (∃ (p : Packet) (k : Nat) (key : Nat) (s : State), p.words = [k, key] ∧ k < 2 ∧ key < 2 ^ 32 ∧ Admitted s
        { p with op := 0x707 })
    ∧ (∃ (p : Packet) (a : Nat) (w : Nat) (r : Nat) (e : Bool) (l : List Nat) (s : State), a < 128 ∧ w ≤ 252 ∧ r < 256
        ∧ l.length = (w + 3) / 4 ∧ p.words = (a + (if e then 256 else 0) + w * 2 ^ 16 + r * 2 ^ 24) :: l ∧ Admitted s
        { p with op := 0x708 })
    ∧ (∃ (p : Packet) (s : State), p.words = [] ∧ Admitted s { p with op := 0x709 })
    ∧ (∃ (p : Packet) (b : Nat) (s : State), p.words = [b] ∧ b < 512 ∧ Admitted s { p with op := 0x70A })
    ∧ (∃ (p : Packet) (m : Nat) (s : State), p.words = [m] ∧ m < 4 ∧ Admitted s { p with op := 0x901 })
    ∧ (∃ (p : Packet) (tmo : Nat) (s : State), p.words = [tmo] ∧ tmo < 2 ^ 16 ∧ Admitted s { p with op := 0x902 }) := by
  refine ⟨⟨(pk ([0 + if true then 16 else 0, 0, 0])), 0, 0, 0, true, st0, ?_, ?_, ?_, ?_, admitted_spi rfl ?_⟩,
          ⟨(pk ([])), st0, ?_, admitted_spi rfl ?_⟩,
          ⟨(pk ([0, 0])), 0, 0, st0, ?_, ?_, ?_, admitted_spi rfl ?_⟩,
          ⟨(pk ([])), st0, ?_, admitted_spi rfl ?_⟩,
          ⟨(pk ([0, 0])), 0, 0, st0, ?_, ?_, ?_, admitted_spi rfl ?_⟩,
          ⟨(pk [0, 0]), 0, [0], st0, ?_, ?_, ?_, admitted_spi rfl ?_⟩,
          ⟨(pk ([])), st0, ?_, admitted_spi rfl ?_⟩,
          ⟨(pk ([0, 0])), 0, 0, st0, ?_, ?_, ?_, admitted_spi rfl ?_⟩,
          ⟨(pk (252 * 2 ^ 16 :: List.replicate 63 0)), 0, 252, 0, false, (List.replicate 63 0), st0, ?_, ?_, ?_, ?_,
             ?_, admitted_spi rfl ?_⟩,
          ⟨(pk ([])), st0, ?_, admitted_spi rfl ?_⟩,
          ⟨(pk ([0])), 0, st0, ?_, ?_, admitted_spi rfl ?_⟩,
          ⟨(pk ([0])), 0, st0, ?_, ?_, admitted_spi rfl ?_⟩,
          ⟨(pk ([0])), 0, st0, ?_, ?_, admitted_spi rfl ?_⟩⟩
  all_goals decide +kernel

theorem wit_ArrayOpcodes :
    (∃ (p : Packet) (w : Nat) (a0 : Nat) (a1 : Nat) (a2 : Nat) (a3 : Nat) (udp : Nat) (s : State),
        let net := s.hif.net[s.aryEth]
        let v6 := (net.headD 0).testBit 1
        p.words = [w, a0, a1, a2, a3, udp] ∧ w < 2 ^ 14 ∧ udp < 2 ^ 16 ∧ (v6 = false → a1 = 0 ∧ a2 = 0 ∧ a3 = 0) ∧
          Admitted s { p with op := 0x800 })
    ∧ (∃ (p : Packet) (s : State), p.words = [] ∧ Admitted s { p with op := 0x801 })
    ∧ (∃ (p : Packet) (m : Nat) (s : State), p.words = [m] ∧ m < 16 ∧ Admitted s { p with op := 0x803 })
    ∧ (∃ (p : Packet) (x : BitVec 64) (s : State), p.words = [x.toNat % 2 ^ 32, x.toNat / 2 ^ 32] ∧ Admitted s
        { p with op := 0x805 }) := by
  refine ⟨⟨(pk ([0, 0, 0, 0, 0, 0])), 0, 0, 0, 0, 0, 0, st0, ?_, ?_, ?_, ?_, admitted_spi rfl ?_⟩,
          ⟨(pk ([])), st0, ?_, admitted_spi rfl ?_⟩,
          ⟨(pk ([0])), 0, st0, ?_, ?_, admitted_spi rfl ?_⟩,
          ⟨(pk ([0 % 2 ^ 32, 0 / 2 ^ 32])), 0, st0, ?_, admitted_spi rfl ?_⟩⟩
  all_goals decide +kernel

theorem wit_StepRunsFront :
    (∃ (s : State), s.pending = []) := by
  refine ⟨st0, ?_⟩
  all_goals decide +kernel

theorem wit_IdleTick :
    (∃ (s : State), s.pending = []) := by
  refine ⟨st0, ?_⟩
  all_goals decide +kernel

theorem wit_CanonicalKept :
    (∃ (s : State) (t : State), s.Canonical ∧ step s = .next t) := by
  refine ⟨st0, st0.idle, ?_, rfl⟩
  all_goals first | decide +kernel | (unfold State.Canonical; decide +kernel)

theorem wit_FusesOnlyBurn :
    (∃ (s : State) (t : State), step s = .next t) := by
  refine ⟨st0, st0.idle, rfl⟩

theorem wit_ActiveDefinitionWrite :
    (∃ (k : Fin 32) (s : State), s.pcieDecode = .serve ∧ s.domOn dCORE = true ∧ s.defOn k = true) := by
  refine ⟨0, (st0.putBit R.CMP_ACTIVE_DEF 0 true), ?_⟩
  all_goals decide +kernel

theorem wit_PhaseEpochWrite :
    (∃ (s : State), s.domOn dTIME = true ∧ (∃ n : Fin 4, s.portShows n ≠ 0))
    ∧ (∃ (s : State), s.pcieDecode = .serve ∧ s.domOn dTIME = true ∧ (∃ n : Fin 4, s.portShows n ≠ 0)) := by
  refine ⟨⟨(st0.wr (R.PPE_STAT_STATE 0) stRun), ?_⟩,
          ⟨(st0.wr (R.PPE_STAT_STATE 0) stRun), ?_⟩⟩
  all_goals decide +kernel

/-! ### DSP witnesses: core 0 at a word of each class and op -/

/-- Core 0 of `dsp q o` with `w` added to its word and the core changed by `f`. -/
def dspW (q o w : Nat) (f : DCore → DCore) : State :=
  ((dsp q o).sramPut (Dsp.pBase 0)
    (Arith.leBytes 8 (q * 2 ^ 61 + o * 2 ^ (if q = 1 then 57 else if q = 3 then 58 else 56) + w))).modCore 0 f

theorem wit_DspControlAndScalars :
    (∀ x ∈ (List.range 7).map (fun o => (0, o)) ++ (List.range 11).map (fun o => (4, o)) ++ [(5, 0)],
      CoreReady (dsp x.1 x.2) 0 x.1 x.2)
    ∧ (∃ s : State, CoreReady s 0 0 1 ∧ Dsp.condition s.vdc.cores[0] (Dsp.ctrlS (s.coreWord 0)) = some true)
    ∧ (∃ s : State, CoreReady s 0 0 1 ∧ Dsp.condition s.vdc.cores[0] (Dsp.ctrlS (s.coreWord 0)) = some false)
    ∧ (∃ s : State, CoreReady s 0 0 2 ∧ (s.vdc.cores[0]).calls.length < 8)
    ∧ (∃ s : State, CoreReady s 0 0 3 ∧ (s.vdc.cores[0]).calls = [4095])
    ∧ (∃ s : State, CoreReady s 0 0 4 ∧ Dsp.sreg s.vdc.cores[0] (Dsp.ctrlS (s.coreWord 0)) ≠ 0#32)
    ∧ (∃ s : State, CoreReady s 0 0 4 ∧ Dsp.sreg s.vdc.cores[0] (Dsp.ctrlS (s.coreWord 0)) = 0#32
        ∧ Dsp.target (s.coreWord 0) < 4095)
    ∧ (∃ s : State, CoreIssues s 0 0 0 ∧ (s.vdc.cores[0]).loops = [⟨0, 0, 2⟩] ∧ (s.vdc.cores[0]).pc = 0)
    ∧ (∃ s : State, CoreIssues s 0 0 0 ∧ (s.vdc.cores[0]).loops = [⟨0, 0, 1⟩] ∧ (s.vdc.cores[0]).pc = 0) := by
  refine ⟨?_, ⟨dsp 0 1, ?_⟩, ⟨dspW 0 1 (1 * 2 ^ 40) id, ?_⟩,
    ⟨dspW 0 2 0 fun k => { k with calls := List.replicate 7 0 }, ?_⟩,
    ⟨dspW 0 3 0 fun k => { k with calls := [4095] }, ?_⟩, ⟨dspW 0 4 0 fun k => { k with s := k.s.set 0 1 }, ?_⟩,
    ⟨dspW 0 4 (4094 * 2 ^ 44) id, ?_⟩, ⟨dspW 0 0 0 fun k => { k with loops := [⟨0, 0, 2⟩] }, ?_⟩,
    ⟨dspW 0 0 0 fun k => { k with loops := [⟨0, 0, 1⟩] }, ?_⟩⟩
  all_goals first | (unfold CoreReady CoreIssues; decide +kernel) | (unfold CoreIssues; decide +kernel)

theorem wit_DspAccumulators :
    (∀ o ∈ List.range 10, CoreReady (dsp 1 o) 0 1 o)
    ∧ (∃ s : State, CoreReady s 0 1 6 ∧ ∀ i < 8, (s.vdc.cores[0]).aov.getLsbD (8 * Dsp.macA (s.coreWord 0) + i) = false)
    ∧ (∃ s : State, CoreReady s 0 1 9 ∧ ((s.vdc.cores[0]).p[0]).toNat % 32 = 0)
    ∧ (∃ x : Int, x < -2 ^ 39 ∨ 2 ^ 39 ≤ x) ∧ ∃ x : Int, -2 ^ 39 ≤ x ∧ x < 2 ^ 39 := by
  refine ⟨?_, ⟨dsp 1 6, ?_⟩, ⟨dsp 1 9, ?_⟩, ⟨2 ^ 39, ?_⟩, ⟨-2 ^ 39, ?_⟩⟩
  all_goals first | decide +kernel | (unfold CoreReady CoreIssues; decide +kernel)

theorem wit_DspVectorsAndSearch :
    (∀ x ∈ (List.range 16).map (fun o => (2, o)) ++ (List.range 6).map (fun o => (3, o)),
      CoreReady (dsp x.1 x.2) 0 x.1 x.2)
    ∧ (∃ s : State, CoreReady s 0 3 5 ∧ ∀ i : Fin 8, (s.vdc.cores[0]).si[i] = 0xFFFFFFFF#32)
    ∧ (∃ s : State, CoreReady s 0 3 5 ∧ (s.vdc.cores[0]).rule = some 1
        ∧ ∃ i : Fin 8, (s.vdc.cores[0]).si[i] ≠ 0xFFFFFFFF#32) := by
  refine ⟨?_, ⟨dsp 3 5, ?_⟩, ⟨dspW 3 5 0 fun k => { k with rule := some 1, si := k.si.set 7 0 }, ?_⟩⟩
  all_goals unfold CoreReady CoreIssues; decide +kernel

theorem wit_DspMovesAndOutput :
    (∃ s : State, CoreReady s 0 5 1 ∧ Dsp.special (s.coreWord 0) ≠ 41
        ∧ Dsp.readSpecial s.now 0 s.vdc.cores[0] (Dsp.special (s.coreWord 0)) = some 0#32)
    ∧ (∃ s : State, CoreReady s 0 5 1 ∧ Dsp.special (s.coreWord 0) = 41)
    ∧ (∃ s : State, CoreReady s 0 5 2 ∧ 41 ≤ Dsp.special (s.coreWord 0)
        ∧ (Dsp.writeSpecial s.vdc.cores[0] (Dsp.special (s.coreWord 0)) 0#32).isSome = true)
    ∧ (∃ s : State, CoreReady s 0 5 2 ∧ 37 ≤ Dsp.special (s.coreWord 0) ∧ Dsp.special (s.coreWord 0) < 41)
    ∧ (∃ s : State, CoreReady s 0 6 0 ∧ s.anyInput 0 (Dsp.imm4 (s.coreWord 0)) = true ∧ s.gstate 0 = gRunning)
    ∧ (∃ s : State, CoreReady s 0 6 0 ∧ s.anyInput 0 (Dsp.imm4 (s.coreWord 0)) = false)
    ∧ (∃ s : State, CoreReady s 0 6 1 ∧ (Dsp.sreg s.vdc.cores[0] (Dsp.fD (s.coreWord 0))).toNat % 32 = 0)
    ∧ (∃ s : State, CoreReady s 0 6 2 ∧ (s.vdc.cores[0]).fault = 0)
    ∧ (∃ s : State, CoreReady s 0 6 3 ∧ (s.vdc.cores[0]).xfer = none ∧ s.degraded = false
        ∧ xferRange (32 * (s.vdc.cores[0]).xrem.toNat) (s.vdc.cores[0]).xlen.toNat = true)
    ∧ (∃ s : State, CoreReady s 0 6 4 ∧ (s.vdc.cores[0]).xfer = none ∧ s.degraded = false
        ∧ xferRange (32 * (s.vdc.cores[0]).xrem.toNat) (s.vdc.cores[0]).xlen.toNat = true)
    ∧ (∃ s : State, (s.vdc.cores[0]).xfer = some { zXfer with toRemote := true, rem := 0x03FFFFFF, len := 1 })
    ∧ (∃ s : State, (s.vdc.cores[0]).xfer = some { zXfer with rem := 0x04000000 } ∧ s.degraded = true)
    ∧ (∃ s : State, (s.vdc.cores[0]).out = some ⟨0, 16368, 0, false⟩ ∧ s.gstate 0 = gRunning
        ∧ s.outLevel 0 + 16 + 16368 ≤ 16384 ∧ (s.vdc.cores[0]).loops = [] ∧ (s.vdc.cores[0]).pc < 4095)
    ∧ (∀ m ∈ [(1, 0), (0, 3), (2, 0)], (dspW 0 0 (m.1 * 2 ^ 37 + m.2 * 2 ^ 17) id).coreIssues 0 = true
        ∧ Dsp.isOp ((dspW 0 0 (m.1 * 2 ^ 37 + m.2 * 2 ^ 17) id).coreWord 0) 0 0 = true
        ∧ (Dsp.moveX ((dspW 0 0 (m.1 * 2 ^ 37 + m.2 * 2 ^ 17) id).coreWord 0)).op = m.1
        ∧ (Dsp.moveY ((dspW 0 0 (m.1 * 2 ^ 37 + m.2 * 2 ^ 17) id).coreWord 0)).op = m.2) := by
  refine ⟨⟨dsp 5 1, ?_⟩, ⟨dspW 5 1 (41 * 2 ^ 32) id, ?_⟩, ⟨dspW 5 2 (50 * 2 ^ 32) id, ?_⟩,
    ⟨dspW 5 2 (37 * 2 ^ 32) id, ?_⟩,
    ⟨((dspW 6 0 (1 * 2 ^ 40) fun k => { k with iwp := k.iwp.set 0 32 }).wr (R.VDC_BIND_EN 0) 1).wr (R.VDC_BIND_SIZE 0) 64, ?_⟩,
    ⟨dsp 6 0, ?_⟩, ⟨dsp 6 1, ?_⟩, ⟨dsp 6 2, ?_⟩,
    ⟨dspW 6 3 0 fun k => { k with xrem := 0x01FE000, xlen := 0 }, ?_⟩,
    ⟨dspW 6 4 0 fun k => { k with xrem := 0x01FE000, xlen := 1 }, ?_⟩,
    ⟨dspW 0 0 0 fun k => { k with xfer := some { zXfer with toRemote := true, rem := 0x03FFFFFF, len := 1 } }, ?_⟩,
    ⟨(dspW 0 0 0 fun k => { k with xfer := some { zXfer with rem := 0x04000000 } }).wr R.SYS_GSTAT_DRAM_DEGRADED 1, ?_⟩,
    ⟨dspW 0 0 0 fun k => { k with out := some ⟨0, 16368, 0, false⟩ }, ?_⟩, ?_⟩
  all_goals first | decide +kernel | (unfold CoreReady CoreIssues; decide +kernel)

/-! ### WellFormed refuses -/

theorem wf_bar2_crosses : (Instr.bar2Read 63 2 ⟨0, []⟩).wf = false := by decide
theorem wf_bar2_empty : (Instr.bar2Write 0 []).wf = false := by decide
theorem wf_bar2_misaligned : (Instr.bar2Read 2 4 ⟨0, []⟩).wf = false ∧ (Instr.bar2Write 1 [0, 0]).wf = false
    ∧ (Instr.bar2Read 1 3 ⟨0, []⟩).wf = true := by decide
theorem wf_descriptor :
    (Instr.descriptorFetch (Vector.replicate 8 0) (List.replicate 4097 0) false .timeout).wf = false := by
  decide +kernel
theorem wf_datagram : (Instr.cmdDatagram 0 0 0 (List.replicate 65508 0) false .timeout).wf = false := by
  decide +kernel
theorem wf_spi_packet : (Instr.spiWritePacket (List.replicate 15 0) .timeout).wf = false := by decide
theorem wf_console_packet : (Instr.consolePkt (List.replicate 15 0) .timeout).wf = false := by decide
theorem wf_hod_users : ∀ u ∈ [HodUser.port 4, .dts 4, .group 8, .engine 4, .engines 16, .cal 9],
    (Instr.hodTimeout u).wf = false := by decide
theorem wf_link : (Instr.pcieLinkUp 0 0).wf = false ∧ (Instr.pcieLinkUp 5 0).wf = false ∧ (Instr.pcieLinkUp 1 3).wf = false := by
  decide

/-- A packet of NOP, and the same with one field outside its bits. -/
def nopPk : Packet := { pk [] with op := 0x100 }
theorem wf_packets :
    (Instr.nop nopPk).wf = true ∧ ∀ p ∈ [{ nopPk with op := 0x101 }, { nopPk with tag := 256 }, { nopPk with seq := 65536 },
      { nopPk with job := 2 ^ 32 }, { nopPk with rsv := 32 }, { nopPk with rcap := 2 ^ 32 }, { nopPk with result := 2 ^ 64 },
      { nopPk with words := [2 ^ 32] }, { nopPk with words := List.replicate 1021 0 },
      { nopPk with req := .eth 0 (2 ^ 128) 0 }, { nopPk with req := .eth 0 0 65536 }], (Instr.nop p).wf = false := by
  decide +kernel
theorem wf_opcode_of_row : (Instr.echo nopPk).wf = false ∧ (Instr.dramRetrain nopPk).wf = false
    ∧ (Instr.portStart nopPk).wf = false ∧ (Instr.arrayFire nopPk).wf = false := by decide

/-! ### Small tests of single commands -/

/-- The command answers a next state, and `P` holds of it. -/
def after (i : Instr) (s : State) (P : State → Bool) : Bool :=
  match exec i s with
  | .next t => P t
  | .fault _ => false
  | .refused _ => false

/-- The check value of the CRC of R395. -/
theorem test_crc32 : Arith.crc32 [0x31, 0x32, 0x33, 0x34, 0x35, 0x36, 0x37, 0x38, 0x39] = 0xCBF43926 := by decide +kernel
/-- A NOP answers one reply with status OK. -/
theorem test_nop : after (.nop nopPk) st0 (fun t => t.hif.spi.map (fun r => (r.op, r.tag, r.status)) == [(0x100, 1, 0)]) = true := by
  decide +kernel
/-- A misaligned write is an error (R10). -/
theorem test_misaligned : after (.registerWrite 2 true 0) st0 (fun t => t.on R.SYS_GSTAT_BAD_ACCESS) = true := by
  decide +kernel
/-- An access to a domain that is off (R29). -/
theorem test_domain_off :
    after (.lowWordRead 0x2C0000 true) { st0 with sys.domains := 2 } (fun t => t.on R.SYS_GSTAT_PD_ACCESS && t.out == [.bar0 0]) = true := by
  decide +kernel
/-- A backward step of 5 holds the counter for 5 ticks (R76). -/
theorem test_step_back : after (.epochStep false 1) (st0.wr R.TBU_STEP_DELTA (2 ^ 64 - 5))
    (fun t => t.tbu.hold == 5 && t.tbu.count == 0) = true := by decide +kernel
/-- SLEW 0 of a bias write stores 1 (R104). -/
theorem test_bias : after (.biasWrite 3 0xFFFF 0) st0 (fun t => t.rd (R.LDR_BIAS_CODE 3) == 65535 && t.rd (R.LDR_BIAS_SLEW 3) == 1) = true := by
  decide +kernel
/-- A MULT of 0.25 gives a TREFI of 977 (R346). -/
theorem test_mr4 : after (.mr4Poll (some 4)) (st0.wr R.MEM_STAT_STATE memReady) (fun t => t.rd R.MEM_REF_TREFI == 977) = true := by
  decide +kernel
/-- ADD of 0xFFFFFFFF and 1 gives 0 with Z and C (R267). -/
theorem test_add_wraps :
    after (.add 0) (dspW 4 0 (2 * 2 ^ 52 + 1 * 2 ^ 40) fun k => { k with s := (k.s.set 0 0xFFFFFFFF).set 1 1 })
      (fun t => (t.vdc.cores[0]).s[2] == 0 && Dsp.flag t.vdc.cores[0] 0 && Dsp.flag t.vdc.cores[0] 2
        && !Dsp.flag t.vdc.cores[0] 1 && (t.vdc.cores[0]).pc == 1) = true := by decide +kernel
/-- A saturating lane add stops at the largest value (R267). -/
theorem test_vadds : after (.vadds 0) (dspW 2 2 (2 * 2 ^ 52 + 1 * 2 ^ 44) fun k =>
      { k with v := (k.v.set 0 (Vector.replicate 8 0x7FFFFFFF)).set 1 (Vector.replicate 8 1) })
    (fun t => ((t.vdc.cores[0]).v[2])[7] == 0x7FFFFFFF) = true := by decide +kernel
/-- An empty queue ticks; a command at the front runs and leaves the rest. -/
theorem test_step : (match step { st0 with pending := [.slewDone, .ppsRunt] } with
    | .next t => t.pending == [.ppsRunt]
    | _ => false) = true := by decide +kernel

end Sys2Proof.Tests
end

section
/-! A register write through BAR0 to a block that answers, and the rejection of a write of SYN_PHASE_EPOCH while a port
shows RUN or WATCH (R9 to R11, R42, R64). -/

namespace Sys2Proof.Machine.State
open Sys2Proof

variable {s : State}

/-- One port in RUN or WATCH is enough for the block-wide test of R42. -/
theorem anyPortShows_of_portShows (h : ∃ n : Fin 4, s.portShows n ≠ 0) : s.anyPortShows = true := by
  obtain ⟨n, hn⟩ := h
  exact List.any_eq_true.2 ⟨n, List.mem_finRange n, bne_iff_ne.2 hn⟩

/-- An aligned 32-bit access to a block whose domain is on reaches the register there, and nothing changes on the way. -/
theorem decodeAccess_of_domOn {off d : Nat} (ha : off % 4 = 0) (hd : domainOf off = some d) (hs : s.domOn d = true) :
    s.decodeAccess off true = (regAt off, s) := by
  simp [decodeAccess, ha, hd, hs]

/-- The write of the high word of a 64-bit register commits it together with the buffered low word (R11). -/
theorem bar0Write_highWord {off d : Nat} {h : Hit} (v : Nat) (ha : off % 4 = 0) (hd : domainOf off = some d)
    (hs : s.domOn d = true) (hr : regAt off = some h) (hw : h.reg.wide = true) (hh : h.hi = true) :
    s.bar0Write off true v = s.writeReg h (v * 2 ^ 32 + Bank.get s.wbuf (off - 4) 0) := by
  simp [bar0Write, decodeAccess_of_domOn ha hd hs, hr, hw, hh, highWrite]

/-- A write is served over PCIe after boot complete, outside footing mode and D3hot (R41, R374, R461). -/
theorem pcieWrite_of_serve (off v : Nat) (sized : Bool) (h : s.pcieDecode = .serve) :
    s.pcieWrite off sized v = s.bar0Write off sized v := if_pos h

theorem wideAt_of_regAt {off : Nat} {h : Hit} {hi : Bool} (hr : regAt off = some h) (hw : h.reg.wide = true)
    (hh : h.hi = hi) : wideAt off hi = true := by
  simp [wideAt, hr, hw, hh]

/-- Every write to the register at SYN_PHASE_EPOCH's base goes to `phaseEpoch`, whole. -/
theorem writeReg_phaseEpoch {h : Hit} (v : Nat) (hb : h.reg.base = 0x40018) : s.writeReg h v = s.phaseEpoch v := by
  simp [writeReg, writeSyn, hb]

theorem phaseEpoch_rejected (e : Nat) (h : s.anyPortShows = true) : s.phaseEpoch e = s.ev R.SYN_EVENT_CFG_REJECT :=
  if_pos h

/-- A rejected write leaves the epoch and the synthesisers as they are and shows in SYN_EVENT (R64). -/
theorem phaseEpoch_rejected_effect (e : Nat) (h : s.anyPortShows = true) :
    (s.phaseEpoch e).rd R.SYN_PHASE_EPOCH_EPOCH = s.rd R.SYN_PHASE_EPOCH_EPOCH
      ∧ (s.phaseEpoch e).on R.SYN_EVENT_CFG_REJECT = true ∧ (s.phaseEpoch e).syn = s.syn := by
  rw [phaseEpoch_rejected e h]
  exact ⟨rd_ev_ne s 0 (by decide) (by decide), on_ev_same s rfl (by decide), ev_syn s _ 0⟩

end Sys2Proof.Machine.State

namespace Sys2Proof.Machine
open Sys2Proof State

theorem domainOf_offSyn : domainOf offSyn = some dTIME := by decide

theorem domainOf_phaseEpochHigh : domainOf 0x4001C = some dTIME := by decide

/-- 0x4001C is the high word of SYN_PHASE_EPOCH (R11, R64). -/
theorem regAt_phaseEpochHigh :
    regAt 0x4001C = some ⟨⟨"SYN_PHASE_EPOCH", 0x40018, [], true, false, [R.SYN_PHASE_EPOCH_EPOCH]⟩, 0, true⟩ := by
  decide

/-- As a command of its own, the write goes to `phaseEpoch` while TIME is on. -/
theorem exec_phaseEpochWrite (e : DWord) {s : State} (hd : s.domOn dTIME = true) :
    exec (.phaseEpochWrite e) s = .next (s.phaseEpoch e.toNat) := by
  have h : exec (.phaseEpochWrite e) s = .next (s.gate offSyn fun s => s.phaseEpoch e.toNat) := rfl
  rw [h, gate_on domainOf_offSyn hd]

/-- The high word of a 64-bit register, served over PCIe, commits the register (R11). -/
theorem exec_highWordWrite {off : BitVec 24} {d : Nat} {h : Hit} (v : Word) {s : State} (hp : s.pcieDecode = .serve)
    (ha : off.toNat % 4 = 0) (hd : domainOf off.toNat = some d) (hs : s.domOn d = true)
    (hr : regAt off.toNat = some h) (hw : h.reg.wide = true) (hh : h.hi = true) :
    exec (.highWordWrite off v) s
      = .next (s.writeReg h (v.toNat * 2 ^ 32 + Bank.get s.wbuf (off.toNat - 4) 0)) := by
  have e : exec (.highWordWrite off v) s
      = .next (if wideAt off.toNat true then s.pcieWrite off.toNat true v.toNat else s) := rfl
  rw [e, if_pos (wideAt_of_regAt hr hw hh), pcieWrite_of_serve _ _ _ hp, bar0Write_highWord _ ha hd hs hr hw hh]

/-- As the second half of a 64-bit register write, it goes to `phaseEpoch` with the buffered low word. -/
theorem exec_highWordWrite_phaseEpoch (v : Word) {s : State} (hp : s.pcieDecode = .serve) (hd : s.domOn dTIME = true) :
    exec (.highWordWrite 0x4001C v) s = .next (s.phaseEpoch (v.toNat * 2 ^ 32 + Bank.get s.wbuf 0x40018 0)) := by
  rw [exec_highWordWrite (off := 0x4001C) v hp (by decide) domainOf_phaseEpochHigh hd regAt_phaseEpochHigh rfl rfl,
    writeReg_phaseEpoch _ rfl]
  rfl

/-- Settles O60: both ways to write SYN_PHASE_EPOCH end in `phaseEpoch`, which rejects while a port shows. -/
theorem phaseEpochWrite : Obligations.PhaseEpochWrite := by
  unfold Obligations.PhaseEpochWrite
  constructor
  · intro e s hd hn
    exact ⟨_, exec_phaseEpochWrite e hd, phaseEpoch_rejected_effect _ (anyPortShows_of_portShows hn)⟩
  · intro v s hp hd hn
    exact ⟨_, exec_highWordWrite_phaseEpoch v hp hd, phaseEpoch_rejected_effect _ (anyPortShows_of_portShows hn)⟩

end Sys2Proof.Machine
end

section
/-! A write of a register of 32 bits through BAR0, where the definition table of CMP lies, and the rejection of a write of
an active definition (R9, R10, R39, R327). -/

namespace Sys2Proof.Machine
open Sys2Proof

/-- The shift of the last register of the array. -/
def Reg.span (r : Reg) : Nat := (r.dims.map fun x => x.1 * (x.2 - 1)).sum

/-- `splitDims` divides its offset, and its shift is at most that of the last register of the array. -/
theorem splitDims_sum_and_le (l : List (Nat × Nat)) (n : Nat) :
    (splitDims l n).1 + (splitDims l n).2 = n ∧ (splitDims l n).1 ≤ (l.map fun x => x.1 * (x.2 - 1)).sum := by
  induction l generalizing n with
  | nil => simp [splitDims]
  | cons x l ih =>
    obtain ⟨st, k⟩ := x
    obtain ⟨hsum, hle⟩ := ih (n - min (k - 1) (n / st) * st)
    have hn : min (k - 1) (n / st) * st ≤ n :=
      (Nat.mul_le_mul_right st (min_le_right _ _)).trans (Nat.div_mul_le_self n st)
    have hk : min (k - 1) (n / st) * st ≤ st * (k - 1) := by
      rw [mul_comm st]
      exact Nat.mul_le_mul_right st (min_le_left _ _)
    simp only [splitDims, List.map_cons, List.sum_cons]
    omega

/-- No register of the array occupies an offset before its base. -/
theorem Reg.place_before {r : Reg} {off : Nat} (h : off < r.base) : r.place off = none := if_pos h

/-- No register of the array occupies an offset past the high word of its last one. -/
theorem Reg.place_past {r : Reg} {off : Nat} (h : r.base + r.span + 4 < off) : r.place off = none := by
  obtain ⟨hsum, hle⟩ := splitDims_sum_and_le r.dims (off - r.base)
  rw [Reg.span] at h
  have h4 : 4 < (splitDims r.dims (off - r.base)).2 := by omega
  simp [Reg.place, show ¬ off < r.base by omega, show (splitDims r.dims (off - r.base)).2 ≠ 0 by omega, h4.ne']

/-- The search finds the one register of the list that occupies the offset. -/
theorem findReg_of_unique {l : List Reg} {r : Reg} {off d : Nat} {hi : Bool} (hr : r ∈ l)
    (hp : r.place off = some (d, hi)) (hu : ∀ x ∈ l, x.place off = none ∨ x = r) :
    findReg l off = some ⟨r, d, hi⟩ := by
  induction l with
  | nil => exact absurd hr List.not_mem_nil
  | cons x l ih =>
    obtain hx | rfl := hu x List.mem_cons_self
    · have hrl : r ∈ l := (List.mem_cons.1 hr).resolve_left fun e => by simp [e, hx] at hp
      simp [findReg, hx, ih hrl fun y hy => hu y (List.mem_cons_of_mem x hy)]
    · simp [findReg, hp]

/-! ### The definition table of CMP (R331) -/

theorem definitionWord_index_lt : ∀ i : Fin 7, 11 + i.val < RegMap.cmp.length := by decide

/-- The register that is word `i` of a definition. -/
def definitionWord (i : Fin 7) : Reg := RegMap.cmp[11 + i.val]'(definitionWord_index_lt i)

theorem definitionWord_base : ∀ i, (definitionWord i).base = 0x281000 + 4 * i.val := by decide

theorem definitionWord_dims : ∀ i, (definitionWord i).dims = [(0x20, 32)] := by decide

theorem definitionWord_wide : ∀ i, (definitionWord i).wide = false := by decide

/-- The other registers of the window lie before the definition table or after it. -/
theorem cmp_cases : ∀ r ∈ RegMap.cmp,
    r.base + r.span + 4 < 0x281000 ∨ 0x281400 ≤ r.base ∨ ∃ i, r = definitionWord i := by decide

/-- Word `i` of definition `k` is the `k`th register of the array of that word, and of no other. -/
theorem definitionWord_place (k : Fin 32) (i j : Fin 7) :
    (definitionWord j).place (0x281000 + 0x20 * k.val + 4 * i.val)
      = if j = i then some (0x20 * k.val, false) else none := by
  have := k.isLt
  have := i.isLt
  simp only [Reg.place, definitionWord_base, definitionWord_dims, definitionWord_wide, splitDims, Fin.ext_iff]
  by_cases h : j.val = i.val
  · simp [h]
    omega
  · simp [h]
    omega

/-- The registers from 0x280000 on are those of CMP (R39). -/
theorem windowRegs_cmp {off : Nat} (hlo : 0x280000 ≤ off) (hhi : off < 0x2C0000) : windowRegs off = RegMap.cmp := by
  have h : ∀ c ≤ 0x280000, ¬ off < c := fun c hc => by omega
  simp [windowRegs, h, hhi]

/-- The register at word `i` of definition `k`. -/
theorem regAt_definitionWord (k : Fin 32) (i : Fin 7) :
    regAt (0x281000 + 0x20 * k.val + 4 * i.val) = some ⟨definitionWord i, 0x20 * k.val, false⟩ := by
  have := k.isLt
  have := i.isLt
  rw [regAt, windowRegs_cmp (by omega) (by omega)]
  refine findReg_of_unique (List.getElem_mem _) (by simp [definitionWord_place]) fun x hx => ?_
  obtain h | h | ⟨j, rfl⟩ := cmp_cases x hx
  · exact .inl (Reg.place_past (by omega))
  · exact .inl (Reg.place_before (by omega))
  · by_cases hj : j = i
    · exact .inr (congrArg definitionWord hj)
    · exact .inl (by simp [definitionWord_place, hj])

/-- The CMP window is served from CORE (R39). -/
theorem domainOf_cmp {off : Nat} (hlo : 0x280000 ≤ off) (hhi : off < 0x2C0000) : domainOf off = some dCORE := by
  have h : ∀ c ≤ 0x280000, ¬ off < c := fun c hc => by omega
  simp [domainOf, portOfOffset, h, show ¬ 0x2C0000 ≤ off by omega, show off < 0x3C0000 by omega]

end Sys2Proof.Machine

namespace Sys2Proof.Machine.State
open Sys2Proof

variable {s : State}

/-- A write of a register of 32 bits is a write of the register. -/
theorem bar0Write_narrow {off d : Nat} {h : Hit} (v : Nat) (ha : off % 4 = 0) (hd : domainOf off = some d)
    (hs : s.domOn d = true) (hr : regAt off = some h) (hw : h.reg.wide = false) :
    s.bar0Write off true v = s.writeReg h v := by
  simp [bar0Write, decodeAccess_of_domOn ha hd hs, hr, hw]

/-- The registers from CMP to SCO take their writes by the rules of `writeStore`. -/
theorem writeReg_store {h : Hit} (v : Nat) (hlo : 0x280000 ≤ h.reg.base) (hhi : h.reg.base < 0x340000) :
    s.writeReg h v = s.writeStore h ((dimIdx h.reg.dims h.d).getD 0 0) v := by
  have hc : ∀ c ≤ 0x280000, ¬ h.reg.base < c := fun c hc => by omega
  simp [writeReg, hc, hhi]

/-- R327: the write of a word of definition `n` is stored unless the definition is active. -/
theorem writeStore_definition {h : Hit} (n v : Nat) (hlo : 0x281000 ≤ h.reg.base) (hhi : h.reg.base ≤ 0x281018) :
    s.writeStore h n v = s.storeUnless (s.defOn n) R.CMP_EVENT_CFG_REJECT h v := by
  simp [writeStore, show h.reg.base ≠ 0x28000C by omega, hlo, hhi]

/-- A discarded write only sets its reject flag (R511). -/
theorem storeUnless_true (reject : Field) (h : Hit) (v : Nat) : s.storeUnless true reject h v = s.ev reject := rfl

/-- A write of a word of an active definition is discarded, whatever it holds (R327). -/
theorem writeReg_definitionWord_active {k : Fin 32} (i : Fin 7) (v : Nat) (hk : s.defOn k = true) :
    s.writeReg ⟨definitionWord i, 0x20 * k.val, false⟩ v = s.ev R.CMP_EVENT_CFG_REJECT := by
  have hb := definitionWord_base i
  have hi := i.isLt
  have hn : (dimIdx (definitionWord i).dims (0x20 * k.val)).getD 0 0 = k.val := by
    have := k.isLt
    simp only [definitionWord_dims, dimIdx, List.getD_cons_zero]
    omega
  rw [writeReg_store v (by simp only; omega) (by simp only; omega), hn,
    writeStore_definition _ v (by simp only; omega) (by simp only; omega), hk, storeUnless_true]

/-- An event leaves the bytes of every memory. -/
theorem ev_bytesKept (s : State) (f : Field) (i : Nat) : BytesKept s (s.ev f i) := by
  simp [BytesKept]

/-- The event of a rejected definition write leaves the engine and the definition table as they are. -/
theorem ev_cmpReject_effect (s : State) :
    (s.ev R.CMP_EVENT_CFG_REJECT).on R.CMP_EVENT_CFG_REJECT = true ∧ (s.ev R.CMP_EVENT_CFG_REJECT).cmp = s.cmp
      ∧ (∀ k, (s.ev R.CMP_EVENT_CFG_REJECT).defOn k = s.defOn k)
      ∧ ∀ f : Field, 0x1408000 ≤ f.key → f.key < 0x140A000 → (s.ev R.CMP_EVENT_CFG_REJECT).rd f = s.rd f := by
  refine ⟨on_ev_same s rfl (by decide), ev_cmp s _ 0, fun k => bit_ev_ne s 0 k (by decide) (by decide),
    fun f hlo hhi => ?_⟩
  have hf : R.CMP_EVENT_CFG_REJECT.key ≠ f.key := by simp only [R.CMP_EVENT_CFG_REJECT]; omega
  exact rd_ev_ne s 0 hf (by omega)

end Sys2Proof.Machine.State

namespace Sys2Proof.Machine
open Sys2Proof State

/-- An aligned 32-bit write of a register of 32 bits, served over PCIe, is a write of the register. -/
theorem exec_registerWrite_narrow {off : BitVec 24} {d : Nat} {h : Hit} (v : Word) {s : State}
    (hp : s.pcieDecode = .serve) (ha : off.toNat % 4 = 0) (hd : domainOf off.toNat = some d) (hs : s.domOn d = true)
    (hr : regAt off.toNat = some h) (hw : h.reg.wide = false) :
    exec (.registerWrite off true v) s = .next (s.writeReg h v.toNat) := by
  have e : exec (.registerWrite off true v) s = .next (s.pcieWrite off.toNat true v.toNat) := rfl
  rw [e, pcieWrite_of_serve _ _ _ hp, bar0Write_narrow _ ha hd hs hr hw]

/-- A write of a word of an active definition sets the reject flag and does nothing else. -/
theorem exec_registerWrite_definitionWord_active {k : Fin 32} (i : Fin 7) (v : Word) {s : State}
    (hp : s.pcieDecode = .serve) (hc : s.domOn dCORE = true) (hk : s.defOn k = true) :
    exec (.registerWrite (BitVec.ofNat 24 (0x281000 + 0x20 * k.val + 4 * i.val)) true v) s
      = .next (s.ev R.CMP_EVENT_CFG_REJECT) := by
  have := k.isLt
  have := i.isLt
  have ho : (BitVec.ofNat 24 (0x281000 + 0x20 * k.val + 4 * i.val)).toNat = 0x281000 + 0x20 * k.val + 4 * i.val :=
    by
    rw [BitVec.toNat_ofNat, Nat.mod_eq_of_lt (by omega)]
  rw [exec_registerWrite_narrow v hp (by omega) (domainOf_cmp (by omega) (by omega)) hc
    (by rw [ho]; exact regAt_definitionWord k i) (definitionWord_wide i), writeReg_definitionWord_active i _ hk]

/-- Settles O59: the address is a word of the definition, and being active turns its write into the reject flag. -/
theorem activeDefinitionWrite : Obligations.ActiveDefinitionWrite := by
  unfold Obligations.ActiveDefinitionWrite
  intro k i v s hp hc hk
  obtain ⟨hon, hcmp, hdef, hrd⟩ := ev_cmpReject_effect s
  exact ⟨_, exec_registerWrite_definitionWord_active i v hp hc hk, hon, hcmp, (hdef k).trans hk, hrd,
    ev_bytesKept s _ 0⟩

end Sys2Proof.Machine
end
